-- ==== Sys2Proof/Word.lean ====
section
/-! DEFINITION. The word types of the NX256 (R2: the native word is 64 bits, multi-byte values are
little-endian). -/
namespace Sys2Proof

/-- The native 64-bit word (R2). -/
abbrev Word := BitVec 64
/-- One byte of a memory, a packet or a datagram. -/
abbrev Byte := BitVec 8
/-- A run of bytes, lowest address first. -/
abbrev Bytes := List Byte
/-- The number of a g or f register (R104). -/
abbrev RegNo := BitVec 5

end Sys2Proof
end

