-- ==== Sys2Proof/Syntax.lean ====
section
/-! DEFINITION. The commands of the block: one constructor of `Instr` for each row of spec/opcode_table.json, with the
row's operands, and the types those operands take. -/
namespace Sys2Proof

/-- The two halves of the device (R12). -/
inductive HalfId | east | west
  deriving DecidableEq, Repr

/-- A thread context that executes: thread `t` of lane `l` at game level, or context `x` (14 or 15) of logical core
`core` of half `h` at system level (R71, R107). -/
inductive Ctx
  | game (l t : Nat)
  | sys (h : HalfId) (core x : Nat)
  deriving DecidableEq, Repr

/-- The functions of the ALU group (R112). -/
inductive AluFn
  | add | sub | and | or | xor | andn | sll | srl | sra | ror | slt | sltu | min | max | minu | maxu
  | addw | subw | sllw | srlw | sraw | sel | clz | ctz | popc | bswap | sextb | sexth | sextw | zextw
  deriving DecidableEq, Repr

/-- The immediate instructions (R113). -/
inductive ImmFn | addi | andi | ori | xori | slti | sltiu | shifti | shi
  deriving DecidableEq, Repr

/-- The functions of the MUL group (R114). -/
inductive MulFn | mul | mulw | mulxss | mulxuu | mulxsu | mac
  deriving DecidableEq, Repr

/-- The functions of the DIV group (R115). -/
inductive DivFn | divs | divu | divsw | divuw
  deriving DecidableEq, Repr

/-- The precision bit P of the FP and FMA groups (R127). -/
inductive FpPrec | single | double
  deriving DecidableEq, Repr

/-- The operations of the FP group (R127). The operand fields keep their raw 5-bit numbers: some rows read them as a
type, a sign selection or a rounding mode (R128). -/
inductive FpFn
  | fadd | fsub | fmul | fdiv | fsqrt | fminn | fmaxn | fminp | fmaxp | fsign
  | fcmp | fcmps | fclass | ftoi | itof | ftof | fbitsG | fbitsF
  deriving DecidableEq, Repr

/-- The compare-and-branch instructions (R116). -/
inductive BrFn | beq | bne | blt | bge | bltu | bgeu
  deriving DecidableEq, Repr

/-- The loads (R120). -/
inductive LoadFn | lb | lbu | lh | lhu | lw | lwu | ld | flw | fld
  deriving DecidableEq, Repr

/-- The stores (R120). -/
inductive StoreFn | sb | sh | sw | sd | fsw | fsd
  deriving DecidableEq, Repr

/-- The atomic operations (R122). -/
inductive AmoFn | swap | add | and | or | xor | min | max | minu | maxu | cas
  deriving DecidableEq, Repr

/-- Which of the two passes over a line composes: the beam, or the tailrace pass that replaces it from the late
moment of a frame (R56). -/
inductive Pass | beam | tailrace
  deriving DecidableEq, Repr

/-- A frame received on a port, as the checks of R358 and R316 see it: its sub-port, whether its FCS is good, its size,
the 802.1Q tag control words it carries, whether it is an IP packet with UDP of the family given (4 or 6, 0 for none),
without options, extension headers and fragmentation, whether its UDP checksum is right (none where it is zero), its
addresses and ports, and the UDP payload. -/
structure RxFrame where
  sub : Nat
  fcsOk : Bool
  size : Nat
  tags : List Nat
  family : Nat
  plain : Bool
  cksum : Option Bool
  dst : Bytes
  src : Bytes
  sport : Nat
  udp : Bytes
  deriving DecidableEq, Repr

/-- A received client or orchestrator message: the frame that carries it. -/
abbrev Rx := RxFrame

/-- The register spaces of REGISTER_WRITE: the windows of a lane as a thread or the host writes them, the SVC, queue, network and MSI-X
windows of a half (R64, R411), and the message control word of its function's MSI-X capability (R569). -/
inductive RegSpace
  | thread (l t stamp : Nat)
  | aperture (l : Nat)
  | svc (h : HalfId)
  | queue (h : HalfId)
  | net (h : HalfId)
  | msix (h : HalfId)
  | msixControl (h : HalfId)
  | tap (l : Nat)
  deriving DecidableEq, Repr

/-- A write of `value` to the register at `off` of a space, `width` bytes wide (1 to 8). -/
structure RegWrite where
  space : RegSpace
  off : Nat
  width : Nat
  value : Word
  deriving DecidableEq, Repr

/-- The units that are tested, spared and retired (R454, R462). -/
inductive UnitKind | laneUnit | core | serdes | pseudoChannel | nearSram | fordWire
  deriving DecidableEq, Repr

/-- What a fault meant when it was detected, where its class alone does not say (R450, R453, R388, R449): the first
attempt succeeded, a retry failed, and so on. -/
inductive FaultKind
  /-- masked by correction, or by the first resend, refetch or replay -/
  | masked
  /-- masked by the ECC of an array of the block (R388) -/
  | corrected
  /-- masked by a later resend, refetch or replay -/
  | retried
  /-- masked after the path moved to a spare -/
  | moved
  /-- an uncorrected register-file error of one game context (class 0), of the lane given -/
  | context
  /-- any other detected fault of the block -/
  | detected
  /-- an uncorrected ECC error in an array of the block, detected (R388) -/
  | uncorrected
  /-- an entry of a queue or buffer that no lane owns, read by a block of the class and number given (class 4, R449) -/
  | readBy (cls unitNo : Nat)
  /-- an uncorrected error in lane memory, at a lane address (R388) -/
  | memory (addr : Nat)
  /-- an uncorrected error in a page of a title image (R388) -/
  | title (id : BitVec 32) (page : Nat)
  /-- a persistent failure of the half: a relock of its core, fabric, HBM or always-on domain (R453) -/
  | domain
  deriving DecidableEq, Repr

/-- A fault as a check detects it (R449): its half, class, block number, lane (none for a fault of no lane), kind and
syndrome. -/
structure FaultInfo where
  half : HalfId
  cls : Nat
  unitNo : Nat
  lane : Option Nat
  kind : FaultKind
  syndrome : Nat
  deriving DecidableEq, Repr

/-- What a read of an HBM address found (R388): no error, a corrected one, an uncorrected one, or a command or address
parity error that has failed the given number of times. -/
inductive HbmError
  | none
  | corrected
  | uncorrected
  | parity (failures : Nat)
  deriving DecidableEq, Repr

/-- The reference clocks (R496). -/
inductive RefClk
  | aon
  | eth (h : HalfId)
  | pcie (h : HalfId)
  deriving DecidableEq, Repr

/-- What is at the pins at a strap latch (R543, R539, R497): the levels, by MFIO pin number, the banks at 2.5 V or more, and, as power comes, the
reference clocks that do not run. -/
structure PinLevels where
  high : List Nat
  v33 : List Nat
  missing : List RefClk
  deriving DecidableEq, Repr

/-- How a boot stage ended (R501, R504): done, with what the stage found, or failed with SVC_BOOT.ERR. -/
inductive StageResult
  /-- stages 0, 2, 4, 5 and 7 -/
  | done
  /-- stage 7, which runs beside stages 3 to 6, has ended before them -/
  | ports
  /-- stages 1, 3 and 6: the slots were chosen; `full` says that stage 3 trained in full -/
  | slots (full : Bool)
  | failed (err : Nat)
  deriving DecidableEq, Repr

/-- The commands of the block, in the order of the opcode table. Operands: `c` a thread context, `l` a lane 0 to 255,
`h` a half, `v` a viewer of the half, `q` a queue pair, `id` a command in flight, `tm` the device time in ns at which the
event comes, `vt`, `stamp` a virtual time, `n` a source, timer or page, `w` the writing thread. -/
inductive Instr
  /-- ALU_OP -/
  | aluOp (c : Ctx) (fn : AluFn) (rd ra rb rc : RegNo)
  /-- IMMEDIATE_OP -/
  | immediateOp (c : Ctx) (fn : ImmFn) (rd ra : RegNo) (imm : BitVec 16)
  /-- MUL_OP -/
  | mulOp (c : Ctx) (fn : MulFn) (rd ra rb rc : RegNo)
  /-- DIV_OP -/
  | divOp (c : Ctx) (fn : DivFn) (rd ra rb rc : RegNo)
  /-- UNIT_RESULT_WRITE -/
  | unitResultWrite (c : Ctx) (k : Nat)
  /-- FP_OP -/
  | fpOp (c : Ctx) (p : FpPrec) (fn : FpFn) (rd ra rb rc : RegNo)
  /-- FMA_OP -/
  | fmaOp (c : Ctx) (p : FpPrec) (np na : Bool) (rd ra rb rc : RegNo)
  /-- COMPARE_AND_BRANCH -/
  | compareAndBranch (c : Ctx) (fn : BrFn) (ra rb : RegNo) (off : BitVec 16)
  /-- J -/
  | j (c : Ctx) (off : BitVec 26)
  /-- JAL -/
  | jal (c : Ctx) (off : BitVec 26)
  /-- JALR -/
  | jalr (c : Ctx) (rd ra : RegNo) (imm : BitVec 16)
  /-- LOAD -/
  | load (c : Ctx) (fn : LoadFn) (rt base : RegNo) (off : BitVec 16)
  /-- STORE -/
  | store (c : Ctx) (fn : StoreFn) (rt base : RegNo) (off : BitVec 16)
  /-- AMO -/
  | amo (c : Ctx) (fn : AmoFn) (w32 : Bool) (rd ra rb rc : RegNo)
  /-- MFS -/
  | mfs (c : Ctx) (rd : RegNo) (n : BitVec 12)
  /-- MTS -/
  | mts (c : Ctx) (ra : RegNo) (n : BitVec 12)
  /-- ECALL -/
  | ecall (c : Ctx) (n : BitVec 12)
  /-- EBREAK -/
  | ebreak (c : Ctx)
  /-- ERET -/
  | eret (c : Ctx)
  /-- WAIT -/
  | wait (c : Ctx)
  /-- WAIT_RESUME -/
  | waitResume (c : Ctx)
  /-- MBAR -/
  | mbar (c : Ctx)
  /-- ISYNC -/
  | isync (c : Ctx)
  /-- SYSX -/
  | sysx (c : Ctx) (bits : BitVec 26)
  /-- INTERRUPT_ENTRY -/
  | interruptEntry (c : Ctx)
  /-- LOAD_DATA_RETURN -/
  | loadDataReturn (c : Ctx) (k : Nat)
  /-- PREFETCH_FILL -/
  | prefetchFill (c : Ctx)
  /-- STORE_BUFFER_DRAIN -/
  | storeBufferDrain (c : Ctx)
  /-- VIDEO_GATE_WRITE -/
  | videoGateWrite (l : Nat)
  /-- BEAM_WRITE_APPLY -/
  | beamWriteApply (l : Nat)
  /-- STAMPED_READ_RELEASE -/
  | stampedReadRelease (l : Nat) (t : Nat)
  /-- MILESTONE -/
  | milestone (l : Nat)
  /-- FRAME_BOUNDARY -/
  | frameBoundary (l : Nat) (tm : Nat)
  /-- FRAME_LATE -/
  | frameLate (l : Nat) (v : Nat)
  /-- SLACK_HOLD -/
  | slackHold (l : Nat) (v : Nat) (tm : Nat)
  /-- SLACK_HOLD_END -/
  | slackHoldEnd (l : Nat) (tm : Nat)
  /-- VBLANK_HOLD_END -/
  | vblankHoldEnd (l : Nat) (tm : Nat)
  /-- HOLD_FAULT -/
  | holdFault (l : Nat) (tm : Nat)
  /-- CROSS_THREAD_EFFECT -/
  | crossThreadEffect (l : Nat)
  /-- THR_CTL_START -/
  | thrCtlStart (l : Nat) (w t : Nat) (stamp : Nat)
  /-- THR_CTL_EXIT -/
  | thrCtlExit (l : Nat) (w t : Nat) (stamp : Nat)
  /-- PAUSE_TAKES_EFFECT -/
  | pauseTakesEffect (l : Nat) (tm : Nat)
  /-- LANE_WAKE -/
  | laneWake (l : Nat) (tm : Nat)
  /-- LIC_SOURCE_PENDING -/
  | licSourcePending (l : Nat) (n : Nat)
  /-- LIC_EOI -/
  | licEoi (l : Nat) (w : Nat) (stamp : Nat) (v : BitVec 32)
  /-- LIC_ENABLE_SET -/
  | licEnableSet (l : Nat) (w : Nat) (stamp : Nat) (v : BitVec 64)
  /-- LIC_ENABLE_CLR -/
  | licEnableClr (l : Nat) (w : Nat) (stamp : Nat) (v : BitVec 64)
  /-- LIC_PEND_CLEAR -/
  | licPendClear (l : Nat) (w : Nat) (stamp : Nat) (v : BitVec 64)
  /-- LIC_PEND_SET -/
  | licPendSet (l : Nat) (w : Nat) (stamp : Nat) (v : BitVec 64)
  /-- TIMER_TICK -/
  | timerTick (l : Nat) (n : Nat)
  /-- TIMER_WRAP -/
  | timerWrap (l : Nat) (n : Nat)
  /-- TIMER_COMPARE -/
  | timerCompare (l : Nat) (n : Nat) (vt : Nat)
  /-- TIM_CTL_WRITE -/
  | timCtlWrite (l : Nat) (n : Nat) (v : BitVec 32) (vt : Nat)
  /-- TIM_CNT_WRITE -/
  | timCntWrite (l : Nat) (n : Nat) (v : BitVec 32) (vt : Nat)
  /-- TIM_CMP_WRITE -/
  | timCmpWrite (l : Nat) (n : Nat) (v : BitVec 32) (vt : Nat)
  /-- TIMER_START -/
  | timerStart (l : Nat) (n : Nat) (v : BitVec 32) (vt : Nat)
  /-- TIMER_STOP -/
  | timerStop (l : Nat) (n : Nat) (v : BitVec 32) (vt : Nat)
  /-- TIM_CAP_TRIG -/
  | timCapTrig (l : Nat) (v : BitVec 32) (vt : Nat)
  /-- TIM_CAP_READ -/
  | timCapRead (l : Nat) (n : Nat)
  /-- TIM_CNT_PAIR_READ -/
  | timCntPairRead (l : Nat) (k : Nat)
  /-- LINE_FETCH_START -/
  | lineFetchStart (l : Nat) (p : Pass)
  /-- LINE_FETCH_COMPLETE -/
  | lineFetchComplete (l : Nat) (p : Pass)
  /-- OPACITY_RESCAN -/
  | opacityRescan (l : Nat)
  /-- RAS_OPQ_WRITE -/
  | rasOpqWrite (l : Nat) (j : Nat) (v : BitVec 64)
  /-- DOT_COMPOSE -/
  | dotCompose (l : Nat) (p : Pass)
  /-- TAP_FRAME_END -/
  | tapFrameEnd (l : Nat)
  /-- POINT_B_READ -/
  | pointBRead (l : Nat)
  /-- SLICE_CLOSE -/
  | sliceClose (l : Nat) (tm : Nat)
  /-- CPS_COMMIT_REQ -/
  | cpsCommitReq (l : Nat) (v : BitVec 32) (vt : Nat)
  /-- OVERLAY_COPY -/
  | overlayCopy (l : Nat)
  /-- CPS_TAP_IDX_WRITE -/
  | cpsTapIdxWrite (l : Nat) (v : BitVec 64)
  /-- BLT_START -/
  | bltStart (l : Nat) (v : BitVec 32) (vt : Nat)
  /-- BLT_GROUP -/
  | bltGroup (l : Nat)
  /-- BLT_END -/
  | bltEnd (l : Nat)
  /-- SOUND_FETCH_START -/
  | soundFetchStart (l : Nat)
  /-- SOUND_TICK -/
  | soundTick (l : Nat)
  /-- SND_GATE_SET -/
  | sndGateSet (l : Nat) (v : BitVec 64)
  /-- SND_GATE_CLR -/
  | sndGateClr (l : Nat) (v : BitVec 64)
  /-- SND_RETRIG -/
  | sndRetrig (l : Nat) (v : BitVec 64)
  /-- SND_ECHO_CTL_WRITE -/
  | sndEchoCtlWrite (l : Nat) (v : BitVec 64)
  /-- WEIR_INPUT -/
  | weirInput (l : Nat) (w : Nat)
  /-- STREAM_SAMPLE -/
  | streamSample (l : Nat)
  /-- NODE_TIMEOUT -/
  | nodeTimeout (l : Nat) (o i : Nat)
  /-- OPUS_FRAME_ENCODE -/
  | opusFrameEncode (l : Nat) (o : Nat)
  /-- AUDIO_SEND -/
  | audioSend (l : Nat) (o : Nat) (tm : Nat)
  /-- ANNOUNCE_READ -/
  | announceRead (l : Nat) (wr : Nat) (data : Bytes)
  /-- DATAGRAM_TRANSMIT -/
  | datagramTransmit (h : HalfId) (v : Nat) (tm : Nat)
  /-- LATE_TX_DISCARD -/
  | lateTxDiscard (h : HalfId) (v : Nat) (tm : Nat)
  /-- TIMING_REPORT -/
  | timingReport (h : HalfId) (v : Nat) (tm : Nat)
  /-- MOVE_REPEAT -/
  | moveRepeat (h : HalfId) (v : Nat) (tm : Nat)
  /-- LEAVE_REPEAT -/
  | leaveRepeat (h : HalfId) (v : Nat) (tm : Nat)
  /-- ACK -/
  | ack (h : HalfId) (rx : Rx) (tm : Nat)
  /-- REFRESH -/
  | refresh (h : HalfId) (rx : Rx) (tm : Nat)
  /-- INPUT -/
  | input (h : HalfId) (rx : Rx) (tm : Nat)
  /-- ACCESSORY -/
  | accessory (h : HalfId) (rx : Rx) (tm : Nat)
  /-- VOICE -/
  | voice (h : HalfId) (rx : Rx) (tm : Nat)
  /-- JOIN -/
  | join (h : HalfId) (rx : Rx) (tm : Nat)
  /-- PROBE -/
  | probe (h : HalfId) (rx : Rx) (tm : Nat)
  /-- COMMAND -/
  | command (h : HalfId) (rx : Rx) (tm : Nat)
  /-- ARP_REQUEST -/
  | arpRequest (h : HalfId) (k : Nat) (ip : BitVec 32) (mac : BitVec 48)
  /-- NEIGHBOUR_SOLICITATION -/
  | neighbourSolicitation (h : HalfId) (k : Nat) (ip : BitVec 128) (mac : BitVec 48)
  /-- PAD_INPUT_APPLY -/
  | padInputApply (l : Nat)
  /-- ACCESSORY_APPLY -/
  | accessoryApply (l : Nat)
  /-- VIEWER_CHANGE_APPLY -/
  | viewerChangeApply (l : Nat)
  /-- NOTIFY_APPLY -/
  | notifyApply (l : Nat)
  /-- VIEWER_IDLE -/
  | viewerIdle (h : HalfId) (v : Nat) (tm : Nat)
  /-- LOCK_TIMEOUT -/
  | lockTimeout (l : Nat) (tm : Nat)
  /-- SUBPORT_FAIL -/
  | subportFail (h : HalfId) (k : Nat) (tm : Nat)
  /-- GRATUITOUS_ARP -/
  | gratuitousArp (h : HalfId) (k : Nat)
  /-- FAILBACK -/
  | failback (h : HalfId) (k : Nat) (tm : Nat)
  /-- CONTEXT_CAPTURE -/
  | contextCapture (l : Nat) (t : Nat)
  /-- NEAR_SRAM_PAGE_COPY -/
  | nearSramPageCopy (l : Nat)
  /-- LANE_UNIT_STATE_RECORD -/
  | laneUnitStateRecord (l : Nat)
  /-- CHECKPOINT_GOOD -/
  | checkpointGood (l : Nat) (tm : Nat)
  /-- RESTORE_COMPLETE -/
  | restoreComplete (l : Nat) (tm : Nat)
  /-- SCRUB -/
  | scrub (h : HalfId) (addr : Nat) (e : HbmError) (tm : Nat)
  /-- PSEUDO_CHANNEL_SPARE -/
  | pseudoChannelSpare (h : HalfId) (pc : Nat)
  /-- TITLE_COPY_COMPLETE -/
  | titleCopyComplete (h : HalfId) (title : BitVec 32)
  /-- SNAPSHOT_ROUND -/
  | snapshotRound (l : Nat) (tm : Nat)
  /-- SUBMISSION_FETCH -/
  | submissionFetch (h : HalfId) (q : Nat) (entry params : Option Bytes) (tm : Nat)
  /-- COMPLETION_WRITE -/
  | completionWrite (h : HalfId) (q : Nat) (ok : Bool) (tm : Nat)
  /-- EVENT_RING_WRITE -/
  | eventRingWrite (h : HalfId) (tm : Nat)
  /-- SQ_TAIL_WRITE -/
  | sqTailWrite (h : HalfId) (q : Nat) (v : BitVec 32)
  /-- CQ_HEAD_WRITE -/
  | cqHeadWrite (h : HalfId) (q : Nat) (v : BitVec 32)
  /-- EV_HEAD_WRITE -/
  | evHeadWrite (h : HalfId) (v : BitVec 32)
  /-- QUEUE_PAIR_ENABLE -/
  | queuePairEnable (h : HalfId) (q : Nat) (v : BitVec 32)
  /-- QUEUE_PAIR_DISABLE -/
  | queuePairDisable (h : HalfId) (q : Nat) (v : BitVec 32)
  /-- EVENT_RING_ENABLE -/
  | eventRingEnable (h : HalfId) (v : BitVec 32)
  /-- MSIX_VECTOR_UNMASK -/
  | msixVectorUnmask (h : HalfId) (vec : Nat) (tm : Nat)
  /-- FUNCTION_LEVEL_RESET -/
  | functionLevelReset (h : HalfId)
  /-- SMBUS_BLOCK_WRITE -/
  | smbusBlockWrite (packet : Bytes) (pecOk : Bool) (tm : Nat)
  /-- SMBUS_BLOCK_READ -/
  | smbusBlockRead
  /-- SMBUS_ALERT_RESPONSE -/
  | smbusAlertResponse
  /-- LANE_START -/
  | laneStart (id : Nat) (tm : Nat)
  /-- LANE_STOP -/
  | laneStop (id : Nat) (tm : Nat)
  /-- LANE_PAUSE -/
  | lanePause (id : Nat) (tm : Nat)
  /-- LANE_RESUME -/
  | laneResume (id : Nat) (tm : Nat)
  /-- LANE_NOTIFY -/
  | laneNotify (id : Nat) (tm : Nat)
  /-- LANE_QUERY -/
  | laneQuery (id : Nat) (tm : Nat)
  /-- VIEWER_ADD -/
  | viewerAdd (id : Nat) (tm : Nat)
  /-- VIEWER_REMOVE -/
  | viewerRemove (id : Nat) (tm : Nat)
  /-- VIEWER_SET -/
  | viewerSet (id : Nat) (tm : Nat)
  /-- VIEWER_REKEY -/
  | viewerRekey (id : Nat) (tm : Nat)
  /-- VIEWER_KEYFRAME -/
  | viewerKeyframe (id : Nat) (tm : Nat)
  /-- LANE_PACER -/
  | lanePacer (id : Nat) (tm : Nat)
  /-- TIMING_SET -/
  | timingSet (id : Nat) (tm : Nat)
  /-- LANE_TUNE -/
  | laneTune (id : Nat) (tm : Nat)
  /-- OV_LOAD -/
  | ovLoad (id : Nat) (tm : Nat)
  /-- OP_SET -/
  | opSet (id : Nat) (tm : Nat)
  /-- OP_COMMIT -/
  | opCommit (id : Nat) (tm : Nat)
  /-- XPT_SET -/
  | xptSet (id : Nat) (tm : Nat)
  /-- ANNOUNCE_RING -/
  | announceRing (id : Nat) (tm : Nat)
  /-- TITLE_LOAD -/
  | titleLoad (id : Nat) (data : Bytes) (tm : Nat)
  /-- TITLE_UNLOAD -/
  | titleUnload (id : Nat) (tm : Nat)
  /-- TITLE_REPAIR -/
  | titleRepair (id : Nat) (data : Bytes) (tm : Nat)
  /-- LANE_SNAPSHOT -/
  | laneSnapshot (id : Nat) (tm : Nat)
  /-- LANE_RESTORE -/
  | laneRestore (id : Nat) (image : Bytes) (tm : Nat)
  /-- MOVE_PLAN -/
  | movePlan (id : Nat) (tm : Nat)
  /-- LANE_MOVE -/
  | laneMove (id : Nat) (tm : Nat)
  /-- MON_READ -/
  | monRead (id : Nat) (tm : Nat)
  /-- MON_LIMITS -/
  | monLimits (id : Nat) (tm : Nat)
  /-- LIFE_READ -/
  | lifeRead (id : Nat) (tm : Nat)
  /-- LIFE_FLUSH -/
  | lifeFlush (id : Nat) (tm : Nat)
  /-- SELFTEST -/
  | selftest (id : Nat) (tm : Nat)
  /-- FAULT_READ -/
  | faultRead (id : Nat) (tm : Nat)
  /-- UNIT_RETIRE -/
  | unitRetire (id : Nat) (tm : Nat)
  /-- FAULT_INJECT -/
  | faultInject (id : Nat) (tm : Nat)
  /-- FW_STAGE -/
  | fwStage (id : Nat) (data : Bytes) (tm : Nat)
  /-- FW_COMMIT -/
  | fwCommit (id : Nat) (tm : Nat)
  /-- FW_QUERY -/
  | fwQuery (id : Nat) (tm : Nat)
  /-- PRESENCE_STATUS -/
  | presenceStatus (id : Nat) (tm : Nat)
  /-- PRESENCE_END -/
  | presenceEnd (id : Nat) (tm : Nat)
  /-- CTRL_FLOW -/
  | ctrlFlow (id : Nat) (tm : Nat)
  /-- DEV_INFO -/
  | devInfo (id : Nat) (tm : Nat)
  /-- PORT_CFG -/
  | portCfg (id : Nat) (tm : Nat)
  /-- PORT_ADDR -/
  | portAddr (id : Nat) (tm : Nat)
  /-- PORT_DRAIN -/
  | portDrain (id : Nat) (tm : Nat)
  /-- REG_READ -/
  | regRead (id : Nat) (tm : Nat)
  /-- DRAIN -/
  | drain (id : Nat) (tm : Nat)
  /-- DRAIN_STATUS -/
  | drainStatus (id : Nat) (tm : Nat)
  /-- EVENT_SUB -/
  | eventSub (id : Nat) (tm : Nat)
  /-- NOP -/
  | nop (id : Nat) (tm : Nat)
  /-- FAULT_DETECTED -/
  | faultDetected (f : FaultInfo) (tm : Nat)
  /-- SP_RESTART_COMPLETE -/
  | spRestartComplete (h : HalfId) (tm : Nat)
  /-- HALF_RECOVERY_END -/
  | halfRecoveryEnd (h : HalfId) (ok : Bool) (tm : Nat)
  /-- LANE_UNIT_ROTATION -/
  | laneUnitRotation (h : HalfId) (tm : Nat)
  /-- SPARE_HANDOFF -/
  | spareHandoff (l : Nat) (tm : Nat)
  /-- UNIT_TEST_COMPLETE -/
  | unitTestComplete (h : HalfId) (u : UnitKind) (idx : Nat) (pass : Bool) (tm : Nat)
  /-- CORE_SWAP -/
  | coreSwap (h : HalfId) (tm : Nat)
  /-- HEARTBEAT_SEND -/
  | heartbeatSend (h : HalfId) (tm : Nat)
  /-- HEARTBEAT_RECEIVE -/
  | heartbeatReceive (h : HalfId) (wire : Nat) (word : BitVec 32) (tm : Nat)
  /-- HEARTBEAT_MISS -/
  | heartbeatMiss (h : HalfId) (tm : Nat)
  /-- CLAIM_RESOLVE -/
  | claimResolve (h : HalfId) (up down : Bool) (tm : Nat)
  /-- ROLE_LISTEN_END -/
  | roleListenEnd (h : HalfId) (tm : Nat)
  /-- AUTHORITY_SAMPLE -/
  | authoritySample (h : HalfId) (up down : Bool)
  /-- MONITOR_UPDATE -/
  | monitorUpdate (h : HalfId) (cls idx : Nat) (value : Int) (tm : Nat)
  /-- LADDER_PAUSE -/
  | ladderPause (h : HalfId) (tm : Nat)
  /-- LADDER_RESUME -/
  | ladderResume (h : HalfId) (tm : Nat)
  /-- AVS_UPDATE -/
  | avsUpdate (h : HalfId) (acked : Bool) (readback : Nat) (tm : Nat)
  /-- AVS_RETRY -/
  | avsRetry (h : HalfId) (acked : Bool) (readback : Nat) (tm : Nat)
  /-- DROOP_START -/
  | droopStart (h : HalfId) (rail : Nat) (tm : Nat)
  /-- DROOP_END -/
  | droopEnd (h : HalfId) (rail : Nat) (depth : Nat) (tm : Nat)
  /-- THERMTRIP -/
  | thermtrip (tm : Nat)
  /-- LIFE_SECOND -/
  | lifeSecond (h : HalfId) (tm : Nat)
  /-- LIFETIME_FLUSH -/
  | lifetimeFlush (h : HalfId) (tm : Nat)
  /-- MIRROR_WRITE -/
  | mirrorWrite (h : HalfId) (reached : Bool)
  /-- PWRGD_RISE -/
  | pwrgdRise (pins : PinLevels) (tm : Nat)
  /-- PWRGD_FALL -/
  | pwrgdFall
  /-- RESET_N_ASSERT -/
  | resetNAssert (tm : Nat)
  /-- RESET_N_RELEASE -/
  | resetNRelease (pins : PinLevels) (tm : Nat)
  /-- BOOT_STAGE_COMPLETE -/
  | bootStageComplete (h : HalfId) (r : StageResult) (tm : Nat)
  /-- DEVICE_READY -/
  | deviceReady (tm : Nat)
  /-- PERST_ASSERT -/
  | perstAssert (h : HalfId)
  /-- PERST_RELEASE -/
  | perstRelease (h : HalfId) (tm : Nat)
  /-- REFCLK_LOSS -/
  | refclkLoss (clk : RefClk)
  /-- EJECT -/
  | eject (h : HalfId) (tm : Nat)
  /-- DRAIN_NOTICE -/
  | drainNotice (h : HalfId) (tm : Nat)
  /-- FINAL_ROUND -/
  | finalRound (l : Nat) (tm : Nat)
  /-- IMAGE_WRITE_OUT -/
  | imageWriteOut (l : Nat) (tm : Nat)
  /-- DRAIN_BUFFER_TIMEOUT -/
  | drainBufferTimeout (tm : Nat)
  /-- SAFE -/
  | safe (tm : Nat)
  /-- FW_COPY -/
  | fwCopy (h : HalfId) (tm : Nat)
  /-- TRIAL_RESTART -/
  | trialRestart (h : HalfId) (tm : Nat)
  /-- TRIAL_RESTART_TIMEOUT -/
  | trialRestartTimeout (h : HalfId) (tm : Nat)
  /-- PRESENCE_ACTION -/
  | presenceAction (h : HalfId) (tm : Nat)
  /-- GRANT_EXPIRY -/
  | grantExpiry (tm : Nat)
  /-- SEAL_BAND_CHANGE -/
  | sealBandChange (h : HalfId) (code : Option (BitVec 12)) (tm : Nat)
  /-- MFIO_MUX_WRITE -/
  | mfioMuxWrite (h : HalfId) (i : Nat) (v : BitVec 32)
  /-- MFIO_SWITCH_HOLD_END -/
  | mfioSwitchHoldEnd (h : HalfId) (i : Nat)
  /-- MFIO_CFG_WRITE -/
  | mfioCfgWrite (h : HalfId) (i : Nat) (v : BitVec 32)
  /-- PIN_INTERRUPT -/
  | pinInterrupt (h : HalfId) (i : Nat) (level : Bool) (tm : Nat)
  /-- REGISTER_WRITE -/
  | registerWrite (w : RegWrite)
  /-- ILLEGAL_INSTRUCTION -/
  | illegalInstruction (c : Ctx) (w : BitVec 32)
  /-- INSTRUCTION_ACCESS_FAULT -/
  | instructionAccessFault (c : Ctx)
  /-- RECEIVED_FRAME_DISCARD -/
  | receivedFrameDiscard (h : HalfId) (f : RxFrame) (tm : Nat)
  /-- SUBPORT_LINK_UP -/
  | subportLinkUp (h : HalfId) (k : Nat) (tm : Nat)
  /-- MSIX_DEFERRED_SEND -/
  | msixDeferredSend (h : HalfId) (vec : Nat) (tm : Nat)
  /-- TRAINING_TABLES_WRITE -/
  | trainingTablesWrite (h : HalfId) (version : BitVec 32) (body : Bytes) (tm : Nat)
  deriving DecidableEq, Repr

end Sys2Proof
end

