-- ==== Sys2Proof/Config.lean ====
section
/-! DEFINITION. What the manual leaves open: constants without a body, so that no proof can rest on a value of theirs.
Each is named in the assumption log. The first argument `n` of a free value is a counter of the state that every draw
advances, so that two draws need not agree. -/
namespace Sys2Proof.Config

/-- The coefficient of one of the 32 taps of a weir's interpolator in one of its 256 phases (R293), where r_nom is `num / den`; R298 bounds
what they pass and the coefficients are not given. -/
opaque weirTap : (num den phase tap : Nat) → Rat
/-- Which of the two integers around the exact sum of the taps a weir's sample is, by its lowest bit: the rounding is not given (R293). -/
opaque weirRound : Rat → Nat
/-- How far, modulo 3, the test tone's sample `n` lies above the integer below its exact sine (R302: neither the rounding nor which of 32,767
and 32,768 is 0 dBFS is given). -/
opaque toneRound : (freq level n : Nat) → Nat
/-- The Opus frame of an output, from the draw counter, KBPS and the 480 stereo samples (R311: the coder's choices are
its own). -/
opaque opusEncode : (n kbps : Nat) → List (Int × Int) → Bytes
/-- Sample `k` of a channel to which a received Opus packet decodes at 16 kHz, or at 48 kHz where `hi` (R310), from the draw counter and the
bytes: RFC 6716 leaves a decoder's samples free within its tests. -/
opaque opusPcm : (n : Nat) → Bytes → (hi : Bool) → (channel k : Nat) → Int
/-- The coefficient of a tap of the low-pass filter at 7 kHz on voice decoded at 48 kHz, and which of the two integers around the exact sum a
filtered sample is, by its lowest bit (R310 gives neither). -/
opaque voiceTap : (tap : Nat) → Rat
opaque voiceRound : Rat → Nat
/-- The samples by which Opus loss concealment replaces a missing packet (R310). -/
opaque opusConceal : (n : Nat) → List Int
/-- A free number, where the manual names a value and does not give it. -/
opaque freeNat : (n : Nat) → Nat
/-- A free word. -/
opaque freeWord : (n : Nat) → Word
/-- A free choice between two outcomes that the manual allows. -/
opaque freeBool : (n : Nat) → Bool
/-- Whether system context `x` of a half, counted as 16 times its core plus its number, has an interrupt pending at a draw (R77): the manual
does not describe the controller of the system threads. -/
opaque sysPends : (n x : Nat) → Bool
/-- DETAIL of the access fault that a system thread's access of `n` bytes at an address raises, if it raises one, for a store where `store` (R97,
R135), and whether it meets a register at the wrong width (R4): the manual gives system threads no address map and no permissions. -/
opaque sysDetail : (store : Bool) → (addr n : Nat) → Option Nat
opaque sysMisfit : (addr n : Nat) → Bool
/-- Free bytes, where the manual names contents and does not give their layout. -/
opaque freeByte : (n i : Nat) → Byte

/-- The HBM row of a half that holds an address, and whether a row still has a spare row in its bank after `n` repairs (R386, R388, R390: the
manual gives neither the rows nor the number of spare ones). -/
opaque hbmRow : (addr : Nat) → Nat
opaque spareRow : (row n : Nat) → Bool
/-- The number that decides in which set of a core's instruction or data cache a line falls, from the memory it belongs to and its
address / 64 (R80, R89: the manual gives the sizes and the ways, not the index). -/
opaque cacheIndex : (space line : Nat) → Nat

/-- The UDP port from which the device sends: the spec names none (log entry 92). -/
opaque devicePort : Nat

end Sys2Proof.Config
end

