-- ==== Sys2Proof/Machine/Bits.lean ====
section
/-! DEFINITION. Bit fields, byte order, sign extension and small arithmetic, used by every family. -/
namespace Sys2Proof.Machine

/-- Bits [lo + n - 1 : lo] of `x`, as a number. -/
def bits (x : Word) (lo n : Nat) : Nat := (x.toNat >>> lo) % 2 ^ n
/-- Bit `i` of `x`. -/
def bit (x : Word) (i : Nat) : Bool := x.toNat.testBit i
/-- A mask of `n` ones from bit `lo` up. -/
def mask (lo n : Nat) : Word := BitVec.ofNat 64 ((2 ^ n - 1) <<< lo)
/-- `x` with bits [lo + n - 1 : lo] replaced by the low `n` bits of `v`. -/
def putBits (x : Word) (lo n v : Nat) : Word :=
  (x &&& ~~~ mask lo n) ||| (BitVec.ofNat 64 ((v % 2 ^ n) <<< lo))
/-- `x` with bit `i` set to `b`. -/
def putBit (x : Word) (i : Nat) (b : Bool) : Word := putBits x i 1 b.toNat
/-- A field that saturates at its width of `n` bits. -/
def satBits (n v : Nat) : Nat := min v (2 ^ n - 1)
/-- The signed value of the low `n` bits of `v`, two's complement (R3). -/
def signed (n v : Nat) : Int :=
  let m := v % 2 ^ n
  if m < 2 ^ (n - 1) then (m : Int) else (m : Int) - (2 ^ n : Nat)
/-- The two's complement code of `i` in `n` bits (R3). -/
def unsigned (n : Nat) (i : Int) : Nat := (i % ((2 ^ n : Nat) : Int)).toNat
/-- `i` clamped to `lo … hi`. -/
def clamp (lo hi i : Int) : Int := if i < lo then lo else if hi < i then hi else i
/-- The quotient rounded up. -/
def ceilDiv (a b : Nat) : Nat := (a + b - 1) / b
/-- The first multiple of `b` at or above `a`. -/
def roundUp (a b : Nat) : Nat := ceilDiv a b * b
/-- `n` little-endian bytes of `v` (R2). -/
def leBytes : Nat → Nat → Bytes
  | 0, _ => []
  | n + 1, v => BitVec.ofNat 8 v :: leBytes n (v / 256)
/-- The number that little-endian bytes spell (R2). -/
def leNat : Bytes → Nat
  | [] => 0
  | b :: t => b.toNat + 256 * leNat t
/-- `n` big-endian bytes of `v`, as the network fields give them. -/
def beBytes (n v : Nat) : Bytes := (leBytes n v).reverse
/-- The number that big-endian bytes spell. -/
def beNat (b : Bytes) : Nat := leNat b.reverse
/-- `n` bytes of `b` from offset `o`, zeros past its end. -/
def slice (b : Bytes) (o n : Nat) : Bytes :=
  let t := (b.drop o).take n
  t ++ List.replicate (n - t.length) 0
/-- The little-endian field of `n` bytes at offset `o` of `b`. -/
def leAt (b : Bytes) (o n : Nat) : Nat := leNat (slice b o n)
/-- The big-endian field of `n` bytes at offset `o` of `b`. -/
def beAt (b : Bytes) (o n : Nat) : Nat := beNat (slice b o n)
/-- Nat to Word. -/
def w64 (n : Nat) : Word := BitVec.ofNat 64 n
/-- Sign extension of the low `n` bits to 64. -/
def sextN (n v : Nat) : Word := BitVec.ofInt 64 (signed n v)
/-- The greatest of a list, 0 for none. -/
def maxL (l : List Nat) : Nat := l.foldl max 0
/-- Replace the element at `i` of a list. -/
def setAt {α : Type} (l : List α) (i : Nat) (v : α) : List α := l.set i v

end Sys2Proof.Machine
end

