-- ==== Sys2Proof/Machine/Store.lean ====
section
/-! DEFINITION. Sparse maps: lists of (key, value) pairs in one canonical form, the keys strictly rising and no entry
equal to what an unlisted key reads as. Memories, register files, palettes and tables are kept so, and equal
contents are equal data. -/
namespace Sys2Proof.Machine

/-- A sparse map from numbers to `V`. -/
abbrev Sparse (V : Type) := List (Nat × V)

/-- The value at `k`, where `d k` is what an unlisted key reads as. -/
def Sparse.get {V : Type} (d : Nat → V) : Sparse V → Nat → V
  | [], k => d k
  | (k', v) :: t, k => if k' = k then v else Sparse.get d t k

/-- The map with an entry for `k` in its place. -/
def Sparse.insert {V : Type} : Sparse V → Nat → V → Sparse V
  | [], k, v => [(k, v)]
  | (k', v') :: t, k, v =>
    if k < k' then (k, v) :: (k', v') :: t else if k = k' then (k, v) :: t else (k', v') :: Sparse.insert t k v
/-- The map with `v` at `k`. Writing what an unlisted key reads as removes the entry. -/
def Sparse.set {V : Type} [DecidableEq V] (d : Nat → V) (m : Sparse V) (k : Nat) (v : V) : Sparse V :=
  if v = d k then m.filter (fun p => !decide (p.1 = k)) else Sparse.insert m k v

/-- The keys rise strictly from `lo` on, and no entry equals what an unlisted key reads as. -/
def Sparse.wfFrom {V : Type} [DecidableEq V] (d : Nat → V) : Nat → Sparse V → Bool
  | _, [] => true
  | lo, (k, v) :: t => decide (lo ≤ k) && decide (v ≠ d k) && Sparse.wfFrom d (k + 1) t

/-- The canonical form. -/
def Sparse.wf {V : Type} [DecidableEq V] (d : Nat → V) (m : Sparse V) : Bool := Sparse.wfFrom d 0 m

/-- A memory: bytes by address. -/
abbrev Mem := Sparse Byte

/-- What a byte of memory that nothing has written reads as: 0 (R387 for a lane's windows). -/
def memDefault (_ : Nat) : Byte := 0
/-- One byte of a memory. -/
def Mem.read (m : Mem) (a : Nat) : Byte := Sparse.get memDefault m a
/-- One byte written. -/
def Mem.write (m : Mem) (a : Nat) (b : Byte) : Mem := Sparse.set memDefault m a b
/-- The canonical form of a memory. -/
def Mem.wf (m : Mem) : Bool := Sparse.wf memDefault m
/-- `n` bytes from address `a` up. -/
def Mem.readBytes (m : Mem) (a : Nat) : Nat → Bytes
  | 0 => []
  | n + 1 => m.read a :: m.readBytes (a + 1) n
/-- Bytes written from address `a` up. -/
def Mem.writeBytes (m : Mem) (a : Nat) : Bytes → Mem
  | [] => m
  | b :: t => (m.write a b).writeBytes (a + 1) t
/-- The little-endian number of `n` bytes at `a` (R2). -/
def Mem.readNat (m : Mem) (a n : Nat) : Nat := leNat (m.readBytes a n)

/-- The first entry of an association list with key `k`. -/
def assoc {V : Type} (k : Nat) : List (Nat × V) → Option V
  | [] => none
  | (k', v) :: t => if k' = k then some v else assoc k t

end Sys2Proof.Machine
end

