-- ==== Sys2Proof/Machine/RegMap.lean ====
section
/-! DEFINITION. The register maps of the lane windows and of the SVC, queue and network windows of a half: where each
register stands, its width, the access code of its fields (R4 to R8), its live fields and its reset value. -/
namespace Sys2Proof.Machine

/-- One map: `count` registers of one layout, the i-th at `base + i * stride`. A mask gives the fields of one access
code (R6); every other field is RO or reserved. `reset i` is the value after the reset that R8 names. -/
structure RegDef where
  name : String
  base : Nat
  count : Nat
  stride : Nat
  wide : Bool
  rw : Word
  w1c : Word
  w1s : Word
  live : Word
  reset : Nat → Word

/-- Bytes of the register (R4). -/
def RegDef.width (d : RegDef) : Nat := if d.wide then 8 else 4
/-- The index of the register of this map at offset `off`, if there is one. -/
def RegDef.index (d : RegDef) (off : Nat) : Option Nat :=
  if d.base ≤ off ∧ (off - d.base) % d.stride = 0 ∧ (off - d.base) / d.stride < d.count then
    some ((off - d.base) / d.stride)
  else none

/-- What a write of `v` leaves of `old` by the access codes of R6: RW fields take it, a 1 clears a W1C field and sets
a W1S field, everything else stays. -/
def RegDef.write (d : RegDef) (old v : Word) : Word :=
  ((((old &&& ~~~ d.rw) ||| (v &&& d.rw)) &&& ~~~ (v &&& d.w1c)) ||| (v &&& d.w1s))

/-- A 32-bit map whose fields are RW where `rw` has ones. -/
def reg32 (name : String) (base count stride : Nat) (rw : Word) (reset : Word := 0) : RegDef :=
  { name := name, base := base, count := count, stride := stride, wide := false, rw := rw, w1c := 0, w1s := 0, live := 0,
    reset := fun _ => reset }
/-- A 64-bit map whose fields are RW where `rw` has ones. -/
def reg64 (name : String) (base count stride : Nat) (rw : Word) (reset : Word := 0) : RegDef :=
  { name := name, base := base, count := count, stride := stride, wide := true, rw := rw, w1c := 0, w1s := 0, live := 0,
    reset := fun _ => reset }
/-- A map with other access codes as well. -/
def RegDef.codes (d : RegDef) (w1c w1s live : Word) : RegDef := { d with w1c := w1c, w1s := w1s, live := live }
/-- A map whose reset values depend on the index. -/
def RegDef.resets (d : RegDef) (f : Nat → Word) : RegDef := { d with reset := f }

def ones64 : Word := 0xFFFFFFFFFFFFFFFF
def ones32 : Word := 0xFFFFFFFF

/-- The raster window, offsets 0x0000 to 0xFFFF of the aperture (R170, R173, R192, R202, R203). -/
def rasterMap : List RegDef :=
  [ reg64 "RAS_TIMING" 0x0000 1 8 0
  , reg32 "RAS_LINECMP" 0x0008 2 4 0x80001FFF
  , (reg64 "RAS_STAT" 0x0010 1 8 0).codes 0xF 0 0x0000FFFF00000000
  , (reg64 "RAS_FETCH" 0x0018 1 8 0).codes 0 0 0xFFFFFFFF00000000
  , reg32 "RAS_BG0_CTL, RAS_BG1_CTL" 0x0100 2 0x40 0xF7D
  , reg32 "RAS_BG2_CTL, RAS_BG3_CTL" 0x0180 2 0x40 0xF7F
  , reg32 "RAS_BGn_MAP" 0x0104 4 0x40 0x03FFF000
  , reg32 "RAS_BGn_TILE" 0x0108 4 0x40 0x03FFFC00
  , reg32 "RAS_BGn_SCROLL" 0x010C 4 0x40 0x0FFF0FFF
  , reg64 "RAS_BGn_AFF_MX" 0x0190 2 0x40 ones64 0x10000
  , reg64 "RAS_BGn_AFF_MY" 0x0198 2 0x40 ones64 0x0001000000000000
  , reg64 "RAS_BGn_AFF_O" 0x01A0 2 0x40 ones64
  , reg32 "RAS_BGn_AFF_C" 0x01A8 2 0x40 0x3FFF3FFF
  , reg64 "RAS_OPQ" 0x0200 2 8 0x800FFFFF03FFFC00
  , (reg32 "RAS_OPQ_STAT" 0x0210 1 4 0).codes 0 0 0x1FFFF
  , reg32 "RAS_SPR_CTL" 0x0300 1 4 0x03FF0001
  , (reg64 "RAS_SPR_STAT" 0x0308 1 8 0).codes 0x100 0 0
  , (reg32 "RAS_COLL" 0x0310 1 4 0).codes 0xFFFFFFFF 0 0
  , reg32 "RAS_COLL_EN" 0x0314 1 4 ones32
  , reg32 "RAS_COLL_LINE" 0x0318 1 4 0
  , reg32 "RAS_LL_CTL" 0x0320 1 4 0x03FFFFCF
  , (reg64 "RAS_LL_STAT" 0x0328 1 8 0).codes 0x300000000 0 0
  , reg64 "RAS_WIN" 0x0340 4 8 0x9FFF1FFF1FFF1FFF
  , reg32 "RAS_WIN_MASK" 0x0360 5 4 0x3F 0x3F
  , reg32 "RAS_WIN_STAT" 0x0378 1 4 0
  , reg64 "RAS_BLD" 0x0380 2 8 0x000001FF01FF000F 0x1000000
  , reg32 "RAS_BLD_SEL" 0x0390 1 4 0x1F
  , reg32 "RAS_MOSAIC" 0x03A0 5 4 0x9F1F1F1F
  , reg64 "RAS_SAFF_MX" 0x1000 64 16 ones64 0x10000
  , reg64 "RAS_SAFF_MY" 0x1008 64 16 ones64 0x0001000000000000
  , reg32 "RAS_PAL" 0x4000 4096 4 ones32
  , reg64 "RAS_SPR_A" 0x8000 1024 32 0x03FEFFFF1FFF1FFF
  , reg64 "RAS_SPR_B" 0x8008 1024 32 0x00001F1F1FFFFFFF
  , reg64 "RAS_SPR_U[0]" 0x8010 1024 32 ones64
  , reg64 "RAS_SPR_U[1]" 0x8018 1024 32 ones64 ]

/-- The reset value of CPS_MATRIX[k] (R254): 1.0 on the diagonal. -/
def matrixReset (k : Nat) : Word := w64 (0x1000 * 2 ^ (16 * k))

/-- The lane side of the compositor window, offsets 0x1_0000 on (R254), and the active copies of the shadowed
registers at + 0x0800, RO (R235). -/
def compositorMap : List RegDef :=
  [ reg32 "CPS_CTRL" 0x10000 1 4 0x7
  , (reg64 "CPS_MATRIX" 0x10008 3 8 0x07FFFFFFFFFFFFFF).resets matrixReset
  , (reg32 "CPS_COMMIT" 0x10020 1 4 0 0x400).codes 0x2 0x1 0
  , reg64 "CPS_SIG" 0x10040 4 8 0xDFFF1FFF1FFF1FFF
  , reg32 "CPS_SIG_EXP" 0x10060 4 4 ones32
  , reg32 "CPS_SIG_RES" 0x10070 4 4 0
  , (reg32 "CPS_SIG_STAT" 0x10080 1 4 0).codes 0xF 0 0
  , reg32 "CPS_CTRL, active" 0x10800 1 4 0
  , (reg64 "CPS_MATRIX, active" 0x10808 3 8 0).resets matrixReset
  , reg64 "CPS_SIG, active" 0x10840 4 8 0
  , reg32 "CPS_SIG_EXP, active" 0x10860 4 4 0 ]

/-- The operator side of the compositor window, offsets 0x1_8000 on (R254): registers for the host alone. -/
def operatorMap : List RegDef :=
  [ reg32 "CPS_OUT" 0x18000 1 4 0
  , reg32 "CPS_OV_CTL" 0x18010 2 4 0 0xFF00
  , reg32 "CPS_OV_METER" 0x18018 1 4 0
  , reg64 "CPS_OV_RECT_A[0]" 0x18100 16 16 0
  , reg64 "CPS_OV_RECT_B[0]" 0x18108 16 16 0
  , reg64 "CPS_OV_RECT_A[1]" 0x18200 16 16 0
  , reg64 "CPS_OV_RECT_B[1]" 0x18208 16 16 0
  , reg64 "CPS_SIG[4-7]" 0x18400 4 8 0
  , reg32 "CPS_SIG_EXP[4-7]" 0x18420 4 4 0
  , reg32 "CPS_SIG_RES[4-7]" 0x18430 4 4 0
  , reg32 "CPS_SIG_OSTAT" 0x18440 1 4 0
  , reg64 "CPS_TAP_CTL" 0x18800 1 8 0 0x30
  , reg64 "CPS_TAP_IDX" 0x18808 1 8 0xFFFFFFFF00000000
  , reg32 "CPS_TAP_STAT" 0x18810 1 4 0
  , reg32 "CPS_OV_PAL" 0x19000 512 4 0 ]

/-- The sound window, offsets 0x2_0000 on (R291). -/
def soundMap : List RegDef :=
  [ reg32 "SND_VOICE_CTL" 0x20000 48 0x40 0x00FF073F 0x800000
  , reg32 "SND_VOICE_PITCH" 0x20004 48 0x40 ones32
  , reg64 "SND_VOICE_ADDR" 0x20008 48 0x40 0xFFFFFFFFFF
  , reg64 "SND_VOICE_LEN" 0x20010 48 0x40 ones64
  , reg64 "SND_VOICE_ENV" 0x20018 48 0x40 0x00FFFFFFFFFFFFFF 0x00FF000000000000
  , reg32 "SND_VOICE_MIX" 0x20020 48 0x40 ones32 0x40FF
  , reg64 "SND_VOICE_STAT" 0x20028 48 0x40 0
  , reg32 "SND_CTRL" 0x21000 1 4 0
  , reg32 "SND_MASTER" 0x21004 1 4 0x1FF 0x100
  , reg64 "SND_GATE" 0x21008 1 8 0x0000FFFFFFFFFFFF
  , (reg64 "SND_RETRIG" 0x21010 1 8 0).codes 0 0x0000FFFFFFFFFFFF 0
  , (reg64 "SND_ENDF" 0x21018 1 8 0).codes 0x0000FFFFFFFFFFFF 0 0
  , (reg64 "SND_LOOPF" 0x21020 1 8 0).codes 0x0000FFFFFFFFFFFF 0 0
  , reg64 "SND_END_EN" 0x21028 1 8 0x0000FFFFFFFFFFFF
  , reg64 "SND_LOOP_EN" 0x21030 1 8 0x0000FFFFFFFFFFFF
  , reg64 "SND_GATE_SET" 0x21050 1 8 0
  , reg64 "SND_GATE_CLR" 0x21058 1 8 0
  , reg64 "SND_ECHO_CTL" 0x21040 1 8 0xFFFFFFFF03FFFFC1 0x7F00000100000000
  , reg32 "SND_ECHO_DAMP" 0x21048 1 4 0xFF
  , (reg32 "SND_ECHO_TAP" 0x21060 8 4 0x01FFFFFF).resets (fun k => if k = 0 then 0x7F0001 else 1)
  , reg64 "SND_BQ_A" 0x21080 4 16 ones64 0x4000
  , reg64 "SND_BQ_B" 0x21088 4 16 0xFFFF
  , reg64 "SND_FETCH" 0x210C0 1 8 0
  , (reg64 "SND_STAT" 0x210C8 1 8 0).codes 1 0 0xFFFF000000000000
  , reg64 "SND_WAVE" 0x21800 32 8 ones64 ]

/-- The timer, LIC, blitter and lane-system windows and the pads window: R169, R157, R268, R66, R309, R381, R436.
Registers whose state stands in fields of its own have no RW mask here: `laneWrite` sends their writes there. -/
def smallMap : List RegDef :=
  [ reg32 "TIM_CTL" 0x30000 8 0x20 0
  , reg32 "TIM_CNT" 0x30004 8 0x20 0
  , reg32 "TIM_TOP" 0x30008 8 0x20 0 0xFFFFFFFF
  , reg32 "TIM_CMP" 0x3000C 8 0x20 0
  , reg32 "TIM_CAP" 0x30010 8 0x20 0
  , reg32 "TIM_STAT" 0x30014 8 0x20 0 0x20
  , reg32 "TIM_GSTART" 0x30100 1 4 0
  , reg32 "TIM_CAP_TRIG" 0x30104 1 4 0
  , reg32 "TIM_HOLD" 0x30110 4 4 0
  , reg32 "LIC_SRC_CFG" 0x31000 64 4 0
  , reg64 "LIC_ENABLE" 0x31100 1 8 0
  , reg64 "LIC_ENABLE_SET" 0x31108 1 8 0
  , reg64 "LIC_ENABLE_CLR" 0x31110 1 8 0
  , reg64 "LIC_PEND" 0x31118 1 8 0
  , reg64 "LIC_PEND_SET" 0x31120 1 8 0
  , reg64 "LIC_ACTIVE" 0x31128 1 8 0
  , reg32 "LIC_THRESH" 0x31140 4 4 0
  , reg32 "LIC_EOI" 0x31150 1 4 0
  , reg32 "LIC_STAT" 0x31154 1 4 0
  , reg32 "LIC_SEL" 0x31160 4 4 0
  , reg32 "PAD_BTN" 0x32000 4 0x20 0
  , reg32 "PAD_TRIG" 0x32004 4 0x20 0
  , reg64 "PAD_AXIS" 0x32008 4 0x20 0
  , (reg32 "PAD_STAT" 0x32010 4 0x20 0).codes 1 0 0
  , (reg32 "PAD_ACC" 0x32100 4 4 0).codes 0x10000 0 0
  , (reg32 "PAD_VIEWERS" 0x32110 1 4 0).codes 0x10000 0 0
  , reg64 "PAD_NOTIFY" 0x32118 1 8 0
  , reg32 "BLT_CTL" 0x33000 1 4 0xFF6 0xC00
  , reg64 "BLT_SRC" 0x33008 1 8 0xFFFFFFFFFF
  , reg64 "BLT_DST" 0x33010 1 8 0xFFFFFFFFFF
  , reg32 "BLT_SIZE" 0x33018 1 4 0x1FFF1FFF
  , reg64 "BLT_PITCH" 0x33020 1 8 0x00FFFFFF00FFFFFF
  , reg32 "BLT_FILL" 0x33028 1 4 ones32
  , reg32 "BLT_KEY" 0x3302C 1 4 ones32
  , (reg64 "BLT_STAT" 0x33030 1 8 0).codes 2 0 0
  , reg64 "BLT_VEND" 0x33038 1 8 0
  , (reg64 "LSYS_CTRL" 0x34000 1 8 0 0xFFF0200).codes 0 0 0xC
  , (reg64 "LSYS_SYNTH" 0x34008 1 8 0).codes 0 0 0xFFFF020000000000
  , reg64 "LSYS_VT" 0x34010 1 8 0
  , reg64 "LSYS_MILESTONE" 0x34018 1 8 0
  , reg64 "LSYS_BEAM" 0x34020 1 8 0
  , (reg64 "LSYS_FRAME_STAT" 0x34028 1 8 0).codes 0 0 0xFFFFFFFFFFFFFF01
  , reg64 "LSYS_WAKE" 0x34030 1 8 0x7 0x3
  , (reg64 "LSYS_LEAD" 0x34040 4 8 0).codes 0 0 ones64
  , reg64 "LSYS_THR_ENTRY[0]" 0x34080 1 8 0
  , reg64 "LSYS_THR_ENTRY[1-3]" 0x34088 3 8 0xFFFFFFFFFF
  , (reg64 "LSYS_THR_CTL" 0x340C0 4 8 0).codes 0 0 0xF00 ]

/-- The reset value of XPT_ROW[o] (R312). -/
def xptRowReset (o : Nat) : Word :=
  match o with
  | 0 => 0x00C1C1C1C100C1C1
  | 1 => 0x00C1C1C100C1C1C1
  | 2 => 0x00C1C100C1C1C1C1
  | 3 => 0x00C100C1C1C1C1C1
  | _ => 0x00C100000000C1C1

/-- The audio window, at aperture offset 0x3_8000 (R312, R412). -/
def audioMap : List RegDef :=
  [ (reg64 "XPT_ROW" 0x38000 6 8 0).resets xptRowReset
  , ((reg32 "XPT_OUT" 0x38040 6 4 0).codes 0 0 0xF0000000).resets (fun o => if o < 5 then 0x800006 else 0x800002)
  , (reg32 "XPT_ACT" 0x38060 1 4 0).codes 0 0 0xFF
  , reg32 "XPT_STAT" 0x38068 1 4 0
  , (reg64 "XPT_PEND" 0x38070 1 8 0).codes 0 0 ones64
  , reg32 "XPT_TONE" 0x38078 1 4 0 0x2803E8
  , (reg64 "WEIR_STAT" 0x38080 5 8 0 0x100).codes 0 0 0xFFFF01FF ]

/-- The registers of the windows a game thread sees, by offset from 0x00_F000_0000 (R64, R412). -/
def threadMap : List RegDef := rasterMap ++ compositorMap ++ soundMap ++ smallMap
/-- Every register of a lane aperture (R412). -/
def laneMap : List RegDef := rasterMap ++ compositorMap ++ operatorMap ++ soundMap ++ smallMap ++ audioMap

/-- The map entry and the index of the register at an offset. -/
def findReg (m : List RegDef) (off : Nat) : Option (RegDef × Nat) :=
  m.findSome? (fun d => (d.index off).map (fun i => (d, i)))

/-- The value of the lane register at `off` after lane reset. -/
def laneReset (off : Nat) : Word :=
  match findReg laneMap off with
  | some (d, i) => d.reset i
  | none => 0

/-- Whether any byte of the range `off … off + n - 1` belongs to a register of a map (R4, R65). -/
def touchesReg (m : List RegDef) (off n : Nat) : Bool :=
  m.any (fun d => (List.range (n + 7)).any (fun j =>
    let o := off + n - 1 - j
    match d.index o with
    | some _ => decide (off < o + d.width) && decide (o < off + n)
    | none => false))

end Sys2Proof.Machine
end

