-- ==== Sys2Proof/Machine/SoundTypes.lean ====
section
/-! DEFINITION. The state of the sound unit that lies in no register (R281 to R291). -/
namespace Sys2Proof.Machine

/-- The state of one voice: the accumulator and page (R283), the fields latched at key-on (R281), the envelope level
and phase (R286), the noise register, the ADPCM decoder (R284) and the gate seen at the previous tick. `adCount` codes
have been decoded, the latest two giving `adP` and `adPrev`; `adSaved` is the state saved at LOOP_START. -/
structure Voice where
  acc : Nat
  page : Nat
  src : Nat
  interp : Bool
  loopEn : Bool
  envByp : Bool
  wtab : Nat
  start : Nat
  stop : Nat
  loopStart : Nat
  level : Nat
  phase : Nat
  noise : Nat
  adP : Int
  adI : Nat
  adPrev : Int
  adCount : Nat
  adSaved : Option (Int × Nat)
  gate : Bool
  playing : Bool
  bad : Bool
  deriving DecidableEq, Repr

def Voice.reset : Voice :=
  { acc := 0, page := 0, src := 0, interp := false, loopEn := false, envByp := false, wtab := 0, start := 0, stop := 0,
    loopStart := 0, level := 0, phase := 0, noise := 0x7FFF, adP := 0, adI := 0, adPrev := 0, adCount := 0,
    adSaved := none, gate := false, playing := false, bad := false }

/-- A biquad stage of one channel: its two previous inputs and clamped outputs (R289). -/
structure BqState where
  x1 : Int
  x2 : Int
  y1 : Int
  y2 : Int
  deriving DecidableEq, Repr

def BqState.reset : BqState := { x1 := 0, x2 := 0, y1 := 0, y2 := 0 }

/-- A stereo pair handed to weir 0 with the VT of its tick (R271). -/
structure LaneSample where
  vt : Nat
  mainL : Int
  mainR : Int
  echoL : Int
  echoR : Int
  deriving DecidableEq, Repr

/-- The sound fetch of a line: its milestone, the voices cut (R278), the need after the cut, the video RAM it saw (R276)
and the same with the echo's own writes since, which only echo reads see (R280), in normal mode the 64-byte lines of it that were read before a store to them (R274), and
whether SND_STAT shows its cut. -/
structure SndLine where
  mil : Nat
  cut : Nat
  need : Nat
  view : Mem
  echo : Mem
  taken : List Nat
  shown : Bool
  deriving DecidableEq, Repr

/-- The need and the cut of a line's sound fetch, fixed before the fetch (R277, R278): its milestone, the voices cut and the
need after the cut. -/
structure SndPlan where
  mil : Nat
  cut : Nat
  need : Nat
  deriving DecidableEq, Repr

/-- The sound unit: voices, echo write index and damping, four biquads a channel (left 0 to 3, right 4 to 7), the
VT of the next tick, the fetched lines, the milestone of the next line to fetch, the plans of lines to come, the
milestone of the next line to plan, and the VT of the latest write of SND_RETRIG with the bits set there (R7). -/
structure Sound where
  voices : Sparse Voice
  w : Nat
  dL : Int
  dR : Int
  bq : Sparse BqState
  tick : Nat
  lines : List SndLine
  nextFetch : Nat
  plans : List SndPlan
  nextPlan : Nat
  retrig : Nat × Word
  deriving DecidableEq, Repr, Inhabited

def voiceReset (_ : Nat) : Voice := .reset
def bqReset (_ : Nat) : BqState := .reset

/-- The sound unit after lane reset. -/
def Sound.reset : Sound :=
  { voices := [], w := 0, dL := 0, dR := 0, bq := [], tick := 0, lines := [], nextFetch := 0, plans := [], nextPlan := 0, retrig := (0, 0) }

end Sys2Proof.Machine
end

