-- ==== Sys2Proof/Machine/AudioTypes.lean ====
section
/-! DEFINITION. The state of a lane's weirs, crosspoint and coders (R293 to R311). Positions, rates and scale factors
are held in units of 2^-32, gains in units of 2^-20. -/
namespace Sys2Proof.Machine

/-- An input frame of a weir: the VT of its tick (R297; 0 for a voice) and its channels. -/
structure WFrame where
  vt : Nat
  ch : List Int
  deriving DecidableEq, Repr

/-- What a weir's output is doing (R295, R296): nothing special, fading out from its last samples, silent, fading in,
or crossing from the frames before and after an old read position; with the samples left of the 32. -/
inductive WeirFade
  | none
  | out (left : Nat)
  | into (left : Nat)
  | cross (left : Nat) (past old : List WFrame) (rp : Nat)
  deriving DecidableEq, Repr

/-- A weir (R293 to R297): the 31 frames read last, its elastic store, both oldest first, the read position in 2^-32 frames from the first of
the store, the interpolated samples of the 4 output samples of delay, oldest first, the correction c in ppm, gap state, the last samples
produced, and its counters. -/
structure Weir where
  past : List WFrame
  frames : List WFrame
  rp : Nat
  pipe : List (List Int)
  c : Rat
  gap : Bool
  fade : WeirFade
  last : List Int
  gaps : Nat
  skips : Nat
  deriving DecidableEq, Repr

def Weir.reset : Weir :=
  { past := [], frames := [], rp := 0, pipe := [], c := 0, gap := true, fade := .none, last := [], gaps := 0, skips := 0 }
def weirReset (_ : Nat) : Weir := .reset

/-- One channel of a crosspoint node (R303 to R305): its effective gain, whether it waits for a crossing, and the ramp
in progress. -/
structure NodeCh where
  gain : Int
  waits : Bool
  src : Int
  left : Nat
  deriving DecidableEq, Repr

/-- A crosspoint node: its target gain, the samples since the first pending write, its two channels. -/
structure Node where
  target : Int
  since : Nat
  l : NodeCh
  r : NodeCh
  deriving DecidableEq, Repr

/-- The scale factor of an output and its ramp (R306). -/
structure OutScale where
  s : Rat
  src : Rat
  target : Rat
  left : Nat
  deriving DecidableEq, Repr

/-- An Opus frame ready for the network engine (R311). -/
structure OpusFrame where
  output : Nat
  index : Nat
  data : Bytes
  deriving DecidableEq, Repr

/-- A received voice packet in its slot's store (R310): Runnel SEQ, less 2^32 for each epoch begun since, declared 48 kHz, data. -/
structure VoicePkt where
  seq : Int
  hi : Bool
  data : Bytes
  deriving DecidableEq, Repr

/-- The voice decoder of a player slot (R310): its store, the last packet decoded, the samples concealed since, and the
decoded samples that have not entered the weir; `past` are the last 31 samples decoded at 48 kHz, which the filter still weighs. -/
structure VoiceDec where
  store : List VoicePkt
  lastSeq : Option Int
  concealed : Nat
  out : List Int
  past : List Int
  deriving DecidableEq, Repr

def voiceDecReset (_ : Nat) : VoiceDec := { store := [], lastSeq := none, concealed := 0, out := [], past := [] }

/-- The announcement ring (R439): attached, its host address and size, the read pointer, the samples of a read in
hand. -/
structure Announce where
  on : Bool
  addr : Nat
  size : Nat
  rd : Nat
  queue : List (Int × Int)
  deriving DecidableEq, Repr

def Announce.reset : Announce := { on := false, addr := 0, size := 0, rd := 0, queue := [] }

/-- A lane's audio outside its virtual time. `handoff` holds the samples of the sound unit that have not entered weir 0 (R271); `held` says
that the lane has been restored and its clock has not restarted, so that stream samples do not count yet (R311). -/
structure Audio where
  handoff : List LaneSample
  weirs : Sparse Weir
  nodes : Sparse Node
  scales : Sparse OutScale
  muted : List Bool
  quiet : List Nat
  prev : List (Int × Int)
  toneN : Nat
  sample : Nat
  asm : Sparse (List (Int × Int))
  frameIx : Sparse Nat
  ready : List OpusFrame
  voices : Sparse VoiceDec
  ann : Announce
  timeouts : Nat
  clips : Nat
  tapMix : List (Int × Int)
  held : Bool
  deriving DecidableEq, Repr

/-- The linear gain of a code (R300), by its defining inequality: the greatest r with 2r − 1 ≤ 2^21 × 10^((G − 193)/40),
found one bit at a time from bit `k` down. -/
def gainSearch (g : Nat) : Nat → Nat → Nat
  | 0, r => r
  | k + 1, r =>
    let t := r + 2 ^ k
    let ok := if 193 ≤ g then decide ((2 * t - 1) ^ 40 ≤ 2 ^ 840 * 10 ^ (g - 193))
      else decide ((2 * t - 1) ^ 40 * 10 ^ (193 - g) ≤ 2 ^ 840)
    gainSearch g k (if ok then t else r)
/-- The linear gain of a code in 2^-20 (R300): 0 mutes, 218 and above act as 217. -/
def gainOf (g : Nat) : Int := if g = 0 then 0 else ((gainSearch (min g 217) 23 0 : Nat) : Int)

/-- A node at rest at a gain code. -/
def nodeAt (g : Int) : Node :=
  let c : NodeCh := { gain := g, waits := false, src := g, left := 0 }
  { target := g, since := 0, l := c, r := c }
/-- A node after lane reset: the gain of its code in XPT_ROW (R312), 0 for a voice, whose slot is muted (R309). Node
(o, i) stands at 8 o + i. -/
def nodeReset (k : Nat) : Node :=
  if 2 ≤ k % 8 ∧ k % 8 ≤ 5 then nodeAt 0 else nodeAt (gainOf (bits (xptRowReset (k / 8)) (8 * (k % 8)) 8))
/-- A scale factor after lane reset: 1. -/
def scaleReset (_ : Nat) : OutScale := { s := 1, src := 1, target := 1, left := 0 }
def asmReset (_ : Nat) : List (Int × Int) := []

/-- The audio of a lane at LANE_START (R312). No slot has reported an accessory, so every voice is muted (R309). -/
def Audio.reset : Audio :=
  { handoff := [], weirs := [], nodes := [], scales := [], muted := [true, true, true, true], quiet := List.replicate 8 2400,
    prev := List.replicate 8 (0, 0), toneN := 0, sample := 0, asm := [], frameIx := [], ready := [], voices := [],
    ann := .reset, timeouts := 0, clips := 0, tapMix := [], held := false }

end Sys2Proof.Machine
end

