-- ==== Sys2Proof/Machine/SoundOps.lean ====
section
/-! DEFINITION. One tick of the sound unit, voice by voice, and the need of its fetch (R271, R277 to R290). `R` reads
the sound registers, `B` a byte of the lane address space, `title` is the loaded length of the title image. -/
namespace Sys2Proof.Machine

def clamp16 (x : Int) : Int := clamp (-32768) 32767 x

/-- Register offsets of voice `v` (R291). -/
def vreg (v o : Nat) : Nat := 0x20000 + 0x40 * v + o

/-- Half-bytes a sample of SRC 0, 1 or 2 takes. -/
def srcHalfBytes (src : Nat) : Nat := match src with | 0 => 2 | 1 => 4 | _ => 1
/-- The bytes of `n` samples of SRC 0, 1 or 2. -/
def srcBytes (src n : Nat) : Nat := ceilDiv (n * srcHalfBytes src) 2

/-- Whether a byte range lies whole in video RAM, or whole in the loaded title image (R275, R282). -/
def sampleRangeOk (title a n : Nat) : Bool :=
  (decide (0x20000000 ≤ a) && decide (a + n ≤ 0x24000000)) ||
    (decide (0x40000000 ≤ a) && decide (a + n ≤ 0x40000000 + title))

/-- The key-on check of R282. -/
def keyOnOk (R : Nat → Word) (title v : Nat) : Bool :=
  let src := bits (R (vreg v 0)) 0 3
  if 3 ≤ src then true
  else
    let a := bits (R (vreg v 8)) 0 40
    let e := bits (R (vreg v 0x10)) 0 32
    let ls := bits (R (vreg v 0x10)) 32 32
    decide (1 ≤ e) && (!bit (R (vreg v 0)) 4 || decide (ls < e)) && sampleRangeOk title a (srcBytes src e)

/-- Key-on (R281): the latches, and attack from the voice's current level. -/
def keyOn (R : Nat → Word) (title v : Nat) (x : Voice) : Voice :=
  if keyOnOk R title v then
    let c := R (vreg v 0)
    { x with acc := 0, page := 0, src := bits c 0 3, interp := bit c 3, loopEn := bit c 4, envByp := bit c 5,
             wtab := bits c 8 3, start := bits (R (vreg v 8)) 0 40, stop := bits (R (vreg v 0x10)) 0 32,
             loopStart := bits (R (vreg v 0x10)) 32 32, level := if x.playing then x.level else 0, phase := 1,
             noise := 0x7FFF, adP := 0, adI := 0, adPrev := 0, adCount := 0, adSaved := none, playing := true,
             bad := false }
  else { x with bad := true }

/-- The sustain target ES (R286). -/
def sustainOf (sl : Nat) : Nat := (sl * 128 + sl / 2) * 256
def envMax : Nat := 0x7FFFFF

/-- One envelope step (R286): the voice, and whether it ends in release. -/
def envStep (R : Nat → Word) (v : Nat) (x : Voice) : Voice × Bool :=
  if x.envByp then (x, false)
  else
    let e := R (vreg v 0x18)
    let es := sustainOf (bits e 48 8)
    match x.phase with
    | 1 =>
      let ar := bits e 0 16
      let n := if ar = 0 then envMax else min envMax (x.level + ar)
      ({ x with level := n, phase := if n = envMax then 2 else 1 }, false)
    | 2 =>
      let dr := bits e 16 16
      let n := if dr = 0 then x.level else max es (x.level - dr)
      ({ x with level := n, phase := if n = es then 3 else 2 }, false)
    | 4 =>
      let rr := bits e 32 16
      let n := if rr = 0 then 0 else x.level - rr
      ({ x with level := n }, decide (n = 0))
    | _ => (x, false)

/-- The sample position n (R283). -/
def Voice.pos (x : Voice) : Nat := x.page * 65536 + x.acc / 65536

/-- One ADPCM code (R284). -/
def adStep (p : Int) (i c : Nat) : Int × Nat :=
  let m := c % 8
  let step := (16 + 2 * (i % 8)) <<< (i / 8)
  let diff : Int := (((2 * m + 1) * step) >>> 3 : Nat)
  let p' := clamp16 (if 8 ≤ c then p - diff else p + diff)
  let adj : Int := match m with | 4 => 2 | 5 => 4 | 6 => 6 | 7 => 8 | _ => -1
  (p', (clamp 0 79 ((i : Int) + adj)).toNat)

/-- Code `n` of a voice's data (R284). -/
def adCode (B : Nat → Byte) (x : Voice) (n : Nat) : Nat :=
  let b := (B (x.start + n / 2)).toNat
  if n % 2 = 0 then b % 16 else b / 16

/-- Decode `k` further codes (R284), saving the state at the first decoding of code LOOP_START. -/
def adDecode (B : Nat → Byte) : Nat → Voice → Voice
  | 0, x => x
  | k + 1, x =>
    let (p, i) := adStep x.adP x.adI (adCode B x x.adCount)
    let saved := if x.adCount = x.loopStart ∧ x.adSaved = none then some (p, i) else x.adSaved
    adDecode B k { x with adP := p, adI := i, adPrev := x.adP, adCount := x.adCount + 1, adSaved := saved }

/-- The sample at position `n` of an ADPCM voice whose decoder has reached it or the code after it. -/
def adAt (x : Voice) (n : Nat) : Int := if x.adCount = n + 1 then x.adP else x.adPrev

/-- The raw sample `n` of a PCM voice (R283). -/
def pcmAt (B : Nat → Byte) (x : Voice) (n : Nat) : Int :=
  if x.src = 0 then signed 8 (B (x.start + n)).toNat * 256
  else signed 16 ((B (x.start + 2 * n)).toNat + 256 * (B (x.start + 2 * n + 1)).toNat)

/-- The sample a voice forms at this tick, its decoder advanced as far as it needs (R283). -/
def voiceSample (R : Nat → Word) (B : Nat → Byte) (v : Nat) (x : Voice) : Int × Voice :=
  let u := x.acc / 65536
  match x.src with
  | 3 => (signed 8 (bits (R (0x21800 + 32 * x.wtab + 8 * (x.acc / 2 ^ 27 / 8))) (8 * (x.acc / 2 ^ 27 % 8)) 8) * 256, x)
  | 4 => (if x.acc / 2 ^ 24 < bits (R (vreg v 0)) 16 8 then 32767 else -32767, x)
  | 5 => (if u < 32768 then 2 * (u : Int) - 32768 else 32767 - 2 * ((u : Int) - 32768), x)
  | 6 => (if x.noise % 2 = 0 then 32767 else -32767, x)
  | 7 => (if x.noise % 2 = 0 then 32767 else -32767, x)
  | _ =>
    let n := x.pos
    let atEnd := decide (n + 1 = x.stop)
    let need := if x.interp && !atEnd then n + 2 else n + 1
    let y := if x.src = 2 then adDecode B (need - x.adCount) x else x
    let s0 := if x.src = 2 then adAt y n else pcmAt B y n
    let s1 : Int :=
      if !atEnd then (if x.src = 2 then y.adP else pcmAt B y (n + 1))
      else if x.loopEn then
        (if x.src = 2 then (match y.adSaved with | some p => p.1 | none => 0) else pcmAt B y x.loopStart)
      else 0
    (if x.interp then s0 + ((s1 - s0) * ((x.acc % 65536 : Nat) : Int)) / 65536 else s0, y)

/-- `k` shifts of the noise register; SRC 7 feeds bit 6 as well (R283). -/
def noiseShift (seven : Bool) : Nat → Nat → Nat
  | 0, r => r
  | k + 1, r =>
    let f := (r % 2) ^^^ (r / 2 % 2)
    let s := r / 2 + f * 2 ^ 14
    noiseShift seven k (if seven then s - (s / 64 % 2) * 64 + f * 64 else s)

/-- Steps 4 and 5 of R283: the accumulator, the noise register, and the end or the loop of R285. The flags tell
whether the voice ended and whether it looped. -/
def voiceAdvance (R : Nat → Word) (v : Nat) (x : Voice) : Voice × Bool × Bool :=
  let p0 := bits (R (vreg v 4)) 0 32
  let p := if x.src < 3 then min p0 0x100000 else p0
  let sum := x.acc + p
  let x := { x with acc := sum % 2 ^ 32, page := x.page + sum / 2 ^ 32,
                    noise := if x.src = 6 ∨ x.src = 7 then noiseShift (x.src == 7) ((x.acc % 65536 + p % 65536) / 65536) x.noise
                             else x.noise }
  if 3 ≤ x.src ∨ x.pos < x.stop then (x, false, false)
  else if x.loopEn then
    let len := x.stop - x.loopStart
    let n := x.loopStart + (x.pos - x.loopStart) % len
    let y := { x with page := n / 65536, acc := (n % 65536) * 65536 + x.acc % 65536 }
    let y := match y.src, y.adSaved with
      | 2, some (q, i) => { y with adP := q, adI := i, adPrev := q, adCount := y.loopStart + 1 }
      | _, _ => y
    (y, false, true)
  else (x, true, false)

/-- What the buses of a tick have gathered so far (R287), with the end and loop flags raised. -/
structure Buses where
  l : Int
  r : Int
  a : Int
  b : Int
  ends : Nat
  loops : Nat
  deriving DecidableEq, Repr

/-- The end of a voice (R285). -/
def Voice.ended (x : Voice) : Voice := { x with playing := false, phase := 0, level := 0 }

/-- One voice at one tick (R281, R283, R286, R287). -/
def voiceTick (R : Nat → Word) (B : Nat → Byte) (title cut : Nat) (s : Sparse Voice × Buses) (v : Nat) :
    Sparse Voice × Buses :=
  let x := Sparse.get voiceReset s.1 v
  let gate := bit (R 0x21008) v
  let retrig := bit (R 0x21010) v
  let on := gate && (!x.gate || retrig)
  let off := x.gate && !gate
  let x := { x with gate := gate }
  let x := if on then keyOn R title v x
    else if off && x.playing && !x.envByp then { x with phase := 4 } else x
  let endsNow := off && x.playing && x.envByp
  if !x.playing then (Sparse.set voiceReset s.1 v x, s.2)
  else
    let (x, done) := envStep R v x
    let (smp, x) := voiceSample R B v x
    let smp := if cut.testBit v then 0 else smp
    let mix := R (vreg v 0x20)
    let lv : Int := if x.envByp then 32767 else ((x.level / 256 : Nat) : Int)
    let g := lv * ((bits mix 0 8 + 1 : Nat) : Int) / 256
    let a := smp * g / 32768
    let pan : Int := ((min 128 (bits mix 8 8) : Nat) : Int)
    let b := s.2
    let b := { b with l := b.l + a * (128 - pan) / 128, r := b.r + a * pan / 128,
                      a := b.a + a * ((bits mix 16 8 : Nat) : Int) / 256, b := b.b + a * ((bits mix 24 8 : Nat) : Int) / 256 }
    let (x, ended, looped) := voiceAdvance R v x
    let fin := done || ended || endsNow
    let x := if fin then x.ended else x
    (Sparse.set voiceReset s.1 v x,
     { b with ends := b.ends + (if fin then 2 ^ v else 0), loops := b.loops + (if looped then 2 ^ v else 0) })

/-- SND_ECHO_CTL's fields (R288): LEN 0 acts as 1. -/
def echoOn (R : Nat → Word) : Bool := bit (R 0x21040) 0
def echoLen (R : Nat → Word) : Nat := max 1 (bits (R 0x21040) 32 16)
/-- The lane address of the left half of frame `j` of the echo ring: the ring wraps within video RAM. -/
def echoAddr (R : Nat → Word) (j k : Nat) : Nat := 0x20000000 + (bits (R 0x21040) 6 20 * 64 + 4 * j + k) % 2 ^ 26
/-- One channel of frame `j` of the ring. -/
def echoRead (R : Nat → Word) (B : Nat → Byte) (j : Nat) (right : Bool) : Int :=
  let o := if right then 2 else 0
  signed 16 ((B (echoAddr R j o)).toNat + 256 * (B (echoAddr R j (o + 1))).toNat)

/-- The tap sum of one channel (R288). -/
def echoTaps (R : Nat → Word) (B : Nat → Byte) (w : Nat) (right : Bool) : Int :=
  (List.range 8).foldl (fun acc k =>
    let t := R (0x21060 + 4 * k)
    let d := min (echoLen R) (max 1 (bits t 0 16))
    let g := signed 8 (bits t 16 8)
    if g = 0 then acc
    else acc + g * echoRead R B ((w + echoLen R - d) % echoLen R) (right != bit t 24)) 0

/-- What one tick of the echo gives: the return of both channels, the damping state, the frame written (R288). -/
structure EchoOut where
  retL : Int
  retR : Int
  dL : Int
  dR : Int
  wl : Int
  wr : Int
  deriving DecidableEq, Repr

def echoTick (R : Nat → Word) (B : Nat → Byte) (w : Nat) (dL dR busA busB : Int) : EchoOut :=
  let c := R 0x21040
  let fb := signed 8 (bits c 48 8)
  let rv := signed 8 (bits c 56 8)
  let damp : Int := ((bits (R 0x21048) 0 8 : Nat) : Int)
  let yl := clamp16 ((echoTaps R B w false + 64) / 128)
  let yr := clamp16 ((echoTaps R B w true + 64) / 128)
  let dl := dL + (yl - dL) * (256 - damp) / 256
  let dr := dR + (yr - dR) * (256 - damp) / 256
  { retL := yl * rv / 128, retR := yr * rv / 128, dL := dl, dR := dr,
    wl := clamp16 (clamp16 busA + dl * fb / 128), wr := clamp16 (clamp16 busB + dr * fb / 128) }

/-- One biquad stage on one sample (R289). -/
def bqStep (R : Nat → Word) (q : Nat) (s : BqState) (x : Int) : Int × BqState :=
  let a := R (0x21080 + 16 * q)
  let b := R (0x21088 + 16 * q)
  let y := clamp16 ((signed 16 (bits a 0 16) * x + signed 16 (bits a 16 16) * s.x1 + signed 16 (bits a 32 16) * s.x2 -
    signed 16 (bits a 48 16) * s.y1 - signed 16 (bits b 0 16) * s.y2 + 8192) / 16384)
  (y, { x1 := x, x2 := s.x1, y1 := y, y2 := s.y1 })

/-- Stages `q` and `q + 1` of one channel; `k` is 0 for left, 4 for right. -/
def bqPair (R : Nat → Word) (bq : Sparse BqState) (q k : Nat) (x : Int) : Int × Sparse BqState :=
  let (y, s) := bqStep R q (Sparse.get bqReset bq (q + k)) x
  let bq := Sparse.set bqReset bq (q + k) s
  let (z, s) := bqStep R (q + 1) (Sparse.get bqReset bq (q + 1 + k)) y
  (z, Sparse.set bqReset bq (q + 1 + k) s)

/-- What a tick leaves behind: the unit's state, the sample for weir 0, the echo frame to store (its address and
bytes), and the flags raised (R271). -/
structure TickOut where
  snd : Sound
  out : LaneSample
  echo : Option (List (Nat × Byte))
  ends : Nat
  loops : Nat
  deriving DecidableEq, Repr

/-- The tick at `vt` (R271), of a line with the voices of `cut` cut; the echo reads bytes of its own (R280). -/
def soundTick (R : Nat → Word) (B E : Nat → Byte) (title cut vt : Nat) (s : Sound) : TickOut :=
  let (vs, bus) := (List.range 48).foldl (voiceTick R B title cut)
    (s.voices, { l := 0, r := 0, a := 0, b := 0, ends := 0, loops := 0 : Buses })
  let on := echoOn R
  let e := if on then echoTick R E s.w s.dL s.dR bus.a bus.b
    else { retL := 0, retR := 0, dL := s.dL, dR := s.dR, wl := 0, wr := 0 }
  let mv : Int := ((bits (R 0x21004) 0 9 : Nat) : Int)
  let (ml, bq) := bqPair R s.bq 0 0 (clamp16 (bus.l * mv / 256))
  let (mr, bq) := bqPair R bq 0 4 (clamp16 (bus.r * mv / 256))
  let (el, bq) := bqPair R bq 2 0 e.retL
  let (er, bq) := bqPair R bq 2 4 e.retR
  let frame := leBytes 2 (unsigned 16 e.wl) ++ leBytes 2 (unsigned 16 e.wr)
  { snd := { s with voices := vs, w := if on then (s.w + 1) % echoLen R else s.w, dL := e.dL, dR := e.dR, bq := bq,
                    tick := s.tick },
    out := { vt := vt, mainL := ml, mainR := mr, echoL := el, echoR := er },
    echo := if on then some ((List.range 4).map (fun k => (echoAddr R s.w k, frame.getD k 0))) else none,
    ends := bus.ends, loops := bus.loops }

/-- The requests of one playing sample voice (R277): `t` is the most ticks in one line. -/
def voiceNeed (R : Nat → Word) (t v : Nat) (x : Voice) : Nat :=
  if x.playing && decide (x.src < 3) then
    let p := min 16 (ceilDiv (bits (R (vreg v 4)) 0 32) 65536)
    ceilDiv (t * p * srcHalfBytes x.src) 128 + 2
  else 0
/-- The requests of the echo (R277). -/
def echoNeed (R : Nat → Word) (t : Nat) : Nat := if echoOn R then 9 * (ceilDiv (4 * t) 64 + 1) else 0

/-- The cut of R278 for allowance `sa`: the voices cut and the need after the cut. -/
def soundCut (R : Nat → Word) (t sa : Nat) (vs : Sparse Voice) : Nat × Nat :=
  let need v := voiceNeed R t v (Sparse.get voiceReset vs v)
  let total := (List.range 48).foldl (fun a v => a + need v) (echoNeed R t)
  (List.range 48).reverse.foldl (fun (a : Nat × Nat) v =>
    if sa < a.2 ∧ 0 < need v then (a.1 + 2 ^ v, a.2 - need v) else a) (0, total)

/-- SND_VOICE_STAT[v] (R291). -/
def voiceStat (x : Voice) : Nat :=
  let ph := if !x.playing then 0 else if x.envByp then 3 else x.phase
  x.pos % 2 ^ 32 + (if x.playing && x.envByp then 32767 else x.level / 256) * 2 ^ 32 + ph * 2 ^ 48 +
    x.playing.toNat * 2 ^ 51 + x.bad.toNat * 2 ^ 52

end Sys2Proof.Machine
end

