-- ==== Sys2Proof/Machine/AudioOps.lean ====
section
/-! DEFINITION. Weirs, crosspoint nodes, automatic scaling and the mix of one stream sample (R293 to R306, R309,
R311). -/
namespace Sys2Proof.Machine

/-- The unit of read positions and rates, 2^32. -/
def fx : Nat := 2 ^ 32

/-- r_nom of a weir (R293) as a fraction. -/
structure Rate where
  num : Nat
  den : Nat
  deriving DecidableEq, Repr

/-- r_nom of weir 0: the lane audio rate from INT, FRAC and POST of LSYS_SYNTH and SNDDIV, over 48 kHz; STEER is
excluded (R293). -/
def laneRate (synth snddiv : Word) : Rate :=
  { num := 25000000 * (bits synth 24 8 * 2 ^ 24 + bits synth 0 24),
    den := 2 ^ 24 * 2 * bits synth 32 9 * bits snddiv 0 17 * 48000 }
/-- r_nom of the voice weirs: 1/3. -/
def voiceRate : Rate := { num := 1, den := 3 }

/-- The unread input of a weir, in 2^-32 frames. -/
def Weir.unread (w : Weir) : Nat := w.frames.length * fx - w.rp
/-- The fill f in output samples (R294). -/
def Weir.fill (w : Weir) (r : Rate) : Rat := if r.num = 0 then 0 else ((w.unread * r.den : Nat) : Rat) / ((r.num * fx : Nat) : Rat)

/-- The read position moved on by `step` 2^-32 frames: the frames passed are those read last. -/
def Weir.advance (w : Weir) (step : Nat) : Weir :=
  let n := (w.rp + step) / fx
  let past := w.past ++ w.frames.take n
  { w with past := past.drop (past.length - 31), frames := w.frames.drop n, rp := (w.rp + step) % fx }
/-- The oldest frames discarded so that f is 20 (R295, R296). -/
def Weir.cutTo20 (w : Weir) (r : Rate) : Weir :=
  w.advance (w.unread - (if r.den = 0 then 0 else 20 * r.num * fx / r.den))

/-- The correction of R294 for fill `f`, in ppm: 0.005 of (f − 20) / 20 is 250 ppm for each output sample above 20. -/
def weirCorr (f : Rat) : Rat := max (-10000) (min 10000 ((f - 20) * 250))
/-- How far the read position moves at an output sample: r_nom × (1 + c) (R293). DESIGN CHOICE: rounded down to 2^-32 frames, the unit of read
positions; the manual gives none. -/
def weirAdvance (r : Rate) (c : Rat) : Nat :=
  if r.den = 0 then 0 else (((r.num * fx : Nat) : Rat) * (1 + c / 1000000) / (r.den : Rat)).floor.toNat

/-- The interpolated sample of channel `k` at a read position (R293). DESIGN CHOICE: the 32 taps are the frame at the read position and the
31 before it, so that each tap has its frame at every fill; one before the first frame of the store is 0. -/
def weirSample (r : Rate) (past frames : List WFrame) (rp k : Nat) : Int :=
  let xs := List.replicate 31 0 ++ (past ++ frames.take (rp / fx + 1)).map (fun f => f.ch.getD k 0)
  let taps := xs.drop (xs.length - 32)
  let y := ((List.range 32).map (fun j => Config.weirTap r.num r.den (rp % fx * 256 / fx) j * (taps.getD j 0 : Rat))).sum
  y.floor + ((Config.weirRound y % 2 : Nat) : Int)

/-- A frame arrives (R296): a full store loses its oldest frame and counts a skip; a fill above 96 outside gap state
skips to 20 and crossfades. -/
def Weir.input (w : Weir) (r : Rate) (f : WFrame) : Weir :=
  let full := decide (256 ≤ w.frames.length)
  let w := if full then w.advance fx else w
  let w := { w with frames := w.frames ++ [f], skips := satBits 16 (w.skips + full.toNat) }
  if !w.gap && decide (96 < w.fill r) then
    { w.cutTo20 r with fade := .cross 32 w.past w.frames w.rp, skips := satBits 16 (w.skips + 1) }
  else w

/-- The share of a linear move from `a` to `b`, `left` of `n` samples to go after this one. -/
def lerp (a b : Int) (n left : Nat) : Int := a + (b - a) * ((n - left : Nat) : Int) / ((n : Nat) : Int)

/-- The interpolated samples of one output sample, crossing from an old read position during a skip (R293, R296). -/
def Weir.interpolate (w : Weir) (r : Rate) (n : Nat) : List Int :=
  let raw := (List.range n).map (weirSample r w.past w.frames w.rp)
  match w.fade with
  | .cross (k + 1) past old rp => (List.range n).map (fun c => lerp (weirSample r past old rp c) (raw.getD c 0) 32 k)
  | _ => raw
/-- The fade after one output sample, the read position having moved by `step`. -/
def WeirFade.next (x : WeirFade) (step : Nat) : WeirFade :=
  match x with
  | .cross (k + 1) past old rp => if k = 0 then .none else .cross k past old (rp + step)
  | .into (k + 1) => if k = 0 then .none else .into k
  | x => x
/-- One output sample of a weir of `n` channels (R294, R295). c is set at every one. -/
def Weir.step (w : Weir) (r : Rate) (n : Nat) : Weir × List Int :=
  let f := w.fill r
  let w := { w with c := weirCorr f }
  if w.gap && decide (f < 20) then
    match w.fade with
    | .out (k + 1) =>
      ({ w with fade := .out k }, (List.range n).map (fun c => lerp (w.last.getD c 0) 0 32 k))
    | _ => ({ w with fade := .none }, List.replicate n 0)
  else if !w.gap && decide (f < 2) then
    ({ w with gap := true, fade := .out 31, gaps := satBits 16 (w.gaps + 1) },
      (List.range n).map (fun c => lerp (w.last.getD c 0) 0 32 31))
  else
    let w := if w.gap then { w.cutTo20 r with gap := false, c := 0, fade := .into 32, pipe := [] } else w
    let pipe := w.pipe ++ [w.interpolate r n]
    let raw := if pipe.length ≤ 4 then List.replicate n 0 else pipe.headD []
    let out := match w.fade with
      | .into (k + 1) => raw.map (fun x => lerp 0 x 32 k)
      | _ => raw
    let step := weirAdvance r w.c
    ({ w.advance step with pipe := pipe.drop (pipe.length - 4), fade := w.fade.next step, last := out }, out)

/-- WEIR_STAT of a weir (R312): FILL, GAP, CORR in ppm, GAPS, SKIPS. -/
def Weir.stat (w : Weir) (r : Rate) : Nat :=
  satBits 8 (w.fill r).floor.toNat + w.gap.toNat * 2 ^ 8 +
    unsigned 16 w.c.floor * 2 ^ 16 + w.gaps * 2 ^ 32 + w.skips * 2 ^ 48

/-- One channel of a node at one sample: `x` now and `p` before (R303, R304). -/
def NodeCh.step (c : NodeCh) (target x p : Int) : NodeCh :=
  if c.waits then
    if x = 0 ∨ (x < 0 ∧ 0 < p) ∨ (0 < x ∧ p < 0) then { c with waits := false, gain := target } else c
  else if 0 < c.left then { c with gain := lerp c.src target 64 (c.left - 1), left := c.left - 1 }
  else c

/-- A 64-sample ramp from the gain reached to the target (R304, R305). -/
def NodeCh.ramp (c : NodeCh) : NodeCh := { c with waits := false, src := c.gain, left := 64 }

/-- A node at one sample, its wait for a crossing counted (R303, R304). -/
def Node.step (n : Node) (x p : Int × Int) : Node :=
  let n := { n with l := n.l.step n.target x.1 p.1, r := n.r.step n.target x.2 p.2 }
  { n with since := if n.l.waits || n.r.waits then n.since + 1 else 0 }
/-- A node whose wait has lasted 480 samples (R304). -/
def Node.timedOut (n : Node) : Bool := (n.l.waits || n.r.waits) && decide (480 ≤ n.since)
/-- The channels that found no crossing ramp (R304). -/
def Node.fallBack (n : Node) : Node :=
  { n with since := 0, l := if n.l.waits then n.l.ramp else n.l, r := if n.r.waits then n.r.ramp else n.r }

/-- A new target for one channel (R303, R305): a ramp in progress restarts, anything else waits for a crossing. -/
def NodeCh.retarget (c : NodeCh) : NodeCh := if 0 < c.left then c.ramp else { c with waits := true }
/-- A new target for a node (R305): a timeout in progress runs on. -/
def Node.retarget (n : Node) (g : Int) : Node :=
  if g = n.target then n
  else
    let running := n.l.waits || n.r.waits
    { n with target := g, since := if running then n.since else 0, l := n.l.retarget, r := n.r.retarget }
/-- A change to or from mute: a ramp at once (R309), also where the node waits for a crossing toward the same gain. -/
def Node.rampTo (n : Node) (g : Int) : Node :=
  if g = n.target then n.fallBack else { n with target := g, since := 0, l := n.l.ramp, r := n.r.ramp }
/-- Whether a node has not completed a change (R305). -/
def Node.pending (n : Node) : Bool := n.l.waits || n.r.waits || decide (0 < n.l.left) || decide (0 < n.r.left)

/-- π in 2^-60. -/
def piFix : Nat := 3622009729038561421
/-- `x − x³/6 + …`, from the term `t` of index `i` on, in 2^-60. -/
def sinSeries (x : Int) : Nat → Nat → Int → Int
  | 0, _, _ => 0
  | n + 1, i, t => t + sinSeries x n (i + 1) (-(t * x * x) / ((2 ^ 120 * ((2 * i + 2) * (2 * i + 3)) : Nat) : Int))
/-- The sine of 2π `j` / 48,000 in 2^-60. -/
def sin48k (j : Nat) : Int :=
  let s (i : Nat) : Int := let x : Int := ((i * piFix / 24000 : Nat) : Int); sinSeries x 14 0 x
  let i := j % 12000
  match j % 48000 / 12000 with
  | 0 => s i
  | 1 => s (12000 - i)
  | 2 => -(s i)
  | _ => -(s (12000 - i))
/-- 10^(−LEVEL / 40) in 2^-40, the amplitude of LEVEL steps of −0.5 dB, found as a gain is (R300). -/
def toneSearch (lev : Nat) : Nat → Nat → Nat
  | 0, r => r
  | k + 1, r => let t := r + 2 ^ k; toneSearch lev k (if (2 * t - 1) ^ 40 * 10 ^ lev ≤ 2 ^ 1640 then t else r)
def toneAmp (lev : Nat) : Nat := toneSearch lev 41 0
/-- Sample `n` of the test tone (R302): a sine of FREQ at LEVEL, its phase 0 at n = 0. -/
def toneSample (freq lev n : Nat) : Int :=
  sin48k (freq * n) * ((toneAmp lev * 32767 : Nat) : Int) / ((2 ^ 100 : Nat) : Int) + ((Config.toneRound freq lev n % 3 : Nat) : Int) - 1

/-- The integer square root by bits from bit `k` down. -/
def natSqrt (n : Nat) : Nat → Nat → Nat
  | 0, r => r
  | k + 1, r => let t := r + 2 ^ k; natSqrt n k (if t * t ≤ n then t else r)

/-- The target scale (R306): 1, 1/N or 1/√N. An irrational 1/√N stands rounded down to 2^-160: R301 gives with it the value that it gives with
1/√N itself, as no sum of its 8 terms times 1/√N comes so near to the next value. -/
def scaleTarget (mode n : Nat) : Rat :=
  if n ≤ 1 then 1 else match mode with
    | 1 => 1 / (n : Rat)
    | 2 => (natSqrt (2 ^ 320 / n) 161 0 : Rat) / ((2 ^ 160 : Nat) : Rat)
    | _ => 1

/-- A scale factor at one sample (R306): it moves linearly over 64 samples; a change restarts the move. -/
def OutScale.step (o : OutScale) (t : Rat) : OutScale :=
  let o := if t = o.target then o else { o with target := t, src := o.s, left := 64 }
  if 0 < o.left then { o with s := o.src + (o.target - o.src) * ((65 - o.left : Nat) : Rat) / 64, left := o.left - 1 } else o

/-- Effective gain of node (o, i) is not 0. -/
def Node.audible (n : Node) : Bool := decide (n.l.gain ≠ 0) || decide (n.r.gain ≠ 0)
/-- Whether input `i` is active (R306). -/
def Audio.active (a : Audio) (i : Nat) : Bool := decide (a.quiet.getD i 2400 < 2400)
/-- N of output `o` (R306). -/
def Audio.heardInputs (a : Audio) (o : Nat) : Nat :=
  ((List.range 8).filter (fun i => a.active i && (Sparse.get nodeReset a.nodes (8 * o + i)).audible)).length

/-- One output channel (R301): the clamped value, and whether the clamp changed it. -/
def mixChannel (terms : List (Int × Int)) (s : Rat) : Int × Bool :=
  let sum : Int := terms.foldl (fun a t => a + t.1 * t.2) 0
  let y := ((sum : Rat) * s / ((2 ^ 20 : Nat) : Rat) + 1 / 2).floor
  (clamp16 y, decide (clamp16 y ≠ y))

/-- The inputs of R299 from the outputs of the weirs, the announcement and the tone. -/
def mixInputs (w0 : List Int) (v : List Int) (ann : Int × Int) (tone : Int) : List (Int × Int) :=
  [(w0.getD 0 0, w0.getD 1 0), (w0.getD 2 0, w0.getD 3 0), (v.getD 0 0, v.getD 0 0), (v.getD 1 0, v.getD 1 0),
   (v.getD 2 0, v.getD 2 0), (v.getD 3 0, v.getD 3 0), ann, (tone, tone)]

/-- One output of the mix. -/
def Audio.mixOut (a : Audio) (xs : List (Int × Int)) (mode : Nat) (acc : Audio × List (Int × Int)) (o : Nat) :
    Audio × List (Int × Int) :=
  let nodes := (List.range 8).map (fun i => Sparse.get nodeReset a.nodes (8 * o + i))
  let sc := (Sparse.get scaleReset a.scales o).step (scaleTarget mode (a.heardInputs o))
  let l := mixChannel ((List.range 8).map (fun i => ((nodes.getD i (nodeAt 0)).l.gain, (xs.getD i (0, 0)).1))) sc.s
  let r := mixChannel ((List.range 8).map (fun i => ((nodes.getD i (nodeAt 0)).r.gain, (xs.getD i (0, 0)).2))) sc.s
  ({ acc.1 with scales := Sparse.set scaleReset acc.1.scales o sc,
                clips := satBits 16 (acc.1.clips + l.2.toNat + r.2.toNat) }, acc.2 ++ [(l.1, r.1)])

/-- The nodes of the crosspoint at one sample (R303 to R305). -/
def Audio.stepNodes (a : Audio) (xs : List (Int × Int)) : Audio :=
  (List.range 48).foldl (fun a k =>
    let n := Sparse.get nodeReset a.nodes k
    if n.pending then
      { a with nodes := Sparse.set nodeReset a.nodes k (n.step (xs.getD (k % 8) (0, 0)) (a.prev.getD (k % 8) (0, 0))) }
    else a) a

/-- The activity of the inputs at one sample (R306). -/
def quietStep (q : Nat) (x : Int × Int) : Nat :=
  if 9 ≤ x.1.natAbs ∨ 9 ≤ x.2.natAbs then 0 else min 2400 (q + 1)

/-- A stream sample (R301): the weirs produce, the crosspoint mixes its six outputs, outputs 0 to 4 go to their
coders and output 5 to the frame tap. `modes` are the SCALE fields of XPT_OUT, `freq` and `lev` XPT_TONE. -/
def Audio.streamSample (a : Audio) (r : Rate) (modes : List Nat) (freq lev : Nat) : Audio :=
  let (w0, o0) := (Sparse.get weirReset a.weirs 0).step r 4
  let vs := (List.range 4).map (fun p => (Sparse.get weirReset a.weirs (p + 1)).step voiceRate 1)
  let weirs := (List.range 4).foldl (fun m p => match vs[p]? with
    | some v => Sparse.set weirReset m (p + 1) v.1
    | none => m) (Sparse.set weirReset a.weirs 0 w0)
  let ann := a.ann.queue.headD (0, 0)
  let xs := mixInputs o0 (vs.map (fun v => v.2.getD 0 0)) ann (toneSample freq lev a.toneN)
  let a := { a with weirs := weirs, ann := { a.ann with queue := a.ann.queue.drop 1 }, toneN := a.toneN + 1,
                    quiet := (List.range 8).map (fun i => quietStep (a.quiet.getD i 2400) (xs.getD i (0, 0))) }
  let a := a.stepNodes xs
  let (a, outs) := (List.range 6).foldl (fun acc o => a.mixOut xs (modes.getD o 0) acc o) (a, [])
  { a with prev := xs, sample := if a.held then a.sample else a.sample + 1,
           asm := if a.held then a.asm else (List.range 5).foldl (fun m o =>
             Sparse.set asmReset m o (Sparse.get asmReset m o ++ [outs.getD o (0, 0)])) a.asm,
           tapMix := if a.tapMix.length < 2048 then a.tapMix ++ [outs.getD 5 (0, 0)] else a.tapMix }

/-- New gain codes for the nodes of output `o` (R303): a muted voice keeps gain 0 (R309). -/
def Audio.setRow (a : Audio) (o : Nat) (row : Word) : Audio :=
  (List.range 8).foldl (fun a i =>
    let muted := decide (2 ≤ i) && decide (i ≤ 5) && a.muted.getD (i - 2) true
    let g := if muted then 0 else gainOf (bits row (8 * i) 8)
    { a with nodes := Sparse.set nodeReset a.nodes (8 * o + i) ((Sparse.get nodeReset a.nodes (8 * o + i)).retarget g) }) a

/-- Voice muting of slot `p` (R309): at every output, by a 64-sample ramp at once. `row o` reads XPT_ROW[o]. -/
def Audio.setMute (a : Audio) (p : Nat) (m : Bool) (row : Nat → Word) : Audio :=
  if a.muted.getD p true = m then a
  else
    let a := { a with muted := a.muted.set p m }
    (List.range 6).foldl (fun a o =>
      let k := 8 * o + 2 + p
      let g := if m then 0 else gainOf (bits (row o) (8 * (2 + p)) 8)
      { a with nodes := Sparse.set nodeReset a.nodes k ((Sparse.get nodeReset a.nodes k).rampTo g) }) a

/-- XPT_PEND (R312). -/
def Audio.pendBits (a : Audio) : Nat :=
  (List.range 48).foldl (fun m k => if (Sparse.get nodeReset a.nodes k).pending then m + 2 ^ k else m) 0
/-- XPT_ACT (R312). -/
def Audio.actBits (a : Audio) : Nat := (List.range 8).foldl (fun m i => if a.active i then m + 2 ^ i else m) 0

/-- Weir 0 at lane start, at a timing change and after a resume: gap state with an empty store (R297), and nothing on the way to it. -/
def Audio.restartWeir0 (a : Audio) : Audio :=
  let w := { Sparse.get weirReset a.weirs 0 with past := [], frames := [], rp := 0, pipe := [], c := 0, gap := true, fade := .none }
  { a with handoff := [], weirs := Sparse.set weirReset a.weirs 0 w }

end Sys2Proof.Machine
end

