-- ==== Sys2Proof/Machine/Flags.lean ====
section
/-! DEFINITION. The sticky flags of FCSR and its rounding mode (R126, R133). -/
namespace Sys2Proof.Machine

/-- The exceptions one floating-point operation raises (R126); each sets its sticky flag in FCSR. -/
structure FpFlags where
  nv : Bool := false
  dz : Bool := false
  of : Bool := false
  uf : Bool := false
  nx : Bool := false
  deriving DecidableEq, Repr

/-- FCSR with the flags of an operation set; no flag is cleared and RM stays (R126). -/
def fcsrOr (fcsr : Word) (x : FpFlags) : Word :=
  fcsr ||| w64 (x.nv.toNat + 2 * x.dz.toNat + 4 * x.of.toNat + 8 * x.uf.toNat + 16 * x.nx.toNat)

/-- The rounding modes: to nearest with ties to even, toward zero, toward −∞, toward +∞, to nearest with ties away
from zero. -/
inductive Rm | rne | rtz | rdn | rup | rna
  deriving DecidableEq, Repr

/-- FCSR.RM (R133): 5 to 7 act as 0. -/
def fcsrRm (fcsr : Word) : Rm :=
  match bits fcsr 8 3 with
  | 1 => .rtz
  | 2 => .rdn
  | 3 => .rup
  | 4 => .rna
  | _ => .rne

/-- The mode that rc[2:0] of FTOI, ITOF and FTOF names (R128). -/
def rcRm (fcsr : Word) (rc : Nat) : Rm :=
  match rc % 8 with
  | 1 => .rne
  | 2 => .rtz
  | 3 => .rdn
  | 4 => .rup
  | 5 => .rna
  | _ => fcsrRm fcsr

/-- The writable fields of FCSR (R133): NV, DZ, OF, UF, NX and RM. -/
def fcsrWritable : Word := 0x71F

end Sys2Proof.Machine
end

