-- ==== Sys2Proof/Machine/Nongagon.lean ====
section
/-! DEFINITION. The Nongagon instruction word: its decoded form, the decoder of R108 to R111 with the checks of R110
and R128, and the encoder. -/
namespace Sys2Proof

/-- fn of the ALU group (R112). -/
def AluFn.code : AluFn → Nat
  | .add => 0x00 | .sub => 0x01 | .and => 0x02 | .or => 0x03 | .xor => 0x04 | .andn => 0x05 | .sll => 0x06
  | .srl => 0x07 | .sra => 0x08 | .ror => 0x09 | .slt => 0x0A | .sltu => 0x0B | .min => 0x0C | .max => 0x0D
  | .minu => 0x0E | .maxu => 0x0F | .addw => 0x10 | .subw => 0x11 | .sllw => 0x12 | .srlw => 0x13 | .sraw => 0x14
  | .sel => 0x18 | .clz => 0x20 | .ctz => 0x21 | .popc => 0x22 | .bswap => 0x23 | .sextb => 0x24 | .sexth => 0x25
  | .sextw => 0x26 | .zextw => 0x27
/-- Every function of the ALU group. -/
def AluFn.all : List AluFn :=
  [.add, .sub, .and, .or, .xor, .andn, .sll, .srl, .sra, .ror, .slt, .sltu, .min, .max, .minu, .maxu, .addw, .subw,
   .sllw, .srlw, .sraw, .sel, .clz, .ctz, .popc, .bswap, .sextb, .sexth, .sextw, .zextw]
/-- The unary functions, whose rb is 0 (R112). -/
def AluFn.unary (f : AluFn) : Bool := decide (0x20 ≤ f.code)
/-- Major opcode of an immediate instruction (R113). -/
def ImmFn.code : ImmFn → Nat
  | .addi => 0x08 | .andi => 0x09 | .ori => 0x0A | .xori => 0x0B | .slti => 0x0C | .sltiu => 0x0D | .shifti => 0x0E
  | .shi => 0x0F
def ImmFn.all : List ImmFn := [.addi, .andi, .ori, .xori, .slti, .sltiu, .shifti, .shi]
/-- fn of the MUL group (R114). -/
def MulFn.code : MulFn → Nat
  | .mul => 0 | .mulw => 1 | .mulxss => 2 | .mulxuu => 3 | .mulxsu => 4 | .mac => 5
def MulFn.all : List MulFn := [.mul, .mulw, .mulxss, .mulxuu, .mulxsu, .mac]
/-- fn of the DIV group (R115). -/
def DivFn.code : DivFn → Nat
  | .divs => 0 | .divu => 1 | .divsw => 2 | .divuw => 3
def DivFn.all : List DivFn := [.divs, .divu, .divsw, .divuw]
/-- fn[4:0] of the FP group (R127). -/
def FpFn.code : FpFn → Nat
  | .fadd => 0 | .fsub => 1 | .fmul => 2 | .fdiv => 3 | .fsqrt => 4 | .fminn => 5 | .fmaxn => 6 | .fminp => 7
  | .fmaxp => 8 | .fsign => 9 | .fcmp => 0x10 | .fcmps => 0x11 | .fclass => 0x12 | .ftoi => 0x14 | .itof => 0x15
  | .ftof => 0x16 | .fbitsG => 0x17 | .fbitsF => 0x18
def FpFn.all : List FpFn :=
  [.fadd, .fsub, .fmul, .fdiv, .fsqrt, .fminn, .fmaxn, .fminp, .fmaxp, .fsign, .fcmp, .fcmps, .fclass, .ftoi, .itof,
   .ftof, .fbitsG, .fbitsF]
/-- Major opcode of a compare-and-branch (R116). -/
def BrFn.code : BrFn → Nat
  | .beq => 0x10 | .bne => 0x11 | .blt => 0x12 | .bge => 0x13 | .bltu => 0x14 | .bgeu => 0x15
def BrFn.all : List BrFn := [.beq, .bne, .blt, .bge, .bltu, .bgeu]
/-- Major opcode of a load (R120). -/
def LoadFn.code : LoadFn → Nat
  | .lb => 0x20 | .lbu => 0x21 | .lh => 0x22 | .lhu => 0x23 | .lw => 0x24 | .lwu => 0x25 | .ld => 0x26 | .flw => 0x27
  | .fld => 0x28
def LoadFn.all : List LoadFn := [.lb, .lbu, .lh, .lhu, .lw, .lwu, .ld, .flw, .fld]
/-- Major opcode of a store (R120). -/
def StoreFn.code : StoreFn → Nat
  | .sb => 0x2C | .sh => 0x2D | .sw => 0x2E | .sd => 0x2F | .fsw => 0x30 | .fsd => 0x31
def StoreFn.all : List StoreFn := [.sb, .sh, .sw, .sd, .fsw, .fsd]
/-- fn[4:0] of the AMO group (R122). -/
def AmoFn.code : AmoFn → Nat
  | .swap => 0 | .add => 1 | .and => 2 | .or => 3 | .xor => 4 | .min => 5 | .max => 6 | .minu => 7 | .maxu => 8 | .cas => 9
def AmoFn.all : List AmoFn := [.swap, .add, .and, .or, .xor, .min, .max, .minu, .maxu, .cas]

end Sys2Proof

namespace Sys2Proof.Machine

/-- A decoded Nongagon instruction. -/
inductive NInstr
  | alu (fn : AluFn) (rd ra rb rc : RegNo)
  | imm (fn : ImmFn) (rd ra : RegNo) (i : BitVec 16)
  | mul (fn : MulFn) (rd ra rb rc : RegNo)
  | div (fn : DivFn) (rd ra rb rc : RegNo)
  | fp (p : FpPrec) (fn : FpFn) (rd ra rb rc : RegNo)
  | fma (p : FpPrec) (np na : Bool) (rd ra rb rc : RegNo)
  | br (fn : BrFn) (ra rb : RegNo) (off : BitVec 16)
  | j (off : BitVec 26)
  | jal (off : BitVec 26)
  | jalr (rd ra : RegNo) (i : BitVec 16)
  | load (fn : LoadFn) (rt base : RegNo) (off : BitVec 16)
  | store (fn : StoreFn) (rt base : RegNo) (off : BitVec 16)
  | amo (fn : AmoFn) (w32 : Bool) (rd ra rb rc : RegNo)
  | mfs (rd : RegNo) (n : BitVec 12)
  | mts (ra : RegNo) (n : BitVec 12)
  | ecall (n : BitVec 12)
  | ebreak | eret | wait | mbar | isync
  | sysx (b : BitVec 26)
  deriving DecidableEq, Repr

/-- Field [lo + n - 1 : lo] of an instruction word. -/
def wfield (w : BitVec 32) (lo n : Nat) : Nat := (w.toNat >>> lo) % 2 ^ n
/-- A register field of an instruction word. -/
def wreg (w : BitVec 32) (lo : Nat) : RegNo := BitVec.ofNat 5 (w.toNat >>> lo)

/-- The checks of R127 and R128 on the fields that an FP operation does not use or reads as a type, a sign selection
or a rounding mode. -/
def fpFieldsOk (fn : FpFn) (rb rc : RegNo) : Bool :=
  match fn with
  | .fadd | .fsub | .fmul | .fdiv | .fminn | .fmaxn | .fminp | .fmaxp | .fcmp | .fcmps => rc == 0
  | .fsqrt | .fclass | .fbitsG | .fbitsF => rb == 0 && rc == 0
  | .fsign => decide (rc.toNat ≤ 3) && (decide (rc.toNat ≠ 3) || rb == 0)
  | .ftoi | .itof => decide (rc.toNat ≤ 5) && decide (rb.toNat ≤ 3)
  | .ftof => decide (rc.toNat ≤ 5) && rb == 0

/-- The decoder: none where R110 raises Illegal instruction. A word of opcode 0x3D decodes to `sysx` whatever its
other bits hold (R107). -/
def ndecode (w : BitVec 32) : Option NInstr :=
  let op := wfield w 26 6
  let rd := wreg w 21
  let ra := wreg w 16
  let rb := wreg w 11
  let rc := wreg w 6
  let fn := wfield w 0 6
  let i16 := BitVec.ofNat 16 w.toNat
  let i26 := BitVec.ofNat 26 w.toNat
  let sub := wfield w 12 4
  let n12 := BitVec.ofNat 12 w.toNat
  if op = 0x01 then
    match AluFn.all.find? (fun f => f.code == fn) with
    | none => none
    | some f => if (f == .sel || rc == 0) && (!f.unary || rb == 0) then some (.alu f rd ra rb rc) else none
  else if op = 0x02 then
    match MulFn.all.find? (fun f => f.code == fn) with
    | none => none
    | some f => if !(f == .mul || f == .mulw) || rc == 0 then some (.mul f rd ra rb rc) else none
  else if op = 0x03 then
    match DivFn.all.find? (fun f => f.code == fn) with
    | none => none
    | some f => some (.div f rd ra rb rc)
  else if op = 0x04 then
    match FpFn.all.find? (fun f => f.code == fn % 32) with
    | none => none
    | some f =>
      if fpFieldsOk f rb rc then some (.fp (if fn < 32 then .single else .double) f rd ra rb rc) else none
  else if op = 0x05 then
    if fn % 32 < 4 then
      some (.fma (if fn < 32 then .single else .double) (decide (fn % 2 = 1)) (decide (fn / 2 % 2 = 1)) rd ra rb rc)
    else none
  else if op = 0x18 then some (.j i26)
  else if op = 0x19 then some (.jal i26)
  else if op = 0x1A then some (.jalr rd ra i16)
  else if op = 0x34 then
    match AmoFn.all.find? (fun f => f.code == fn % 32) with
    | none => none
    | some f => if f == .cas || rc == 0 then some (.amo f (decide (32 ≤ fn)) rd ra rb rc) else none
  else if op = 0x3C then
    if sub = 0 then (if ra = 0 then some (.mfs rd n12) else none)
    else if sub = 1 then (if rd = 0 then some (.mts ra n12) else none)
    else if sub = 4 then (if rd = 0 ∧ ra = 0 then some (.ecall n12) else none)
    else if rd = 0 ∧ ra = 0 ∧ n12 = 0 then
      (if sub = 5 then some .ebreak else if sub = 6 then some .eret else if sub = 7 then some .wait
       else if sub = 8 then some .mbar else if sub = 9 then some .isync else none)
    else none
  else if op = 0x3D then some (.sysx i26)
  else
    match ImmFn.all.find? (fun f => f.code == op) with
    | some f => if f == .shifti && decide (256 ≤ i16.toNat) then none else some (.imm f rd ra i16)
    | none =>
    match BrFn.all.find? (fun f => f.code == op) with
    | some f => some (.br f rd ra i16)
    | none =>
    match LoadFn.all.find? (fun f => f.code == op) with
    | some f => some (.load f rd ra i16)
    | none =>
    match StoreFn.all.find? (fun f => f.code == op) with
    | some f => some (.store f rd ra i16)
    | none => none

/-- The R format (R109). -/
def encR (op : Nat) (rd ra rb rc : RegNo) (fn : Nat) : BitVec 32 :=
  BitVec.ofNat 32 (op * 2 ^ 26 + rd.toNat * 2 ^ 21 + ra.toNat * 2 ^ 16 + rb.toNat * 2 ^ 11 + rc.toNat * 2 ^ 6 + fn)
/-- The I, B and M formats (R109): two register fields and 16 low bits. -/
def encI (op : Nat) (rd ra : RegNo) (i : BitVec 16) : BitVec 32 :=
  BitVec.ofNat 32 (op * 2 ^ 26 + rd.toNat * 2 ^ 21 + ra.toNat * 2 ^ 16 + i.toNat)
/-- The S format (R109). -/
def encS (rd ra : RegNo) (sub : Nat) (n : BitVec 12) : BitVec 32 :=
  BitVec.ofNat 32 (0x3C * 2 ^ 26 + rd.toNat * 2 ^ 21 + ra.toNat * 2 ^ 16 + sub * 2 ^ 12 + n.toNat)
/-- The P bit of fn (R127). -/
def precBit : FpPrec → Nat
  | .single => 0
  | .double => 32

/-- The word of a decoded instruction, by the formats of R109. -/
def nencode : NInstr → BitVec 32
  | .alu f rd ra rb rc => encR 0x01 rd ra rb rc f.code
  | .imm f rd ra i => encI f.code rd ra i
  | .mul f rd ra rb rc => encR 0x02 rd ra rb rc f.code
  | .div f rd ra rb rc => encR 0x03 rd ra rb rc f.code
  | .fp p f rd ra rb rc => encR 0x04 rd ra rb rc (precBit p + f.code)
  | .fma p np na rd ra rb rc => encR 0x05 rd ra rb rc (precBit p + np.toNat + 2 * na.toNat)
  | .br f ra rb off => encI f.code ra rb off
  | .j off => BitVec.ofNat 32 (0x18 * 2 ^ 26 + off.toNat)
  | .jal off => BitVec.ofNat 32 (0x19 * 2 ^ 26 + off.toNat)
  | .jalr rd ra i => encI 0x1A rd ra i
  | .load f rt b off => encI f.code rt b off
  | .store f rt b off => encI f.code rt b off
  | .amo f w rd ra rb rc => encR 0x34 rd ra rb rc (f.code + (if w then 32 else 0))
  | .mfs rd n => encS rd 0 0 n
  | .mts ra n => encS 0 ra 1 n
  | .ecall n => encS 0 0 4 n
  | .ebreak => encS 0 0 5 0
  | .eret => encS 0 0 6 0
  | .wait => encS 0 0 7 0
  | .mbar => encS 0 0 8 0
  | .isync => encS 0 0 9 0
  | .sysx b => BitVec.ofNat 32 (0x3D * 2 ^ 26 + b.toNat)

/-- The fields that R110, R112 to R130 require to be 0 are 0, so that the word decodes again. -/
def NInstr.wf : NInstr → Bool
  | .alu f _ _ rb rc => (f == .sel || rc == 0) && (!f.unary || rb == 0)
  | .imm f _ _ i => !(f == .shifti) || decide (i.toNat < 256)
  | .mul f _ _ _ rc => !(f == .mul || f == .mulw) || rc == 0
  | .fp _ f _ _ rb rc => fpFieldsOk f rb rc
  | .amo f _ _ _ _ rc => f == .cas || rc == 0
  | .div .. | .fma .. | .br .. | .j _ | .jal _ | .jalr .. | .load .. | .store .. | .mfs .. | .mts .. | .ecall _
  | .ebreak | .eret | .wait | .mbar | .isync | .sysx _ => true

end Sys2Proof.Machine
end

