-- ==== Sys2Proof/Machine/Fp.lean ====
section
/-! DEFINITION. The floating-point operations of the FP and FMA groups (R125 to R129), computed exactly and rounded
once. -/
namespace Sys2Proof.Machine

/-- Bits of the exponent field. -/
def expBits : FpPrec → Nat
  | .single => 8
  | .double => 11
/-- Bits of the fraction field. -/
def fracBits : FpPrec → Nat
  | .single => 23
  | .double => 52
/-- The exponent bias. -/
def bias (p : FpPrec) : Nat := 2 ^ (expBits p - 1) - 1
/-- All ones in the exponent field. -/
def expMax (p : FpPrec) : Nat := 2 ^ expBits p - 1
/-- The width of the format. -/
def fpWidth (p : FpPrec) : Nat := 1 + expBits p + fracBits p

/-- An operand taken apart: a finite value is (−1)^sign × m × 2^e. -/
inductive FpVal
  | nan (sign : Bool) (frac : Nat)
  | inf (sign : Bool)
  | fin (sign : Bool) (m : Nat) (e : Int)
  deriving DecidableEq, Repr

/-- The bits an operation of precision `p` reads of an f register (R125). -/
def fpBits (p : FpPrec) (x : Word) : Nat := x.toNat % 2 ^ fpWidth p

/-- An operand of precision `p` taken apart. -/
def unpack (p : FpPrec) (x : Word) : FpVal :=
  let n := fpBits p x
  let s := n.testBit (fpWidth p - 1)
  let f := n % 2 ^ fracBits p
  let ex := (n >>> fracBits p) % 2 ^ expBits p
  if ex = expMax p then (if f = 0 then .inf s else .nan s f)
  else if ex = 0 then .fin s f (1 - (bias p : Int) - fracBits p)
  else .fin s (f + 2 ^ fracBits p) ((ex : Int) - bias p - fracBits p)

/-- The bits of a sign, an exponent field and a fraction field. -/
def pack (p : FpPrec) (s : Bool) (ex f : Nat) : Word :=
  w64 (s.toNat * 2 ^ (fpWidth p - 1) + ex * 2 ^ fracBits p + f)
def packInf (p : FpPrec) (s : Bool) : Word := pack p s (expMax p) 0
def packZero (p : FpPrec) (s : Bool) : Word := pack p s 0 0
/-- The quiet bit of a NaN's fraction. -/
def quietBit (p : FpPrec) : Nat := 2 ^ (fracBits p - 1)
/-- A NaN with its sign and payload kept and its quiet bit set (R126). -/
def packNan (p : FpPrec) (s : Bool) (f : Nat) : Word := pack p s (expMax p) (f ||| quietBit p)
/-- The default NaN (R126). -/
def defaultNan : FpPrec → Word
  | .single => 0x7FE00000
  | .double => 0x7FFC000000000000

/-- Whether a value is a NaN, and a signalling one. -/
def isNan : FpVal → Bool
  | .nan _ _ => true
  | .inf _ | .fin _ _ _ => false
def isSnan (p : FpPrec) : FpVal → Bool
  | .nan _ f => decide (f &&& quietBit p = 0)
  | .inf _ | .fin _ _ _ => false

/-- Whether a magnitude of integer part `q` rounds up, where its fraction compares to one half as `c` says. -/
def roundsUp (rm : Rm) (s : Bool) (q : Nat) (c : Ordering) (inexact : Bool) : Bool :=
  match rm with
  | .rne => c == .gt || (c == .eq && q % 2 == 1)
  | .rna => c == .gt || c == .eq
  | .rtz => false
  | .rdn => s && inexact
  | .rup => !s && inexact

/-- m × 2^e divided by 2^q: the integer part, how the fraction compares to one half, and whether there is one.
`st` says that the exact value lies strictly between m and m + 1 units. -/
def cutAt (m : Nat) (e q : Int) (st : Bool) : Nat × Ordering × Bool :=
  if q ≤ e then (m <<< (e - q).toNat, if st then .lt else .lt, st)
  else
    let k := (q - e).toNat
    let hi := m >>> k
    let r := m % 2 ^ k
    let half := 2 ^ (k - 1)
    (hi, if r < half then .lt else if r = half ∧ !st then .eq else .gt, decide (r ≠ 0) || st)

/-- The value (−1)^s × m × 2^e, or a value between it and the next unit where `st`, rounded to precision `p`
(R126: tininess is detected before rounding). -/
def roundPack (p : FpPrec) (rm : Rm) (s : Bool) (m : Nat) (e : Int) (st : Bool) : Word × FpFlags :=
  if m = 0 ∧ !st then (packZero p s, {})
  else
    let top := e + m.log2
    let emin : Int := 1 - (bias p : Int)
    let fb : Int := fracBits p
    let q := (if top < emin then emin else top) - fb
    let (hi, c, inexact) := cutAt m e q st
    let up := roundsUp rm s hi c inexact
    let hi' := hi + up.toNat
    let carry := decide (2 ^ (fracBits p + 1) ≤ hi')
    let hi'' := if carry then hi' / 2 else hi'
    let q' := if carry then q + 1 else q
    if 2 ^ fracBits p ≤ hi'' ∧ (bias p : Int) < q' + fb then
      let toInf := match rm with
        | .rne | .rna => true
        | .rtz => false
        | .rdn => s
        | .rup => !s
      (if toInf then packInf p s else pack p s (expMax p - 1) (2 ^ fracBits p - 1), { of := true, nx := true })
    else
      let flags : FpFlags := { uf := decide (top < emin) && inexact, nx := inexact }
      if hi'' < 2 ^ fracBits p then (pack p s 0 hi'', flags)
      else (pack p s (q' + fb + bias p).toNat (hi'' - 2 ^ fracBits p), flags)

/-- The first NaN of a list of operands, made quiet, with NV where one of them is signalling (R126). -/
def nanResult (p : FpPrec) (l : List FpVal) : Word × FpFlags :=
  let r := l.foldl (fun acc v => match acc, v with
    | none, .nan s f => some (packNan p s f)
    | a, _ => a) none
  (r.getD (defaultNan p), { nv := l.any (isSnan p) })

/-- The default NaN with NV: an operation without a NaN operand whose result is invalid (R126). -/
def invalid (p : FpPrec) : Word × FpFlags := (defaultNan p, { nv := true })

/-- The exact sum of two finite values, rounded. An exact zero sum of unlike signs is +0, or −0 toward −∞. -/
def addFin (p : FpPrec) (rm : Rm) (s1 : Bool) (m1 : Nat) (e1 : Int) (s2 : Bool) (m2 : Nat) (e2 : Int) :
    Word × FpFlags :=
  if m1 = 0 ∧ m2 = 0 ∧ s1 = s2 then (packZero p s1, {})
  else
    let e := min e1 e2
    let a : Int := (if s1 then -1 else 1) * ((m1 <<< (e1 - e).toNat : Nat) : Int)
    let b : Int := (if s2 then -1 else 1) * ((m2 <<< (e2 - e).toNat : Nat) : Int)
    let t := a + b
    if t = 0 then (packZero p (rm == .rdn), {})
    else roundPack p rm (decide (t < 0)) t.natAbs e false

/-- FADD, and FSUB with the second operand's sign inverted (R127). -/
def fpAdd (p : FpPrec) (rm : Rm) (x y : Word) (negate : Bool) : Word × FpFlags :=
  match unpack p x, unpack p y with
  | .fin s1 m1 e1, .fin s2 m2 e2 => addFin p rm s1 m1 e1 (s2 != negate) m2 e2
  | .inf s, .fin _ _ _ => (packInf p s, {})
  | .fin _ _ _, .inf s => (packInf p (s != negate), {})
  | .inf s1, .inf s2 => if s1 = (s2 != negate) then (packInf p s1, {}) else invalid p
  | a, b => nanResult p [a, b]

/-- FMUL (R127). -/
def fpMul (p : FpPrec) (rm : Rm) (x y : Word) : Word × FpFlags :=
  match unpack p x, unpack p y with
  | .fin s1 m1 e1, .fin s2 m2 e2 => roundPack p rm (s1 != s2) (m1 * m2) (e1 + e2) false
  | .inf s1, .fin s2 m _ => if m = 0 then invalid p else (packInf p (s1 != s2), {})
  | .fin s1 m _, .inf s2 => if m = 0 then invalid p else (packInf p (s1 != s2), {})
  | .inf s1, .inf s2 => (packInf p (s1 != s2), {})
  | a, b => nanResult p [a, b]

/-- FDIV (R127). -/
def fpDiv (p : FpPrec) (rm : Rm) (x y : Word) : Word × FpFlags :=
  match unpack p x, unpack p y with
  | .fin s1 m1 e1, .fin s2 m2 e2 =>
    let s := s1 != s2
    if m2 = 0 then (if m1 = 0 then invalid p else (packInf p s, { dz := true }))
    else if m1 = 0 then (packZero p s, {})
    else
      let k := 2 * fracBits p + 8
      let n := m1 <<< k
      roundPack p rm s (n / m2) (e1 - e2 - k) (decide (n % m2 ≠ 0))
  | .inf s1, .fin s2 _ _ => (packInf p (s1 != s2), {})
  | .fin s1 _ _, .inf s2 => (packZero p (s1 != s2), {})
  | .inf _, .inf _ => invalid p
  | a, b => nanResult p [a, b]

/-- The integer square root of `n`, one bit at a time from bit `k` down, with `r` found so far. -/
def isqrt (n : Nat) : Nat → Nat → Nat
  | 0, r => r
  | k + 1, r => let t := r + 2 ^ k; isqrt n k (if t * t ≤ n then t else r)

/-- FSQRT (R127): −0 gives −0. -/
def fpSqrt (p : FpPrec) (rm : Rm) (x : Word) : Word × FpFlags :=
  match unpack p x with
  | .fin s m e =>
    if m = 0 then (packZero p s, {})
    else if s then invalid p
    else
      let k := 2 * fracBits p + 8 + (if (e - (2 * fracBits p + 8)) % 2 = 0 then 0 else 1)
      let n := m <<< k
      let r := isqrt n (2 * fracBits p + 8) 0
      roundPack p rm false r ((e - k) / 2) (decide (r * r ≠ n))
  | .inf s => if s then invalid p else (packInf p false, {})
  | a => nanResult p [a]

/-- How two values that are not NaN compare, −0 equal to +0. -/
def fpOrd (a b : FpVal) : Ordering :=
  let key (v : FpVal) (e : Int) : Int := match v with
    | .fin s m e1 => (if s then -1 else 1) * ((m <<< (e1 - e).toNat : Nat) : Int)
    | .inf _ | .nan _ _ => 0
  match a, b with
  | .inf s1, .inf s2 => if s1 = s2 then .eq else if s1 then .lt else .gt
  | .inf s, _ => if s then .lt else .gt
  | _, .inf s => if s then .gt else .lt
  | .fin _ _ e1, .fin _ _ e2 => compare (key a (min e1 e2)) (key b (min e1 e2))
  | _, _ => .eq

/-- The sign of a value. -/
def fpSign : FpVal → Bool
  | .nan s _ => s
  | .inf s => s
  | .fin s _ _ => s

/-- FMINN, FMAXN, FMINP and FMAXP (R127): `big` for the greater; `number` for the N forms, in which a single NaN gives
the other operand; −0 ranks below +0. -/
def fpMinMax (p : FpPrec) (big number : Bool) (x y : Word) : Word × FpFlags :=
  let a := unpack p x
  let b := unpack p y
  let px := w64 (fpBits p x)
  let py := w64 (fpBits p y)
  let nv : FpFlags := { nv := isSnan p a || isSnan p b }
  if isNan a || isNan b then
    if number && !(isNan a && isNan b) then ((if isNan a then py else px), nv) else nanResult p [a, b]
  else
    let aLess := match fpOrd a b with
      | .lt => true
      | .gt => false
      | .eq => fpSign a && !fpSign b
    ((if aLess != big then px else py), {})

/-- FCMP and FCMPS (R127): the relation mask. -/
def fpCmp (p : FpPrec) (signaling : Bool) (x y : Word) : Word × FpFlags :=
  let a := unpack p x
  let b := unpack p y
  if isNan a || isNan b then (8, { nv := signaling || isSnan p a || isSnan p b })
  else ((match fpOrd a b with | .lt => 1 | .eq => 2 | .gt => 4), {})

/-- FCLASS (R127). -/
def fpClass (p : FpPrec) (x : Word) : Word :=
  let v := unpack p x
  let c := match v with
    | .nan _ _ => if isSnan p v then 5 else 4
    | .inf _ => 3
    | .fin _ m _ => if m = 0 then 0 else if m < 2 ^ fracBits p then 1 else 2
  w64 (c + 8 * (fpSign v).toNat)

/-- FSIGN (R127): the magnitude of ra with the sign that rc[1:0] selects. -/
def fpSignOp (p : FpPrec) (x y : Word) (sel : Nat) : Word :=
  let n := fpBits p x
  let sx := n.testBit (fpWidth p - 1)
  let sy := (fpBits p y).testBit (fpWidth p - 1)
  let s := match sel % 4 with
    | 0 => sy
    | 1 => !sy
    | 2 => sx != sy
    | _ => false
  w64 (n % 2 ^ (fpWidth p - 1) + s.toNat * 2 ^ (fpWidth p - 1))

/-- The least and greatest integer of a type of R128: 0 signed 64-bit, 1 unsigned 64-bit, 2 signed 32-bit, 3 unsigned
32-bit. -/
def intRange (ty : Nat) : Int × Int :=
  match ty with
  | 0 => (-(2 ^ 63 : Nat), (2 ^ 63 - 1 : Nat))
  | 1 => (0, (2 ^ 64 - 1 : Nat))
  | 2 => (-(2 ^ 31 : Nat), (2 ^ 31 - 1 : Nat))
  | _ => (0, (2 ^ 32 - 1 : Nat))

/-- What an integer result of a type writes: the 32-bit types write sext of the result (R127). -/
def intWord (ty : Nat) (i : Int) : Word := if ty < 2 then BitVec.ofInt 64 i else sextN 32 (unsigned 32 i)

/-- FTOI (R128). -/
def fpToInt (p : FpPrec) (rm : Rm) (ty : Nat) (x : Word) : Word × FpFlags :=
  let (lo, hi) := intRange ty
  match unpack p x with
  | .nan _ _ => (0, { nv := true })
  | .inf s => (intWord ty (if s then lo else hi), { nv := true })
  | .fin s m e =>
    let (q, c, inexact) := cutAt m e 0 false
    let r : Int := ((q + (roundsUp rm s q c inexact).toNat : Nat) : Int)
    let v := if s then -r else r
    if v < lo then (intWord ty lo, { nv := true })
    else if hi < v then (intWord ty hi, { nv := true })
    else (intWord ty v, { nx := inexact })

/-- ITOF (R128): g[ra] read as the integer type, converted. -/
def fpOfInt (p : FpPrec) (rm : Rm) (ty : Nat) (x : Word) : Word × FpFlags :=
  let i : Int := match ty with
    | 0 => x.toInt
    | 1 => x.toNat
    | 2 => signed 32 x.toNat
    | _ => ((x.toNat % 2 ^ 32 : Nat) : Int)
  roundPack p rm (decide (i < 0)) i.natAbs 0 false

/-- FTOF to precision `p` (R126, R128): a NaN keeps its sign and the high bits of its payload that fit. -/
def fpToFp (p : FpPrec) (rm : Rm) (x : Word) : Word × FpFlags :=
  let q : FpPrec := match p with | .single => .double | .double => .single
  match unpack q x with
  | .nan s f =>
    let f' := if fracBits q ≤ fracBits p then f <<< (fracBits p - fracBits q) else f >>> (fracBits q - fracBits p)
    (packNan p s f', { nv := isSnan q (.nan s f) })
  | .inf s => (packInf p s, {})
  | .fin s m e => roundPack p rm s m e false

/-- The FMA group (R129): (−1)^NP × ra × rb + (−1)^NA × rc, rounded once. -/
def fpFma (p : FpPrec) (rm : Rm) (np na : Bool) (x y z : Word) : Word × FpFlags :=
  let a := unpack p x
  let b := unpack p y
  let c := unpack p z
  if isNan a || isNan b || isNan c then nanResult p [a, b, c]
  else
    let s := (fpSign a != fpSign b) != np
    match a, b, c with
    | .fin _ m1 e1, .fin _ m2 e2, .fin s3 m3 e3 => addFin p rm s (m1 * m2) (e1 + e2) (s3 != na) m3 e3
    | .fin _ _ _, .fin _ _ _, .inf s3 => (packInf p (s3 != na), {})
    | .fin _ 0 _, .inf _, _ => invalid p
    | .inf _, .fin _ 0 _, _ => invalid p
    | _, _, .inf s3 => if s = (s3 != na) then (packInf p s, {}) else invalid p
    | _, _, _ => (packInf p s, {})

/-- Whether an FP operation writes a g register (R127). -/
def fpWritesG : FpFn → Bool
  | .fcmp | .fcmps | .fclass | .ftoi | .fbitsG => true
  | .fadd | .fsub | .fmul | .fdiv | .fsqrt | .fminn | .fmaxn | .fminp | .fmaxp | .fsign | .itof | .ftof | .fbitsF => false
/-- Whether its ra is a g register (R127). -/
def fpReadsG : FpFn → Bool
  | .itof | .fbitsF => true
  | .fadd | .fsub | .fmul | .fdiv | .fsqrt | .fminn | .fmaxn | .fminp | .fmaxp | .fsign | .fcmp | .fcmps | .fclass
  | .ftoi | .ftof | .fbitsG => false
/-- Whether its rb is an f register (R127). -/
def fpReadsFb : FpFn → Bool
  | .fadd | .fsub | .fmul | .fdiv | .fminn | .fmaxn | .fminp | .fmaxp | .fsign | .fcmp | .fcmps => true
  | .fsqrt | .fclass | .ftoi | .itof | .ftof | .fbitsG | .fbitsF => false

/-- The FP group (R127): `x` and `y` are the register operands, `rb` and `rc` the raw fields. -/
def fpResult (p : FpPrec) (fn : FpFn) (fcsr : Word) (x y : Word) (rb rc : RegNo) : Word × FpFlags :=
  let rm := fcsrRm fcsr
  match fn with
  | .fadd => fpAdd p rm x y false
  | .fsub => fpAdd p rm x y true
  | .fmul => fpMul p rm x y
  | .fdiv => fpDiv p rm x y
  | .fsqrt => fpSqrt p rm x
  | .fminn => fpMinMax p false true x y
  | .fmaxn => fpMinMax p true true x y
  | .fminp => fpMinMax p false false x y
  | .fmaxp => fpMinMax p true false x y
  | .fsign => (fpSignOp p x y rc.toNat, {})
  | .fcmp => fpCmp p false x y
  | .fcmps => fpCmp p true x y
  | .fclass => (fpClass p x, {})
  | .ftoi => fpToInt p (rcRm fcsr rc.toNat) rb.toNat x
  | .itof => fpOfInt p (rcRm fcsr rc.toNat) rb.toNat x
  | .ftof => fpToFp p (rcRm fcsr rc.toNat) x
  | .fbitsG => (w64 (fpBits p x), {})
  | .fbitsF => (w64 (fpBits p x), {})

end Sys2Proof.Machine
end

