-- ==== Sys2Proof/Machine/LicTypes.lean ====
section
/-! DEFINITION. The state of the lane interrupt controller and of the eight timers (R145 to R169). -/
namespace Sys2Proof.Machine

/-- The configuration of the controller that R148 samples: LIC_SRC_CFG, LIC_ENABLE and LIC_THRESH. -/
structure LicCfg where
  src : Sparse Nat
  en : Word
  th : Sparse Nat
  deriving DecidableEq, Repr, Inhabited

/-- A write to that configuration. -/
inductive LicOp
  | src (n v : Nat)
  | enable (v : Word)
  | enSet (v : Word)
  | enClr (v : Word)
  | thresh (t v : Nat)
  deriving DecidableEq, Repr

/-- A write that changes the deliveries to one thread from VT `vt` (R155). -/
structure LicChg where
  vt : Nat
  op : LicOp
  deriving DecidableEq, Repr

/-- The configuration as the deliveries to one thread see it (R148, R155): `base`, then the changes by VT. -/
structure LicView where
  base : LicCfg
  chg : List LicChg
  deriving DecidableEq, Repr

/-- A withdrawal or a completion of source `n` by a write (R155): deliveries to the writer see it from VT `own`, those to the other
threads from `other`, with no writer all from `own`. `since` is the VT from which the bit was 1. -/
structure LicLag where
  n : Nat
  writer : Option Nat
  since : Nat
  own : Nat
  other : Nat
  deriving DecidableEq, Repr

/-- What the registers of the controller showed before the LCLK period `vt` (R412). -/
structure LicPast where
  vt : Nat
  reg : LicCfg
  pend : Word
  active : Word
  pendAt : Sparse Nat
  eoiIgnored : Nat
  deriving DecidableEq, Repr

/-- The lane interrupt controller. `reg` holds the registers, `views` what the deliveries to each thread see, `events` the
conditions that have arisen with the VT at which they set PEND (R154, R566), `pendAt` the VT at which a pending bit
was set and `pendLast` that of the latest condition merged with it; `order` lists the pending sources as they became pending,
`past` what the registers showed before the periods that have changed them and that the beam has not left. -/
structure Lic where
  reg : LicCfg
  views : Sparse LicView
  pend : Word
  active : Word
  pendAt : Sparse Nat
  pendLast : Sparse Nat
  order : List Nat
  lagPend : List LicLag
  lagActive : List LicLag
  eoiIgnored : Nat
  events : List (Nat × Nat)
  past : List LicPast
  milestones : Nat
  latchPad : Bool
  latchAcc : Bool
  latchNet : Bool
  deriving DecidableEq, Repr, Inhabited

/-- A capture trigger that waits for step 3 of its period (R160, R169): the CAPSEL it serves, and the timers it names. -/
structure CapTrig where
  sel : Nat
  mask : Nat
  deriving DecidableEq, Repr

/-- One timer (R158 to R169). `last` is the LCLK period of its last tick or prescaler reset; `wrapped` and `due` say
what step 4 of R160 still has to do for it in the period `Timers.now`; `c64` is the 64-bit compare value of a pair
(R166). -/
structure Timer where
  run : Bool
  mode : Nat
  casc : Bool
  cmp64 : Bool
  psc : Nat
  capsel : Nat
  count : Nat
  top : Nat
  cmp : Nat
  cap : Nat
  cmpf : Bool
  wrapf : Bool
  capf : Bool
  capovr : Bool
  falling : Bool
  armed : Bool
  last : Nat
  wrapped : Bool
  due : Bool
  c64 : Nat
  deriving DecidableEq, Repr

/-- The timers and TIM_HOLD as they stood before the LCLK period `vt` (R412). -/
structure TimPast where
  vt : Nat
  t : List Timer
  hold : Sparse Nat
  deriving DecidableEq, Repr

/-- The eight timers, TIM_HOLD[0] to TIM_HOLD[3], the LCLK period whose events they have reached, and the triggers of that period. `closed` is the
first period whose step 3 has not begun (R160), `past` what they were before the periods that have begun and that the beam has not left. -/
structure Timers where
  t : List Timer
  hold : Sparse Nat
  now : Nat
  trigs : List CapTrig
  closed : Nat
  past : List TimPast
  deriving DecidableEq, Repr, Inhabited

def zeroNat (_ : Nat) : Nat := 0

/-- The configuration after lane reset. -/
def LicCfg.reset : LicCfg := { src := [], en := 0, th := [] }
/-- What the deliveries to a thread see after lane reset. -/
def viewReset (_ : Nat) : LicView := { base := .reset, chg := [] }
/-- The controller after lane reset: every field 0. -/
def Lic.reset : Lic :=
  { reg := .reset, views := [], pend := 0, active := 0, pendAt := [], pendLast := [], order := [], lagPend := [], lagActive := [],
    eoiIgnored := 0, events := [], past := [], milestones := 0, latchPad := false, latchAcc := false, latchNet := false }
/-- A timer after lane reset: stopped, TOP all ones, ARMED 1 (R164). -/
def Timer.reset : Timer :=
  { run := false, mode := 0, casc := false, cmp64 := false, psc := 0, capsel := 0, count := 0, top := 0xFFFFFFFF,
    cmp := 0, cap := 0, cmpf := false, wrapf := false, capf := false, capovr := false, falling := false,
    armed := true, last := 0, wrapped := false, due := false, c64 := 0 }
/-- The timers after lane reset. -/
def Timers.reset : Timers := { t := List.replicate 8 .reset, hold := [], now := 0, trigs := [], closed := 0, past := [] }

end Sys2Proof.Machine
end

