-- ==== Sys2Proof/Machine/Lic.lean ====
section
/-! DEFINITION. The lane interrupt controller: delivery views, candidates, selection, events and completion
(R145 to R157, R566), as functions on `Lic`. -/
namespace Sys2Proof.Machine

/-- One write on the configuration. -/
def LicCfg.apply (c : LicCfg) : LicOp → LicCfg
  | .src n v => { c with src := Sparse.set zeroNat c.src n (v % 64) }
  | .enable v => { c with en := v }
  | .enSet v => { c with en := c.en ||| v }
  | .enClr v => { c with en := c.en &&& ~~~ v }
  | .thresh t v => { c with th := Sparse.set zeroNat c.th t (v % 16) }

/-- LIC_SRC_CFG[n].PRIO and TARGET. -/
def LicCfg.prio (c : LicCfg) (n : Nat) : Nat := Sparse.get zeroNat c.src n % 16
def LicCfg.target (c : LicCfg) (n : Nat) : Nat := Sparse.get zeroNat c.src n / 16 % 4

/-- The VT from which a write of thread `w` acts on deliveries to thread `t` (R155). -/
def licFrom (w : Option Nat) (own other t : Nat) : Nat :=
  match w with
  | none => own
  | some u => if u = t then own else other

/-- Insert a change by its VT, after the changes of the same VT. -/
def insertChg (c : LicChg) : List LicChg → List LicChg
  | [] => [c]
  | d :: l => if c.vt < d.vt then c :: d :: l else d :: insertChg c l

/-- The configuration of a view at VT `x`. -/
def LicView.at (v : LicView) (x : Nat) : LicCfg := (v.chg.filter (fun d => decide (d.vt ≤ x))).foldl (fun c d => c.apply d.op) v.base
/-- A change added to a view; the changes at or before `old`, to which no delivery looks back, join its base. -/
def LicView.add (v : LicView) (c : LicChg) (old : Nat) : LicView :=
  let l := insertChg c v.chg
  { base := (l.filter (fun d => decide (d.vt ≤ old))).foldl (fun b d => b.apply d.op) v.base,
    chg := l.filter (fun d => !decide (d.vt ≤ old)) }

/-- The configuration in effect at VT `x` for deliveries to thread `t` (R148, R155). -/
def Lic.view (c : Lic) (t x : Nat) : LicCfg := (Sparse.get viewReset c.views t).at x

/-- A configuration write: the register changes, and the views as R155 gives. -/
def Lic.change (c : Lic) (op : LicOp) (w : Option Nat) (own other old : Nat) : Lic :=
  { c with reg := c.reg.apply op,
           views := [0, 1, 2, 3].foldl (fun m t => Sparse.set viewReset m t
             ((Sparse.get viewReset m t).add { vt := licFrom w own other t, op := op } old)) c.views }

/-- Whether deliveries to thread `t` at VT `x` do not see a withdrawal or completion yet. -/
def LicLag.open (d : LicLag) (t x n : Nat) : Bool :=
  decide (d.n = n) && decide (d.since ≤ x) && decide (x < licFrom d.writer d.own d.other t)

/-- PEND of source `n` as deliveries to thread `t` at VT `x` see it (R155, R566): the bit and the VT it was set at
lies at or before `x`, or a withdrawal that does not act on `t` yet. -/
def Lic.pendFor (c : Lic) (t x n : Nat) : Bool :=
  (bit c.pend n && decide (Sparse.get zeroNat c.pendAt n ≤ x)) ||
    c.lagPend.any (fun d => d.open t x n)

/-- ACTIVE of source `n` as deliveries to thread `t` at VT `x` see it. -/
def Lic.activeFor (c : Lic) (t x n : Nat) : Bool :=
  bit c.active n || c.lagActive.any (fun d => d.open t x n)

/-- Whether source `n` is a candidate for thread `t` (R147): the configuration as of VT `cx`, the pending state as of
VT `px`. -/
def Lic.candidate (c : Lic) (t cx px n : Nat) : Bool :=
  let v := c.view t cx
  bit v.en n && decide (v.prio n ≠ 0) && decide (v.target n = t) && c.pendFor t px n && !c.activeFor t px n &&
    decide (Sparse.get zeroNat v.th t < v.prio n)

/-- The candidate of highest priority, the lowest number among equals, of those for which `ok` holds (R147). -/
def Lic.best (c : Lic) (t cx px : Nat) (ok : Nat → Bool) : Option (Nat × Nat) :=
  (List.range 64).foldl (fun acc n =>
    if c.candidate t cx px n && ok n then
      let p := (c.view t cx).prio n
      match acc with
      | none => some (n, p)
      | some (m, q) => if q < p then some (n, p) else some (m, q)
    else acc) none

/-- The source that thread `t` would take at VT `p` with LEVEL `lvl`: selected against the configuration of 2 virtual
cycles before (R147, R148); `c2` is 2 × CPUDIV. -/
def Lic.take (c : Lic) (t p c2 lvl : Nat) : Option (Nat × Nat) :=
  match c.best t (p - c2) p (fun _ => true) with
  | some (n, q) => if lvl < q then some (n, q) else none
  | none => none

/-- The source that a vector read names where `a` was selected and the sources of `late` arrived after that (R149): the highest of them
that the configuration as of VT `cx` makes a candidate replaces `a` if its priority is higher. -/
def Lic.replace (c : Lic) (t cx px : Nat) (a : Nat × Nat) (late : Nat → Bool) : Nat × Nat :=
  match c.best t cx px late with
  | some b => if a.2 < b.2 then b else a
  | none => a
/-- The source that the vector read of an entry at take point `p` names (R149): one that arrives until p + 3 × CPUDIV may replace the
selected one. -/
def Lic.deliver (c : Lic) (t p cpu lvl : Nat) : Option (Nat × Nat) :=
  (c.take t p (2 * cpu) lvl).map (fun a =>
    c.replace t (p - 2 * cpu) (p + 3 * cpu) a (fun n => decide (p < Sparse.get zeroNat c.pendAt n)))
/-- The same in normal mode at BVT `p` (R151): the last `k` of the pending sources reached the thread between the two positions of the
entry. -/
def Lic.deliverLate (c : Lic) (t p cpu lvl k : Nat) : Option (Nat × Nat) :=
  let late := c.order.drop (c.order.length - k)
  match c.best t (p - 2 * cpu) p (fun n => !late.contains n) with
  | some a => if lvl < a.2 then some (c.replace t (p - 2 * cpu) p a (fun n => late.contains n)) else none
  | none => none

/-- The vector read that names source `n`: ACTIVE is set and PEND cleared (R146). -/
def Lic.acknowledge (c : Lic) (n : Nat) : Lic :=
  { c with pend := putBit c.pend n false, active := putBit c.active n true, pendAt := Sparse.set zeroNat c.pendAt n 0,
           order := c.order.erase n, lagPend := c.lagPend.filter (fun d => decide (d.n ≠ n)) }

/-- The sources that never become pending (R145). -/
def licReserved (n : Nat) : Bool := decide (n = 37) || decide (56 ≤ n)

/-- A condition arises for source `n` with event VT `e` (R154). -/
def Lic.raise (c : Lic) (n e : Nat) : Lic := if licReserved n then c else { c with events := c.events ++ [(n, e)] }
/-- Several conditions. -/
def Lic.raiseAll (c : Lic) (l : List (Nat × Nat)) : Lic := l.foldl (fun c p => c.raise p.1 p.2) c

/-- The earliest event VT of source `n`. -/
def Lic.firstOf (c : Lic) (n : Nat) : Option Nat :=
  (c.events.filter (fun p => decide (p.1 = n))).foldl (fun acc p => match acc with
    | none => some p.2
    | some e => some (min e p.2)) none

/-- The earliest event VT of all. -/
def Lic.firstEvent (c : Lic) : Option Nat :=
  c.events.foldl (fun acc p => match acc with
    | none => some p.2
    | some e => some (min e p.2)) none

/-- PEND of source `n` is set with VT `e`; a condition that arises while PEND is 1 merges with it (R146). -/
def Lic.setPend (c : Lic) (n e : Nat) : Lic :=
  { c with events := c.events.erase (n, e), pend := putBit c.pend n true,
           pendAt := if bit c.pend n then c.pendAt else Sparse.set zeroNat c.pendAt n e,
           pendLast := Sparse.set zeroNat c.pendLast n e, order := if bit c.pend n then c.order else c.order ++ [n] }

/-- A W1C of LIC_PEND at VT `own` by thread `w`: it withdraws the conditions whose event VT lies below `own` (R7, R566);
one that merged at `own` stays. Other threads' deliveries see it from `other` (R155). -/
def Lic.clearPend (c : Lic) (v : Word) (w : Option Nat) (own other : Nat) : Lic :=
  let hit := (List.range 64).filter (fun n => bit v n && bit c.pend n && decide (Sparse.get zeroNat c.pendAt n < own))
  let lag := hit.map (fun n => { n := n, writer := w, since := Sparse.get zeroNat c.pendAt n, own := own, other := other : LicLag })
  let last (n : Nat) : Nat := Sparse.get zeroNat c.pendLast n
  { c with pend := hit.foldl (fun p n => putBit p n (decide (own ≤ last n))) c.pend,
           pendAt := hit.foldl (fun p n => Sparse.set zeroNat p n (if own ≤ last n then last n else 0)) c.pendAt,
           order := c.order.filter (fun n => !hit.contains n || decide (own ≤ last n)), lagPend := c.lagPend ++ lag }

/-- What the registers show before the period `vt`, kept for the host (R412). -/
def Lic.mark (c : Lic) (vt : Nat) : Lic :=
  if c.past.any (fun p => decide (vt ≤ p.vt)) then c
  else { c with past := c.past ++ [{ vt := vt, reg := c.reg, pend := c.pend, active := c.active, pendAt := c.pendAt, eoiIgnored := c.eoiIgnored }] }
/-- The controller as it stands between the LCLK periods before `vt` and the others (R412). -/
def Lic.before (c : Lic) (vt : Nat) : Lic :=
  match c.past.find? (fun p => decide (vt ≤ p.vt)) with
  | some p => { c with reg := p.reg, pend := p.pend, active := p.active, pendAt := p.pendAt, eoiIgnored := p.eoiIgnored }
  | none => c
/-- The lags that every delivery has long seen, at or before `old`, forgotten. -/
def Lic.trim (c : Lic) (old : Nat) : Lic :=
  { c with lagPend := c.lagPend.filter (fun d => decide (old < max d.own d.other)),
           lagActive := c.lagActive.filter (fun d => decide (old < max d.own d.other)) }

/-- A completion of source `n` (R153). -/
def Lic.eoi (c : Lic) (n : Nat) (w : Option Nat) (own other : Nat) : Lic :=
  if bit c.active n then
    { c with active := putBit c.active n false,
             lagActive := c.lagActive ++ [{ n := n, writer := w, since := 0, own := own, other := other }] }
  else { c with eoiIgnored := satBits 16 (c.eoiIgnored + 1) }

/-- The pending bits that a stamped read at VT `d` sees: those set below it (R566). -/
def Lic.pendBelow (c : Lic) (d : Nat) : Word :=
  (List.range 64).foldl (fun p n =>
    if bit p n && !decide (Sparse.get zeroNat c.pendAt n < d) then putBit p n false else p) c.pend

/-- LIC_SEL[t] at VT `d` (R147 with the register state of R44, ignoring IE and LEVEL). -/
def Lic.sel (c : Lic) (t d : Nat) : Nat :=
  let pend := c.pendBelow d
  let r := (List.range 64).foldl (fun (acc : Option (Nat × Nat)) n =>
    let p := c.reg.prio n
    if bit c.reg.en n && decide (p ≠ 0) && decide (c.reg.target n = t) && bit pend n && !bit c.active n &&
        decide (Sparse.get zeroNat c.reg.th t < p) then
      match acc with
      | none => some (n, p)
      | some (m, q) => if q < p then some (n, p) else some (m, q)
    else acc) none
  match r with
  | none => 0
  | some (n, p) => n + p * 2 ^ 8 + 2 ^ 31

/-- The registers of the LIC window as a read at VT `d` returns them; none where the offset holds no register. -/
def Lic.read (c : Lic) (off d : Nat) : Option Nat :=
  if off < 0x100 then (if off % 4 = 0 then some (Sparse.get zeroNat c.reg.src (off / 4)) else none)
  else if off = 0x100 ∨ off = 0x108 ∨ off = 0x110 then some c.reg.en.toNat
  else if off = 0x118 then some (c.pendBelow d).toNat
  else if off = 0x120 then some (bits (c.pendBelow d) 0 56)
  else if off = 0x128 then some c.active.toNat
  else if 0x140 ≤ off ∧ off < 0x150 ∧ off % 4 = 0 then some (Sparse.get zeroNat c.reg.th ((off - 0x140) / 4))
  else if off = 0x150 then some 0
  else if off = 0x154 then some c.eoiIgnored
  else if 0x160 ≤ off ∧ off < 0x170 ∧ off % 4 = 0 then some (c.sel ((off - 0x160) / 4) d)
  else none

/-- The controller as the registers of an image show it (R407), `r` by window offset; what shows in none is kept. -/
def Lic.ofRegs (c : Lic) (r : Nat → Nat) : Lic :=
  { c with reg := { src := (List.range 64).foldl (fun m n => Sparse.set zeroNat m n (r (4 * n))) [], en := w64 (r 0x100),
                    th := (List.range 4).foldl (fun m t => Sparse.set zeroNat m t (r (0x140 + 4 * t))) [] },
           pend := w64 (r 0x118), active := w64 (r 0x128), eoiIgnored := r 0x154 }
/-- The configuration write that a store to the LIC window makes, if it is one. -/
def licOpOf (off v : Nat) : Option LicOp :=
  if off < 0x100 ∧ off % 4 = 0 then some (.src (off / 4) v)
  else if off = 0x100 then some (.enable (w64 v))
  else if off = 0x108 then some (.enSet (w64 v))
  else if off = 0x110 then some (.enClr (w64 v))
  else if 0x140 ≤ off ∧ off < 0x150 ∧ off % 4 = 0 then some (.thresh ((off - 0x140) / 4) v)
  else none

/-- Whether every wake latch is clear (R157). -/
def Lic.latched (c : Lic) : Bool := c.latchPad || c.latchAcc || c.latchNet
/-- LSYS_WAKE.CAUSE of a resume by an edge (R157). -/
def Lic.wakeCause (c : Lic) : Nat := if c.latchPad then 1 else if c.latchAcc then 2 else if c.latchNet then 3 else 4
/-- The latches cleared when the lane clock restarts (R157). -/
def Lic.clearLatches (c : Lic) : Lic := { c with latchPad := false, latchAcc := false, latchNet := false }

end Sys2Proof.Machine
end

