-- ==== Sys2Proof/Machine/Raster.lean ====
section
/-! DEFINITION. What the raster engine makes of a line: tile and sprite pixels, windows, mosaic, priority, blending,
collision, the need of a line and its cuts (R183 to R191, R195, R198, R206, R213 to R226). `R` reads the fetch-class
registers the line was fetched with, `P` the pixel-class registers at the dot, `V` the video RAM the fetch saw. -/
namespace Sys2Proof.Machine

/-- A pixel's colour: a palette entry, or 10-bit channels with an 8-bit alpha (R187). -/
inductive Colour
  | pal (i : Nat)
  | rgb (r g b a : Nat)
  deriving DecidableEq, Repr

/-- An opaque pixel of a layer or a sprite with its priority and its BLEND bit. -/
structure Pixel where
  colour : Colour
  prio : Nat
  blend : Bool
  deriving DecidableEq, Repr

/-- A sprite selected for a line: its entry index and its RAS_SPR_A and RAS_SPR_B (R215). -/
structure SprSel where
  index : Nat
  a : Word
  b : Word
  deriving DecidableEq, Repr

/-- Bits per pixel of a format (R183). -/
def fmtBpp (f : Nat) : Nat :=
  match f with
  | 0 => 2
  | 1 => 4
  | 2 => 8
  | 3 => 16
  | _ => 32
/-- TS for tiles of `w` pixels a side. -/
def tileSize (f w : Nat) : Nat := w * w * fmtBpp f / 8
/-- RB for tiles of `w` pixels a side. -/
def tileRow (f w : Nat) : Nat := w * fmtBpp f / 8

/-- A byte of video RAM, past the end continuing at the start (R186). -/
def vbyte (V : Nat → Byte) (a : Nat) : Nat := (V (a % 2 ^ 26)).toNat
/-- A little-endian 32-bit word of video RAM. -/
def vword (V : Nat → Byte) (a : Nat) : Nat :=
  vbyte V a + 2 ^ 8 * vbyte V (a + 1) + 2 ^ 16 * vbyte V (a + 2) + 2 ^ 24 * vbyte V (a + 3)

/-- The raw value of pixel `c` of the row at `row` (R184). -/
def texel (V : Nat → Byte) (f row c : Nat) : Nat :=
  match f with
  | 0 => vbyte V (row + c / 4) / 2 ^ (2 * (c % 4)) % 4
  | 1 => vbyte V (row + c / 2) / 2 ^ (4 * (c % 2)) % 16
  | 2 => vbyte V (row + c)
  | 3 => vbyte V (row + 2 * c) + 256 * vbyte V (row + 2 * c + 1)
  | _ => vword V (row + 4 * c)

/-- An 8-bit channel in 10 bits (R187). -/
def c10 (c : Nat) : Nat := 4 * c + c / 64

/-- The colour of a raw pixel value, none where it is transparent (R183, R187 to R189). -/
def texelColour (f bank v : Nat) (opq : Bool) : Option Colour :=
  if f < 3 then (if v = 0 ∧ !opq then none else some (.pal ((bank * 64 + v) % 4096)))
  else if f = 3 then
    let g := v / 32 % 64
    some (.rgb (33 * (v / 2048)) (16 * g + g / 4) (33 * (v % 32)) 255)
  else if f = 4 then
    let a := v / 2 ^ 24
    if a = 0 ∧ !opq then none
    else some (.rgb (c10 (v % 256)) (c10 (v / 256 % 256)) (c10 (v / 2 ^ 16 % 256)) (if a = 0 then 255 else a))
  else none

/-- The corner of the mosaic cell that holds coordinate `x` (R220). -/
def mosaicAt (x : Int) (m1 off : Nat) : Int := x - (x + off) % ((m1 + 1 : Nat) : Int)
/-- The point sampled for (x, L) under entry `m` of RAS_MOSAIC. -/
def mosaicPoint (R : Nat → Word) (m : Nat) (x y : Int) : Int × Int :=
  let w := R (0x3A0 + 4 * m)
  if bit w 31 then (mosaicAt x (bits w 0 5) (bits w 16 5), mosaicAt y (bits w 8 5) (bits w 24 5)) else (x, y)

/-- RAS_BGn_CTL and its fields. -/
def bgCtl (R : Nat → Word) (n : Nat) : Word := R (0x100 + 0x40 * n)
def bgOn (R : Nat → Word) (n : Nat) : Bool := bit (bgCtl R n) 0
def bgAffine (R : Nat → Word) (n : Nat) : Bool := decide (2 ≤ n) && bit (bgCtl R n) 1
def bgFmt (R : Nat → Word) (n : Nat) : Nat := bits (bgCtl R n) 4 3
def bgTile (R : Nat → Word) (n : Nat) : Nat := if bit (bgCtl R n) 3 then 16 else 8
def bgMapW (R : Nat → Word) (n : Nat) : Nat := 32 * 2 ^ bits (bgCtl R n) 8 2
def bgMapH (R : Nat → Word) (n : Nat) : Nat := 32 * 2 ^ bits (bgCtl R n) 10 2
/-- A layer that R183 or R190 makes transparent. -/
def bgVoid (R : Nat → Word) (n : Nat) : Bool :=
  decide (5 ≤ bgFmt R n) || (bgAffine R n && (decide (bgTile R n = 16) || decide (3 ≤ bgFmt R n)))

/-- The pixel of a map entry `e` at column `c` and row `r` of its tile (R184 to R189). -/
def tilePixel (V : Nat → Byte) (f w base e c r : Nat) : Option Pixel :=
  let c := if e.testBit 26 then w - 1 - c else c
  let r := if e.testBit 27 then w - 1 - r else r
  let row := (base + e % 2 ^ 20 * tileSize f w + r * tileRow f w) % 2 ^ 26
  (texelColour f (e / 2 ^ 20 % 64) (texel V f row c) (e.testBit 31)).map
    (fun k => { colour := k, prio := e / 2 ^ 28 % 4, blend := e.testBit 30 })

/-- Where a layer takes a pixel from: the address of the map entry in video RAM, and the column and row in its tile, flips apart. -/
structure TileCell where
  at_ : Nat
  col : Nat
  row : Nat
  deriving DecidableEq, Repr
/-- The place of a regular layer at the point sampled (R186). -/
def regularCell (R : Nat → Word) (n : Nat) (x y : Int) : TileCell :=
  let w := bgTile R n
  let mw := bgMapW R n
  let scr := R (0x10C + 0x40 * n)
  let sx := ((x + bits scr 0 12) % ((mw * w : Nat) : Int)).toNat
  let sy := ((y + bits scr 16 12) % ((bgMapH R n * w : Nat) : Int)).toNat
  { at_ := bits (R (0x104 + 0x40 * n)) 12 14 * 4096 + 4 * ((sy / w) * mw + sx / w), col := sx % w, row := sy % w }

/-- A coefficient used within ±1.0 (R191). -/
def clampStep (v : Nat) : Int := clamp (-65536) 65536 (signed 32 v)

/-- The place of an affine layer at the point sampled (R191): none outside a map that does not wrap. -/
def affineCell (R : Nat → Word) (n : Nat) (x y : Int) : Option TileCell :=
  let o := 0x40 * n
  let mx := R (0x110 + o)
  let my := R (0x118 + o)
  let org := R (0x120 + o)
  let ctr := R (0x128 + o)
  let dx := x - signed 14 (bits ctr 0 14)
  let dy := y - signed 14 (bits ctr 16 14)
  let u := signed 32 (bits org 0 32) + clampStep (bits mx 0 32) * dx + signed 32 (bits my 0 32) * dy
  let v := signed 32 (bits org 32 32) + clampStep (bits mx 32 32) * dx + signed 32 (bits my 32 32) * dy
  let tx := u / 65536
  let ty := v / 65536
  let w : Int := ((bgMapW R n * 8 : Nat) : Int)
  let h : Int := ((bgMapH R n * 8 : Nat) : Int)
  let wrap := bit (bgCtl R n) 2
  if !wrap && (decide (tx < 0) || decide (w ≤ tx) || decide (ty < 0) || decide (h ≤ ty)) then none
  else
    let tx := (tx % w).toNat
    let ty := (ty % h).toNat
    some { at_ := bits (R (0x104 + o)) 12 14 * 4096 + 4 * ((ty / 8) * bgMapW R n + tx / 8), col := tx % 8, row := ty % 8 }

/-- The place of tile layer `n` at (x, L) after mosaic; none where the layer is off or void, or has none there. -/
def bgCell (R : Nat → Word) (n x l : Nat) : Option TileCell :=
  if !bgOn R n || bgVoid R n then none
  else
    let p := mosaicPoint R n x l
    if bgAffine R n then affineCell R n p.1 p.2 else some (regularCell R n p.1 p.2)
/-- TILEBASE of a layer. -/
def bgBase (R : Nat → Word) (n : Nat) : Nat := bits (R (0x108 + 0x40 * n)) 10 16 * 1024
/-- The pixel of tile layer `n` at (x, L); none where it is transparent too. -/
def bgPixel (R : Nat → Word) (V : Nat → Byte) (n x l : Nat) : Option Pixel :=
  (bgCell R n x l).bind (fun c => tilePixel V (bgFmt R n) (bgTile R n) (bgBase R n) (vword V c.at_) c.col c.row)

/-- Fields of a sprite entry (R212). -/
def sprX (a : Word) : Int := signed 13 (bits a 0 13)
def sprY (a : Word) : Int := signed 13 (bits a 16 13)
def sprWP (a : Word) : Nat := 8 * (bits a 32 4 + 1)
def sprHP (a : Word) : Nat := 8 * (bits a 36 4 + 1)
def sprAffine (a : Word) : Bool := bit a 47
def sprFmt (b : Word) : Nat := bits b 20 3
/-- The box of a sprite (R212). -/
def sprBW (a b : Word) : Nat := if sprAffine a then 8 * (bits b 32 5 + 1) else sprWP a
def sprBH (a b : Word) : Nat := if sprAffine a then 8 * (bits b 40 5 + 1) else sprHP a
/-- Bytes of a row of a regular sprite's pattern, and its pitch (R213). -/
def sprRBS (a b : Word) : Nat := sprWP a * fmtBpp (sprFmt b) / 8
def sprPitch (a b : Word) : Nat :=
  let n := sprRBS a b
  if n ≤ 64 then 2 ^ ((n - 1).log2 + (if n = 1 then 0 else 1)) else 64 * ceilDiv n 64
/-- The requests of a sprite on one line (R216). -/
def sprReq (a b : Word) : Nat := if sprAffine a then sprBW a b / 4 + 3 else ceilDiv (sprRBS a b) 64
/-- A sprite that R214 never selects. -/
def sprVoid (a b : Word) : Bool := decide (5 ≤ sprFmt b) || (sprAffine a && decide (3 ≤ sprFmt b))
/-- Whether a sprite intersects line `l` (R215). -/
def sprHits (a b : Word) (l hactive : Nat) : Bool :=
  bit a 40 && !sprVoid a b && decide (sprY a ≤ (l : Int)) && decide ((l : Int) < sprY a + sprBH a b) &&
    decide (sprX a < (hactive : Int)) && decide (0 < sprX a + sprBW a b)

/-- What sprite evaluation found (R215): the sprites selected, their requests, the number dropped, and whether a
limit has been met. -/
structure SprEval where
  sel : List SprSel
  req : Nat
  drop : Nat
  deriving DecidableEq, Repr

/-- One entry of the scan (R215). -/
def sprScan (R : Nat → Word) (l hactive reqmax : Nat) (s : SprEval) (i : Nat) : SprEval :=
  let a := R (0x8000 + 32 * i)
  let b := R (0x8008 + 32 * i)
  if !sprHits a b l hactive then s
  else if 0 < s.drop ∨ 128 ≤ s.sel.length ∨ reqmax < s.req + sprReq a b then { s with drop := s.drop + 1 }
  else { s with sel := s.sel ++ [{ index := i, a := a, b := b }], req := s.req + sprReq a b }

/-- Sprite evaluation of line `l` over the entries `is` (R215), nothing with RAS_SPR_CTL.EN 0. -/
def sprEval (R : Nat → Word) (l hactive : Nat) (is : List Nat) : SprEval :=
  let c := R 0x300
  if bit c 0 then is.foldl (sprScan R l hactive (bits c 16 10)) { sel := [], req := 0, drop := 0 }
  else { sel := [], req := 0, drop := 0 }

/-- Where a selected sprite takes its pixel at (x, L) from: the column and row in its pattern, none outside its box or its pattern (R213,
R219, R220). -/
def sprPoint (R : Nat → Word) (s : SprSel) (x l : Nat) : Option (Nat × Nat) :=
  let a := s.a
  let b := s.b
  let inBox (p : Int × Int) : Bool :=
    decide (sprX a ≤ p.1) && decide (p.1 < sprX a + sprBW a b) && decide (sprY a ≤ p.2) && decide (p.2 < sprY a + sprBH a b)
  let q : Int × Int := if bit a 46 then mosaicPoint R 4 x l else ((x : Int), (l : Int))
  if !inBox ((x : Int), (l : Int)) || !inBox q then none
  else if sprAffine a then
    let j := bits a 49 6
    let mx := R (0x1000 + 16 * j)
    let my := R (0x1008 + 16 * j)
    let dx := q.1 - sprX a - ((sprBW a b / 2 : Nat) : Int)
    let dy := q.2 - sprY a - ((sprBH a b / 2 : Nat) : Int)
    let tx := ((sprWP a / 2 : Nat) : Int) + (clampStep (bits mx 0 32) * dx + signed 32 (bits my 0 32) * dy) / 65536
    let ty := ((sprHP a / 2 : Nat) : Int) + (clampStep (bits mx 32 32) * dx + signed 32 (bits my 32 32) * dy) / 65536
    if tx < 0 ∨ (sprWP a : Int) ≤ tx ∨ ty < 0 ∨ (sprHP a : Int) ≤ ty then none else some (tx.toNat, ty.toNat)
  else
    let c := (q.1 - sprX a).toNat
    let r := (q.2 - sprY a).toNat
    some (if bit a 41 then sprWP a - 1 - c else c, if bit a 42 then sprHP a - 1 - r else r)
/-- The tile of an affine sprite's pattern that holds a point of it (R219). -/
def sprTile (s : SprSel) (p : Nat × Nat) : Nat := (p.2 / 8) * (sprWP s.a / 8) + p.1 / 8
/-- The pixel of a selected sprite at (x, L): none where it is transparent, too (R213, R214, R219, R220). -/
def sprPixel (R : Nat → Word) (V : Nat → Byte) (s : SprSel) (x l : Nat) : Option Pixel :=
  let a := s.a
  let b := s.b
  let f := sprFmt b
  let base := bits b 0 20 * 64
  (sprPoint R s x l).bind (fun p =>
    let v := if sprAffine a then texel V f ((base + sprTile s p * tileSize f 8 + (p.2 % 8) * tileRow f 8) % 2 ^ 26) (p.1 % 8)
      else texel V f ((base + p.2 * sprPitch a b) % 2 ^ 26) p.1
    (texelColour f (bits b 23 6) v false).map (fun k => { colour := k, prio := bits a 43 2, blend := bit a 45 }))

/-- Whether window `w` contains (x, L) (R221). -/
def winHolds (R : Nat → Word) (w x l : Nat) : Bool :=
  let v := R (0x340 + 8 * w)
  bit v 63 && decide (bits v 0 13 ≤ x) && decide (x < bits v 16 13) && decide (bits v 32 13 ≤ l) && decide (l < bits v 48 13)
/-- The mask that governs (x, L): that of the lowest-numbered window containing it, else entry 4 (R221). -/
def winMask (R : Nat → Word) (x l : Nat) : Word :=
  match (List.range 4).find? (fun w => winHolds R w x l) with
  | some w => R (0x360 + 4 * w)
  | none => R 0x370

/-- The sprite pixel: that of the opaque selected sprite of highest PRIO, the lowest entry among equals (R222). -/
def topSprite (ps : List (SprSel × Pixel)) : Option Pixel :=
  (ps.foldl (fun (acc : Option Pixel) p => match acc with
    | none => some p.2
    | some q => if q.prio < p.2.prio then some p.2 else some q) none)

/-- Insert a candidate behind those of priority at or above its own (R222). `k` names its layer: 0 to 3 for BGk, 4 for
sprites. -/
def insertCand (k : Nat) (p : Pixel) : List (Nat × Pixel) → List (Nat × Pixel)
  | [] => [(k, p)]
  | (j, q) :: t => if q.prio < p.prio then (k, p) :: (j, q) :: t else (j, q) :: insertCand k p t

/-- 10-bit channels and alpha of a colour, the palette as it stands at the dot (R187, R192). -/
def channels (P : Nat → Word) : Colour → Nat × Nat × Nat × Nat
  | .rgb r g b a => (r, g, b, a)
  | .pal i =>
    let e := P (0x4000 + 4 * i)
    (c10 (bits e 0 8), c10 (bits e 8 8), c10 (bits e 16 8), bits e 24 8)

/-- One channel of a blend (R224): `u` is RAS_BLD[u], `a8` the front pixel's alpha. -/
def blendChannel (u : Word) (a8 f b : Nat) : Nat :=
  let ea := min 256 (bits u 16 9)
  let eb := min 256 (bits u 32 9)
  match bits u 1 2 with
  | 0 => let a := if bit u 3 then a8 + a8 / 128 else ea
         (f * a + b * (256 - a) + 128) / 256
  | 1 => min 1023 ((f * ea + b * eb + 128) / 256)
  | 2 => (max 0 ((((b * eb + 128 : Nat) : Int) - ((f * ea : Nat) : Int)) / 256)).toNat
  | _ => (f * b + 511) / 1023

/-- What one dot shows and what it collides with: the 10-bit RGB of R223, and the bits of RAS_COLL of R225. -/
structure DotResult where
  r : Nat
  g : Nat
  b : Nat
  coll : Nat
  deriving DecidableEq, Repr

/-- The bits of RAS_COLL that the opaque COLL sprites `gs` (their groups) and the opaque layers `ls` set (R225). -/
def collBits (gs ls : List Nat) : Nat :=
  let pairs := (List.range gs.length).flatMap (fun i => (List.range gs.length).filterMap (fun j =>
    if i = j then none else some (4 * gs.getD i 0 + gs.getD j 0)))
  let sb := gs.flatMap (fun g => ls.map (fun n => 16 + 4 * g + n))
  (pairs ++ sb).foldl (fun m k => m ||| 2 ^ k) 0

/-- The pixel of dot `x` of active line `l` (R222 to R225). `cut` tells the layers cut for the line (R198). -/
def composeDot (R P : Nat → Word) (V : Nat → Byte) (cut : Nat) (sel : List SprSel) (x l : Nat) : DotResult :=
  let m := winMask R x l
  let bgs := (List.range 4).filterMap (fun n =>
    if cut.testBit n then none else (bgPixel R V n x l).map (fun p => (n, p)))
  let sps := sel.filterMap (fun s => (sprPixel R V s x l).map (fun p => (s, p)))
  let cands := ((match (if bit m 4 then topSprite sps else none) with
      | some p => [(4, p)]
      | none => []) ++ bgs.filter (fun q => bit m q.1)).foldl (fun l q => insertCand q.1 q.2 l) []
  let backdrop : Pixel := { colour := .pal 0, prio := 0, blend := false }
  let (k, front) := cands.headD (5, backdrop)
  let back := ((cands.drop 1).headD (5, backdrop)).2
  let (fr, fg, fb, fa) := channels P front.colour
  let u := P (0x380 + 8 * (if bit (P 0x390) k then 1 else 0))
  let gs := (sps.filter (fun q => bit q.1.a 55)).map (fun q => bits q.1.a 56 2)
  let coll := collBits gs (bgs.map (fun q => q.1))
  if decide (k ≠ 5) && front.blend && bit m 5 && bit u 0 then
    let (br, bg, bb, _) := channels P back.colour
    { r := blendChannel u fa fr br, g := blendChannel u fa fg bg, b := blendChannel u fa fb bb, coll := coll }
  else { r := fr, g := fg, b := fb, coll := coll }

/-- The need of tile layer `n` (R195): 0 for one that is off or void. -/
def bgNeed (R : Nat → Word) (hactive n : Nat) : Nat :=
  if !bgOn R n || bgVoid R n then 0
  else if bgAffine R n then hactive / 2 + 6
  else
    let t := hactive / bgTile R n + 1
    min (ceilDiv t 16 + 1) (bgMapW R n / 16) + t
/-- N_ll (R210). -/
def llNeed (R : Nat → Word) : Nat := if bit (R 0x320) 0 then bits (R 0x320) 1 3 + 1 else 0
/-- N_spr (R216). -/
def sprNeed (R : Nat → Word) : Nat := if bit (R 0x300) 0 then 8 + bits (R 0x300) 16 10 else 0

/-- The cut of R198 for allowance `allow`: the mask of layers cut and the need after the cut, for an active line. -/
def lineCut (R : Nat → Word) (hactive allow : Nat) : Nat × Nat :=
  let fixed := llNeed R + sprNeed R
  let total := fixed + bgNeed R hactive 0 + bgNeed R hactive 1 + bgNeed R hactive 2 + bgNeed R hactive 3
  let all := (List.range 4).foldl (fun m n => if bgOn R n then m ||| 2 ^ n else m) 0
  if allow < fixed then (all, fixed)
  else
    [3, 2, 1, 0].foldl (fun (a : Nat × Nat) n =>
      if allow < a.2 ∧ 0 < bgNeed R hactive n then (a.1 ||| 2 ^ n, a.2 - bgNeed R hactive n) else a) (0, total)

/-- A line-list entry as read (R205). -/
structure LlEntry where
  off : Nat
  kind : Nat
  irq : Bool
  last : Bool
  count : Nat
  data : Nat
  deriving DecidableEq, Repr

/-- The entry at `a`. -/
def llEntryAt (V : Nat → Byte) (a : Nat) : LlEntry :=
  let w := vword V a
  { off := w % 2 ^ 15, kind := w / 2 ^ 16 % 4, irq := w.testBit 18, last := w.testBit 19,
    count := vword V (a + 4) % 2 ^ 16, data := vword V (a + 8) + 2 ^ 32 * vword V (a + 12) }

/-- A group read for a milestone (R206): its entries, whether it was cut short, and the pointer after it. -/
structure LlGroup where
  mil : Nat
  entries : List LlEntry
  trunc : Bool
  next : Nat
  deriving DecidableEq, Repr

/-- The entries of the group that begins at `ptr`, at most `n` of them. DESIGN CHOICE: a line list that runs past the end of video RAM goes on at
its start, as tiles and maps do; R206 does not say. -/
def llScan (V : Nat → Byte) (ptr : Nat) : Nat → List LlEntry × Bool × Nat
  | 0 => ([], true, ptr)
  | n + 1 =>
    let e := llEntryAt V ptr
    if e.last || e.kind == 0 || e.kind == 3 then ([e], false, (ptr + 16) % 2 ^ 26)
    else let r := llScan V ((ptr + 16) % 2 ^ 26) n; (e :: r.1, r.2.1, r.2.2)

/-- The group at `ptr`, contained in the LLN lines that begin with the line that holds PTR (R206). -/
def llGroup (V : Nat → Byte) (mil ptr lln : Nat) : LlGroup :=
  let r := llScan V ptr ((64 * lln - ptr % 64) / 16)
  { mil := mil, entries := r.1, trunc := r.2.1, next := r.2.2 }

end Sys2Proof.Machine
end

