-- ==== Sys2Proof/Machine/ThreadTypes.lean ====
section
/-! DEFINITION. The state of one thread context: the architectural registers of R104, the frame stack, and the queues
and units of the core that hold a context's work in progress (R71, R79, R85, R88, R90). -/
namespace Sys2Proof.Machine

/-- A frame of the frame stack (R104). -/
structure Frame where
  epc : Word
  estatus : Word
  cause : Word
  badaddr : Word
  deriving DecidableEq, Repr

/-- A destination register: g or f. -/
inductive Dest | g (r : RegNo) | f (r : RegNo)
  deriving DecidableEq, Repr

/-- An entry of the store buffer (R90): address, bytes, and the VT at which the store issued (R41). -/
structure SbEntry where
  addr : Nat
  data : Bytes
  stamp : Nat
  deriving DecidableEq, Repr

/-- An outstanding load (R88). A register-window load is answered through the beam-write and beam-reply queues
(R85, R92): `sent` once it is in the beam-write queue. `wait` is the number of stores, from the oldest of the context's store
buffer, that leave before the load goes on (R91, R92); `reply` are the bytes that the store buffer forwards (R91), and
`split` those of the first half of a split load of a system thread (R96). -/
structure LoadPend where
  dest : Dest
  fn : LoadFn
  addr : Nat
  stamp : Nat
  beam : Bool
  sent : Bool
  wait : Nat
  reply : Option Nat
  split : Option Bytes
  deriving DecidableEq, Repr

/-- The units beside the pipe whose number R85 gives: the multiplier and the FP unit are pipelined, the FP divide and square root
share one unit, and the integer dividers are two. -/
inductive PipeUnit | pipelined | fpIter | divider
  deriving DecidableEq, Repr

/-- A result awaited from a unit beside the pipe (R85); a divide keeps the VT, the PC and the CPUDIV at which it issued (R86). -/
structure UnitPend where
  unit : PipeUnit
  writes : List (Dest × Word)
  div : Option (Nat × Word × Nat)
  deriving DecidableEq, Repr

/-- What a context is entering: an exception with its CAUSE and BADADDR, an interrupt, or what an ERET returns to. -/
inductive EntryKind | except (cause bad : Word) | interrupt | ret
  deriving DecidableEq, Repr
/-- An entry or a return in progress in a deterministic lane (R137, R141, R149, R152): its take point or decision point, the CPUDIV there,
and its kind. -/
structure Entering where
  point : Nat
  cpu : Nat
  kind : EntryKind
  deriving DecidableEq, Repr
/-- The VT of its vector read, the start of its fourth virtual cycle. -/
def Entering.read (q : Entering) : Nat := q.point + 3 * q.cpu

/-- One thread context. `capVt` is the latest frame boundary at which the context was captured (R395); `entering` is an entry whose vector
read still holds for the lane floor (R137): `vt` then stands where the context goes on at the earliest. -/
structure Thread where
  g : Sparse Word
  f : Sparse Word
  pc : Word
  ie : Bool
  level : Nat
  frames : List Frame
  vbase : Word
  fcsr : Word
  scratch : Sparse Word
  vt : Nat
  capVt : Nat
  admitted : Bool
  active : Bool
  waiting : Bool
  trapped : Bool
  slots : Nat
  prefetch : List (Nat × Word)
  lineBuf : Option (Nat × Bytes)
  sb : List SbEntry
  loads : List LoadPend
  units : List UnitPend
  entering : Option Entering
  deriving DecidableEq, Repr

/-- What an unwritten register reads as: 0 (R105). -/
def zeroWord (_ : Nat) : Word := 0

/-- The state of R105: every g and f register 0, the frame stack empty, every system register at its reset value. -/
def Thread.init : Thread :=
  { g := [], f := [], pc := 0, ie := false, level := 0, frames := [], vbase := 0, fcsr := 0, scratch := [], vt := 0, capVt := 0,
    admitted := false, active := false, waiting := false, trapped := false, slots := 0, prefetch := [],
    lineBuf := none, sb := [], loads := [], units := [], entering := none }

end Sys2Proof.Machine
end

