-- ==== Sys2Proof/Machine/LaneTypes.lean ====
section
/-! DEFINITION. The state of one lane: its lane unit (beam, raster passes, compositor, blitter, sound, timers, LIC),
its threads, memory, queues, checkpoints, input log, encoder, audio and snapshot work. -/
namespace Sys2Proof.Machine

/-- The timing in force, with V0, N0 and K0 of R36, and LL, LF and DOTDIV of the timing before it. -/
structure Timing where
  hact : Nat
  htot : Nat
  vact : Nat
  vtot : Nat
  dotdiv : Nat
  cpudiv : Nat
  lclk : Nat
  v0 : Nat
  n0 : Nat
  k0 : Nat
  oldLl : Nat
  oldLf : Nat
  oldDot : Nat
  deriving DecidableEq, Repr, Inhabited

/-- A line of a raster pass: its frame and number, the fetch-class registers and the video RAM its fetch uses (R175,
R177, R178), in normal mode the 64-byte lines of it that were read before a store to them (R177), the layers cut, the sprites selected, N, the
pixels that an overlay covers (R234), whether its group of the line list has been read (R207, R211), and whether its fetch is complete (R176). -/
structure LineFetch where
  frame : Nat
  line : Nat
  regs : Sparse Word
  cut : Nat
  sel : List SprSel
  view : Mem
  taken : List Nat
  need : Nat
  covered : List Nat
  listed : Bool
  complete : Bool
  deriving DecidableEq, Repr

/-- A capture taken at a commit window's close (R236): the boundary it is for, and the shadow copies. -/
structure Capture where
  bound : Nat
  vals : List (Nat × Word)
  deriving DecidableEq, Repr

/-- A raster pass: the beam, or the tailrace pass of a late frame (R56). `regs` holds the raster and compositor
registers the pass sees, keyed by the window offset; `pos` is the VT of the latest dot at which it has applied writes;
(`cf`, `cl`, `cx`) is the next active dot to compose and (`ff`, `fl`) the next line to fetch; `groups` are fetched
line-list groups that wait for their milestone, `ptr` is PTR, 2^26 while it is to be loaded with BASE, and `ended` says
that the list has ended for the frame (R208);
`crc` are the running signatures of the eight windows, `sigs` the results of lane-side windows that point A has at a dot still to come: its
VT, the window, the CRC and whether it mismatches (R229, R253); `llBits` are the bits of RAS_LL_STAT that the group at VT `llAt` has set (R7, R227); `reqs` are the dots of unserved commit requests (R236). -/
structure Ras where
  regs : Sparse Word
  pos : Nat
  cf : Nat
  cl : Nat
  cx : Nat
  ff : Nat
  fl : Nat
  lines : List LineFetch
  groups : List LlGroup
  ptr : Nat
  ended : Bool
  crc : Sparse Nat
  sigs : List (Nat × Nat × Nat × Bool)
  llAt : Nat
  llBits : Word
  reqs : List Nat
  capture : Option Capture
  deriving DecidableEq, Repr, Inhabited

def crcReset (_ : Nat) : Nat := 0xFFFFFFFF

def Ras.reset : Ras :=
  { regs := [], pos := 0, cf := 0, cl := 0, cx := 0, ff := 0, fl := 0, lines := [], groups := [], ptr := 2 ^ 26,
    ended := false, crc := [], sigs := [], llAt := 0, llBits := 0, reqs := [], capture := none }

/-- A blitter operation in progress: the latched registers (R255), S, E and G (R262), the next group, and the groups'
writes so far, which take effect as one store at E in deterministic mode (R263). -/
structure BltOp where
  ctl : Word
  src : Nat
  dst : Nat
  size : Word
  pitch : Word
  fill : Word
  key : Word
  s : Nat
  e : Nat
  groups : Nat
  next : Nat
  err : Nat
  writes : List (Nat × Bytes)
  deriving DecidableEq, Repr

/-- An entry of the beam-write queue (R31, R41): a store of a thread, or a stamped read on its way. `applied` marks a
timer or LIC write whose effect the projected timers and controller already hold. -/
structure BeamEntry where
  thread : Nat
  stamp : Nat
  off : Nat
  width : Nat
  data : Nat
  read : Bool
  applied : Bool
  deriving DecidableEq, Repr

/-- An entry of the beam-reply queue (R31): the answer to a register-window load of a thread. -/
structure BeamReply where
  thread : Nat
  stamp : Nat
  off : Nat
  value : Nat
  deriving DecidableEq, Repr

/-- A stamped store that has left its store buffer (R49). `rank` orders stores of one stamp: 0 for the lane unit, the
blitter and the echo, thread t at t + 1. `gated` says that it still stands in the video gate (R179). -/
structure LogStore where
  stamp : Nat
  rank : Nat
  addr : Nat
  data : Bytes
  gated : Bool
  deriving DecidableEq, Repr

/-- An effect on another thread that waits for milestone `mil` (R51): the start of a thread, or an interrupt source. -/
structure CrossEffect where
  mil : Nat
  start : Option Nat
  source : Option Nat
  deriving DecidableEq, Repr

/-- An input of the lane: a record of the input log (R401). Kinds: 1 pad, 2 accessory, 3 viewers, 4 wake, 5 operator
commit, 6 timing or tune change, 7 host notify. `cmd` is the command that completes when it applies, `applied` that it
has applied. -/
structure LaneInput where
  vt : Nat
  order : Nat
  kind : Nat
  slot : Nat
  data : Bytes
  cmd : Option Nat
  applied : Bool
  deriving DecidableEq, Repr

/-- The lane unit's beam-side state outside the raster passes. `regs` holds the registers of the sound, pads, blitter
and lane-system windows, keyed by window offset; `bltWas` are S and E of the last operation of the blitter that has ended, in whose span
BUSY reads 1 to a stamped read (R262). -/
structure LaneUnit where
  regs : Sparse Word
  ras : Ras
  blt : Option BltOp
  bltWas : Nat × Nat
  snd : Sound
  lic : Lic
  tim : Timers
  tm : Timing
  deriving DecidableEq, Repr, Inhabited

/-- A frame that the tap records (R246): the address of its slot and the timing and colour fields of its header, as its first pixel
found them, its frame number, the VT of its boundary, FLAGS, the point-A CRCs of its windows, and its audio once that has ended. -/
structure TapFrame where
  slot : Nat
  size : Bytes
  stride : Nat
  frame : Nat
  vt : Nat
  flags : Nat
  sigs : List Nat
  audio : List (Int × Int)
  deriving DecidableEq, Repr

/-- The operator side of the compositor (R229 to R254): active and staged registers, display and staging overlay
stores, whether the copy of R230 is still to run, the latched meter values, the frame being tapped, the one whose header
is still to be written, one more than the number of the latest frame whose tap has ended (R246's GAP), the number of frames tapped, and the tap's ring by HBM address. -/
structure Operator where
  act : Sparse Word
  stage : Sparse Word
  display : Mem
  staging : Mem
  copying : Bool
  meter0 : Nat
  meter1 : Nat
  tap : Option TapFrame
  tapDone : Option TapFrame
  tapLast : Nat
  tapCount : Nat
  tapRing : Mem
  deriving DecidableEq, Repr

/-- A checkpoint (R394 to R399). `vt` is F and `frame` the frame it begins; the contexts captured, the lane unit, the
operator state and the audio routes at F, the effects across threads and the stores stamped below F that are still to
apply at F, the memory once it is settled with the bytes of it that code does not see (R83), the device time at
which the capture was complete, and whether it is good. -/
structure Checkpoint where
  vt : Nat
  frame : Nat
  threads : Sparse Thread
  captured : List Nat
  unit : LaneUnit
  op : Operator
  cross : List CrossEffect
  queue : List BeamEntry
  mem : Option Mem
  hidden : List (Nat × Byte)
  recorded : Bool
  completeAt : Option Nat
  good : Bool
  logPos : Nat
  deriving DecidableEq, Repr

/-- A rollback in progress (R402 to R405): the frame in progress and BVT at detection, F of the checkpoint that is its target, whether
the lane has been restored, and whether the encoder still withholds slices. -/
structure Rollback where
  d : Nat
  h : Nat
  target : Nat
  restored : Bool
  pauseAfter : Bool
  deriving DecidableEq, Repr

/-- The region encoder (R327 to R341): the previous and present picture at point B and the line store at point A,
keyed by 2048 y + x, the frame of the last change of each block (key 128 s + c), the next dot point B reads, the
running CRCs of the slice at A and B, the CRCs of the present frame's slices, the scroll registers by line of the
previous and present frame (key 4 L + n), the windows' point-A and point-B CRCs, and whether every block of the next
composed frame counts as changed. -/
structure Encoder where
  prev : Sparse Nat
  cur : Sparse Nat
  store : Sparse Nat
  chg : Sparse Nat
  bf : Nat
  bl : Nat
  bx : Nat
  sf : Nat
  sl : Nat
  crcA : Sparse Nat
  crcB : Sparse Nat
  winB : Sparse Nat
  winA : Sparse Nat
  scrPrev : Sparse Nat
  scrCur : Sparse Nat
  allChanged : Bool
  deriving DecidableEq, Repr

/-- The hold of a lane's clock, if any: of R57, of R58, or of R377 while the synthesiser locks. -/
inductive Hold | none | slack | vblank | relock
  deriving DecidableEq, Repr

/-- A live snapshot or drain of the lane (R406, R508): the rounds run, the pages still to copy, the pages first-written since the last round began, when pre-copy began,
whether the lane is frozen, its image once complete, and what follows. -/
structure Snapshot where
  cmd : Option Nat
  live : Bool
  drain : Bool
  rounds : Nat
  todo : Nat
  dirty : List Nat
  began : Nat
  frozen : Bool
  image : Option Bytes
  deriving DecidableEq, Repr

/-- The life of a lane (R432's LANE_QUERY): stopped, starting, running, paused, rolling back. -/
inductive LanePhase | stopped | starting | running | paused | rolling
  deriving DecidableEq, Repr

/-- Why a lane is paused or a pause is due (R62, R480, R481, R450, R451, R567, R508). -/
structure PauseWhy where
  command : Bool
  ladder : Bool
  fault : Bool
  test : Bool
  drain : Bool
  deriving DecidableEq, Repr

def PauseWhy.no : PauseWhy := { command := false, ladder := false, fault := false, test := false, drain := false }
def PauseWhy.any (p : PauseWhy) : Bool := p.command || p.ladder || p.fault || p.test || p.drain

/-- One lane. `hidden` are the bytes of `mem` that the blitter or the echo have written, as code finds them (R83); `stopping` says that the lane stops once its
contexts have nothing outstanding (R94); `startCmd` is the LANE_START that completes once thread 0 has issued, with its result (R434). `gate` are the entries of the video gate in the order of arrival: milestone interval and address / 64 (R179). `near` pages of near SRAM
are copied for the boundary before `nearAt` (R398): the copy for the first boundary at or after `nearAt` comes next. `tailAt` is the device time at which the tailrace pass of the vblank hold in progress reached F (R58). -/
structure Lane where
  phase : LanePhase
  block : Bytes
  title : Nat
  titleLen : Nat
  core : Nat
  det : Bool
  prio : Nat
  ckptPages : Nat
  inputDelay : Nat
  unit : LaneUnit
  tail : Option Ras
  tailWr : List BeamEntry
  tailAt : Option Nat
  op : Operator
  th : Sparse Thread
  mem : Mem
  hidden : List (Nat × Byte)
  log : List LogStore
  gate : List (Nat × Nat)
  near : Nat
  nearAt : Nat
  bvt : Nat
  mil : Nat
  late : Bool
  lateAt : Nat
  hold : Hold
  holdAt : Nat
  copied : Bool
  queue : List BeamEntry
  replies : List BeamReply
  cross : List CrossEffect
  inputs : List LaneInput
  inOrder : Nat
  opRecords : List (Sparse Word × Mem)
  meters : List (Nat × Nat)
  pauseDue : PauseWhy
  pausedFor : PauseWhy
  pauseCmds : List Nat
  ckpts : List Checkpoint
  early : List (Nat × Nat × Thread)
  pages : List (Nat × Nat)
  roll : Option Rollback
  lostCkpts : Nat
  rollbacks : Nat
  audio : Audio
  enc : Encoder
  snap : Option Snapshot
  opqPend : List Nat
  opqBits : Sparse Bool
  stopping : Bool
  startCmd : Option (Nat × Bytes)
  lastPads : Sparse Bytes
  lastAcc : Sparse Bytes
  draws : Nat
  deriving DecidableEq, Repr

end Sys2Proof.Machine
end

