-- ==== Sys2Proof/Machine/NetTypes.lean ====
section
/-! DEFINITION. The state of a half's network engine: flows, viewers, block states, budgets, refresh lock, ports and
their addresses (R313 to R385). -/
namespace Sys2Proof.Machine

/-- The replay record of one epoch (R320): the highest SEQ accepted and those of the last 64 that were accepted. -/
structure Replay where
  h : Option Nat
  seen : List Nat
  deriving DecidableEq, Repr

def Replay.fresh : Replay := { h := none, seen := [] }

/-- A flow (R314 to R321, R358, R437): its keys, sequence spaces and addressing. `prev` is the key and epoch before a
rekey, with their replay record and the device time until which they are accepted. `bound` is the address and port of
the latest valid JOIN. -/
structure Flow where
  id : Nat
  cipher : Nat
  key : Bytes
  epoch : Nat
  seq : Nat
  rx : Replay
  prev : Option (Bytes × Nat × Replay × Nat)
  bound : Option (Bytes × Nat)
  sub : Nat
  family : Nat
  srcIdx : Nat
  vlan : Nat
  dscp : Nat
  ttl : Nat
  dmac : Bytes
  pmaxCmd : Nat
  pmax : Nat
  deriving DecidableEq, Repr

/-- The state of one block for one viewer (R335). -/
structure BlockState where
  dirty : Bool
  coarse : Bool
  sent : Nat
  none : Bool
  usable : Bool
  deriving DecidableEq, Repr

/-- A block when the viewer is added or its key frame begins (R437, R341). -/
def blockFresh (_ : Nat) : BlockState := { dirty := true, coarse := false, sent := 0, none := true, usable := false }

/-- A datagram that has been built and not yet handed to the MAC (R367, R371). The header's SEQ and EPOCH and the
times of its handing over are filled in then. -/
structure TxItem where
  type : Nat
  flags : Nat
  frame : Nat
  slice : Nat
  payload : Bytes
  builtAt : Nat
  deriving DecidableEq, Repr

/-- A datagram as its Ethernet frame carries it (R313, R358): the sub-port's and the flow's addresses, the tag, the IP and UDP fields. -/
structure TxFrame where
  sub : Nat
  smac : Bytes
  dmac : Bytes
  tag : Option Nat
  family : Nat
  src : Bytes
  dst : Bytes
  dscp : Nat
  ecn : Nat
  ttl : Nat
  df : Bool
  sport : Nat
  dport : Nat
  cksum : Nat
  udp : Bytes
  deriving DecidableEq, Repr

/-- The messages that a viewer still repeats: MOVE every 5 ms with its payload (R345), or LEAVE (R346), `left` of the two still to be
built: 2 while the send bucket holds the first, 0 while it holds the second (R371). -/
inductive Repeat
  | none
  | move (payload : Bytes) (last : Nat)
  | leave (reason left last : Nat)
  deriving DecidableEq, Repr

/-- A change of a viewer's settings that waits for the lane's next frame boundary (R437, R369). -/
structure ViewerSet where
  budget : Option Nat
  levels : Option (Nat × Nat)
  halfOk : Option Bool
  pace : Option Nat
  deriving DecidableEq, Repr

/-- A viewer (R359 to R371). `drops` are the frames of the drops not yet forgotten and `clean` the boundaries since the
latest drop or step (R369); `selects` says that blocks are selected for the frame in progress (R368); `keyDue` holds
the reasons of events whose key frame has not begun and `keyOpen` that KEY is still repeated (R341); `keyForm` is the picture that the current key frame describes: HACTIVE,
VACTIVE, and whether B is 10 (R327, R342); `keySent` is the frame for which KEY was last built; `sent` are the frames sent lately, `shown16` those with an accepted REFRESH. -/
structure Viewer where
  flow : Flow
  player : Bool
  slot : Nat
  lane : Nat
  budget : Nat
  lmin : Nat
  lmax : Nat
  halfOk : Bool
  pace : Nat
  moved : Bool
  state : Nat
  level : Nat
  half : Bool
  rtt : Option Nat
  t : Int
  dropCount : Nat
  shown : Nat
  drops : List Nat
  clean : Nat
  stepDue : Bool
  wasAbove : Bool
  selects : Bool
  setDue : Option ViewerSet
  keyref : Nat
  keyForm : Option (Nat × Nat × Bool)
  keyDue : List Nat
  keyOpen : Bool
  keyReason : Nat
  keySent : Option Nat
  keyCmds : List (Nat × Bool)
  blocks : Sparse BlockState
  items : List TxItem
  bucket : Nat
  bucketAt : Nat
  lastRx : Nat
  joinAt : Option Nat
  timingAt : Nat
  sent : List Nat
  accepted : List Nat
  slotJoined : Bool
  rep : Repeat
  deriving DecidableEq, Repr

/-- The control flow of a port (R356, R419, R431): its flow, its EVENT_SUB mask, and the replies it keeps, each with
the 32 header bytes of its command and the device time of completion. -/
structure Control where
  flow : Flow
  mask : Nat
  kept : List (Bytes × Bytes × Nat)
  deriving DecidableEq, Repr

/-- The refresh lock of a lane (R372 to R376). -/
structure Lock where
  lock : Nat
  i : Rat
  rper : Option Nat
  good : Nat
  bad : Nat
  lastAt : Nat
  target : Int
  toZero : Bool
  deriving DecidableEq, Repr

def Lock.reset : Lock :=
  { lock := 0, i := 0, rper := none, good := 0, bad := 0, lastAt := 0, target := 0, toZero := false }

/-- What the network engine keeps for a lane: NET_LANE_CFG's PACER, PEN and LEAD, whether LANE_PACER has set them,
the refresh lock, the MOVE_PLAN (R442), and the frame and device time of the latest boundary (R344). -/
structure NetLane where
  pacer : Nat
  pen : Bool
  pacerByCmd : Bool
  lead : Int
  lock : Lock
  plan : List (Nat × Bytes)
  bframe : Nat
  btime : Nat
  deriving DecidableEq, Repr

def NetLane.reset : NetLane :=
  { pacer := 0, pen := false, pacerByCmd := false, lead := 1000, lock := .reset, plan := [], bframe := 0, btime := 0 }

/-- A sub-port (R357, R358, R382 to R385): its addresses, link, failure, whether it carries the other half's sub-port,
the announcements left of the addresses that it carries and of its own that it has taken back, and since when it has been up without error. -/
structure SubPort where
  mac : Bytes
  ip4 : List Bytes
  ip6 : List Bytes
  up : Bool
  failed : Bool
  carry : Bool
  announce : Nat
  back : Nat
  upSince : Nat
  deriving DecidableEq, Repr

/-- A sub-port after device reset. Its MAC address has no reset value in the manual: six zero bytes. -/
def SubPort.reset : SubPort :=
  { mac := List.replicate 6 0, ip4 := [], ip6 := [], up := false, failed := false, carry := false, announce := 0,
    back := 0, upSince := 0 }

/-- The network engine of a half. Viewer v is `viewers` at v, absent where NET_VW_CFG.VALID is 0. -/
structure Net where
  mode : Nat
  foEn : Bool
  fb : Nat
  foScale : Nat
  idle : Nat
  drain : Bool
  drainCmds : List Nat
  subs : Sparse SubPort
  lateTx : Nat
  rxd : Sparse Nat
  lanes : Sparse NetLane
  viewers : Sparse (Option Viewer)
  control : Option Control
  deriving DecidableEq, Repr

def subPortReset (_ : Nat) : SubPort := .reset
def netLaneReset (_ : Nat) : NetLane := .reset
def noViewer (_ : Nat) : Option Viewer := none

/-- The network engine after device reset. -/
def Net.reset : Net :=
  { mode := 0, foEn := true, fb := 10, foScale := 128, idle := 10, drain := false, drainCmds := [], subs := [],
    lateTx := 0, rxd := [], lanes := [], viewers := [], control := none }

end Sys2Proof.Machine
end

