-- ==== Sys2Proof/Machine/HalfTypes.lean ====
section
/-! DEFINITION. The state of a half outside its lanes and its network engine: queues, events, MSI-X, faults, sparing,
authority, monitors, lifetime record, boot, drain, firmware and pins (R409 to R552). -/
namespace Sys2Proof.Machine

/-- A queue pair (R414 to R417). `slot` is the device's next completion slot. -/
structure QueuePair where
  sqBase : Word
  cqBase : Word
  sqlog : Nat
  cqlog : Nat
  vec : Nat
  ien : Bool
  en : Bool
  tail : Nat
  cqHead : Nat
  sqHead : Nat
  errCfg : Bool
  errDma : Bool
  slot : Nat
  phase : Bool
  deriving DecidableEq, Repr

def QueuePair.reset : QueuePair :=
  { sqBase := 0, cqBase := 0, sqlog := 4, cqlog := 4, vec := 0, ien := false, en := false, tail := 0, cqHead := 0,
    sqHead := 0, errCfg := false, errDma := false, slot := 0, phase := true }

/-- An event (R429, R430). -/
structure Event where
  code : Nat
  lane : Nat
  eseq : Nat
  frame : Nat
  time : Nat
  data : Nat
  deriving DecidableEq, Repr

/-- The event ring of a PF (R429). -/
structure EventRing where
  base : Word
  cqlog : Nat
  sqlog : Nat
  vec : Nat
  ien : Bool
  en : Bool
  head : Nat
  slot : Nat
  phase : Bool
  errCfg : Bool
  lost : Nat
  lostPend : Bool
  buf : List Event
  eseq : Nat
  deriving DecidableEq, Repr

def EventRing.reset : EventRing :=
  { base := 0, cqlog := 4, sqlog := 4, vec := 0, ien := false, en := false, head := 0, slot := 0, phase := true,
    errCfg := false, lost := 0, lostPend := false, buf := [], eseq := 0 }

/-- An MSI-X vector (R569): its table entry, whether the table masks it, its pending bit, when a message of it was last sent, and whether
one is due at the end of the spacing. -/
structure MsixVector where
  addr : Word
  data : Word
  masked : Bool
  pending : Bool
  lastSent : Option Nat
  due : Bool
  deriving DecidableEq, Repr

def MsixVector.reset : MsixVector :=
  { addr := 0, data := 0, masked := true, pending := false, lastSent := none, due := false }

/-- A fault record (R455). -/
structure FaultRecord where
  number : Nat
  half : Nat
  cls : Nat
  action : Nat
  levee : Nat
  unitNo : Nat
  lane : Nat
  frame : Nat
  time : Nat
  syndrome : Nat
  repeats : Nat
  rflags : Nat
  deriving DecidableEq, Repr

/-- A test of a unit that has been freed (R458, R460, R462), with the SELFTEST command that waits for it. -/
structure UnitTest where
  kind : UnitKind
  idx : Nat
  cmd : Option Nat
  retire : Bool
  deriving DecidableEq, Repr

/-- What waits for the restart of a service processor (R452): a fault, or what a read of HBM by pseudo-channel and row has found. -/
inductive LateFault
  | fault (f : FaultInfo)
  | hbm (q row : Nat) (e : HbmError)
  deriving DecidableEq, Repr

/-- Faults, sparing and rotation of a half (R444 to R463). `faults` are the detected faults of units with their times,
`again` the lane units that have restored a lane in place for want of a spare, with the times (R451),
`spares` the tested spare lane units, `spareCore` the spare core, `handoff` a lane bound to a hand-off with its spare,
`masked` and `detected` the counts by class, `later` what is found while the service processor restarts, with their times, `tested` the time of the last test by unit number; `rowErrs` and `pcErrs` the times of corrected
errors by row and of uncorrected ones by pseudo-channel, `pcFailing` the pseudo-channels being copied, `spared` those moved to a spare. -/
structure Sparing where
  records : List FaultRecord
  last : Nat
  masked : Sparse Nat
  detected : Sparse Nat
  faults : List (UnitKind × Nat × Nat)
  again : List (Nat × Nat)
  retired : List (UnitKind × Nat)
  spares : List Nat
  spareCore : Option Nat
  luMap : Sparse Nat
  coreMap : Sparse Nat
  coreMove : List (Nat × Nat × List Nat)
  luNext : Nat
  coreNext : Nat
  luHalt : Bool
  coreHalt : Bool
  handoff : Option (Nat × Nat)
  tests : List UnitTest
  luTested : Sparse Nat
  coreTested : Sparse Nat
  recovering : Bool
  spRestart : Bool
  spFault : Option FaultInfo
  spTime : Nat
  spFlags : Nat
  later : List (Nat × LateFault)
  down : Bool
  spared : List Nat
  memCorr : Nat
  memUncorr : Nat
  repairs : Nat
  rowErrs : List (Nat × Nat)
  pcErrs : List (Nat × Nat)
  pendingRows : List Nat
  pcFailing : List Nat
  deriving DecidableEq, Repr

/-- The roles of R465. -/
inductive Role | subordinate | inCharge | isolated | starting
  deriving DecidableEq, Repr

/-- Authority (R464 to R469). `seqTx`, `seqRx` by wire; `heard` is what the claim window has heard of the peer; `wireOff` is the
device time until which an injected fault takes each Towpath wire (R463). -/
structure Authority where
  role : Role
  pref : Nat
  pin : Nat
  claims : Nat
  resLast : Nat
  outcome : Nat
  seqTx : Sparse Nat
  seqRx : Sparse Nat
  lastValid : Sparse Nat
  wireOff : Sparse Nat
  claiming : Option Nat
  heardRole1 : Bool
  heardClaim : Bool
  heardAny : Bool
  passLeft : Nat
  peerLost : Bool
  claimUntil : Nat
  deriving DecidableEq, Repr

/-- A monitor (R470 to R474): reading, limits, flags, and the updates for which it has differed from the median. -/
structure Monitor where
  value : Int
  low : Int
  high : Int
  below : Bool
  above : Bool
  failed : Bool
  streak : Nat
  deriving DecidableEq, Repr

/-- Monitors, core voltage and ladder (R470 to R482). `io33` are the MFIO banks of the half, as a mask, whose selected level is 3.3 V (R471, R493). -/
structure Monitors where
  thermal : Sparse Monitor
  voltage : Sparse Monitor
  ring : Sparse Monitor
  stage : Nat
  stageAt : Nat
  floor2 : Bool
  avsFault : Bool
  avsMv : Nat
  avsNacks : Nat
  avsOffSince : Option Nat
  ladder : List Nat
  ladderAt : Nat
  droops : List (Nat × Nat)
  io33 : Nat
  trip : Bool
  deriving DecidableEq, Repr

/-- The lifetime record (R484 to R491): the live image as fields by offset, the generations in MRAM (own A and B,
mirrors A and B of the peer), the trip word, and the flush state. -/
structure Lifetime where
  image : Mem
  mram : Sparse (Option Bytes)
  tripWord : Nat
  gen : Nat
  mirrorOk : Bool
  source : Nat
  nextS : Nat
  due : Bool
  toMirror : Option Bytes
  seconds : Nat
  deriving DecidableEq, Repr

/-- Boot (R501 to R504). `ports` says that stage 7, which runs beside stages 3 to 6, has ended, `cycle` that a power-on reset is still to be counted
(R489). `since` is the device time of power-good or of the release of RESET_N. -/
structure Boot where
  stage : Nat
  ready : Bool
  fullTrain : Bool
  ports : Bool
  failed : Bool
  err : Nat
  fallback : Bool
  bootMs : Nat
  since : Nat
  running : Bool
  por : Bool
  cycle : Bool
  pinReset : Bool
  trip : Bool
  safeLast : Bool
  perstHeld : Bool
  ethClk : Bool
  pcieClk : Bool
  deriving DecidableEq, Repr

/-- A slot of a firmware component (R516, R517): its state, and the image it holds. -/
structure Slot where
  state : Nat
  image : Bytes
  deriving DecidableEq, Repr

/-- A component's directory entry: the active slot (0 A, 1 B), both slots. -/
structure Component where
  active : Nat
  a : Slot
  b : Slot
  deriving DecidableEq, Repr

/-- The settings of a port (PORT_CFG). -/
structure PortCfg where
  mode : Nat
  foEn : Bool
  fb : Nat
  foScale : Nat
  idle : Nat
  deriving DecidableEq, Repr
def PortCfg.reset : PortCfg := { mode := 0, foEn := true, fb := 10, foScale := 128, idle := 10 }

/-- The flash of a half (R515 to R525): directory generation and entries (components 1 to 5), staging, the settings
block's generation, SVER and saved settings, the waiting component, fused keys and KEYFLOOR, and trial work. -/
structure Firmware where
  gen : Nat
  comps : Sparse Component
  staging : Mem
  waiting : Nat
  waitLen : Nat
  keys : Sparse (Nat × Nat)
  keyFloor : Nat
  sver : Nat
  setGen : Nat
  setCfg : PortCfg
  setSubs : Sparse SubPort
  setLockdown : Bool
  copyDue : Bool
  restart : Option Nat
  prevSlot : Nat
  tables : Bool
  deriving DecidableEq, Repr

/-- The pins of a half (R536 to R552), by index i. `holds` are the pins whose switch of function waits for the end of
its hold, with the old function's pad state. -/
structure Pins where
  mux : Sparse Nat
  cfg : Sparse Word
  irqMode : Sparse Nat
  adc : Sparse Nat
  out : Word
  oe : Word
  pad : Word
  irqStat : Word
  irqCtl : Word
  seen : Nat
  led : Word
  deny : Nat
  holds : Sparse (Option (Nat × Nat))
  strapPref : Nat
  strapMode : Nat
  strapAddr : Nat
  ownPref : Nat
  ownMode : Nat
  ownAddr : Nat
  mismatch : Bool
  jmp : Bool
  v33 : Nat
  sealAtReset : Bool
  deriving DecidableEq, Repr

/-- The drain of a half (R506 to R514). `buffersOver` says that no image of the half is kept any more, `waitOver` that the wait of R508 for a buffer has
ended; `gone` are the lanes whose images are lost. -/
structure Drain where
  state : Nat
  eject : Bool
  cmd : Bool
  buf : Bool
  dest : Nat
  addr : Nat
  size : Nat
  began : Nat
  lanes : List Nat
  written : Nat
  lost : Nat
  bytes : Nat
  nextOff : Nat
  buffersOver : Bool
  waitOver : Bool
  gone : List Nat
  deriving DecidableEq, Repr

def Drain.reset : Drain :=
  { state := 0, eject := false, cmd := false, buf := false, dest := 0, addr := 0, size := 0, began := 0, lanes := [],
    written := 0, lost := 0, bytes := 0, nextOff := 0, buffersOver := false, waitOver := false, gone := [] }

/-- A title image of a half (R391 to R393, R440): its bytes, digest, readiness, references, whether it is unloading,
whether a copy from the other half is in progress, the CRCs of its pages, and pages awaiting repair. -/
structure Title where
  data : Bytes
  digest : Bytes
  ready : Bool
  refs : Nat
  unloading : Bool
  copying : Bool
  crcs : List Nat
  bad : List Nat
  deriving DecidableEq, Repr

def noTitle (_ : Nat) : Option Title := none

end Sys2Proof.Machine

namespace Sys2Proof.Config

/-- The flash slots of components 1 to 5 as manufacture left them, and the fused public keys of key slots 1 to 4 (R515, R518): the manual
gives no contents. -/
opaque flashSlots : HalfId → Sys2Proof.Machine.Sparse Sys2Proof.Machine.Component
opaque fusedKeys : HalfId → Sys2Proof.Machine.Sparse (Nat × Nat)

end Sys2Proof.Config
end

