-- ==== Sys2Proof/Machine/State.lean ====
section
/-! DEFINITION. The state of the block, as plain data: the two halves with their lanes, the commands in flight, the
grant, the outputs, and the queue of waiting commands. State.reset is the state at the end of a device reset. -/
namespace Sys2Proof.Machine

/-- What stops the block. -/
inductive Fault
  /-- Raised by a command that names a lane, viewer, timer, queue pair, pin or other unit whose number lies outside the
  numbers the manual gives (R13, R359, R158, R411, R538): no sender can make that step. Safe: the block stops. -/
  | noUnit
  deriving DecidableEq, Repr

/-- What the model declines to run. -/
inductive Refusal
  /-- The command has no meaning yet: raised by the arms of `exec` that are still rejected by name. Safe. -/
  | notModelled (mnemonic : String)
  /-- Raised by SYSX at system level, and by MFS and MTS of system registers 0x800 to 0xFFF at system level: the manual
  says that they serve Dunsien firmware and are not described (R107). Safe: the block stops. -/
  | firmware
  deriving DecidableEq, Repr

/-- Where a command came from (R409). -/
inductive Source
  | ring (h : HalfId) (q : Nat)
  | control (h : HalfId)
  | smbus
  deriving DecidableEq, Repr

/-- A reply before it is written (R423). -/
structure Reply where
  status : Nat
  detail : Nat
  result : Bytes
  deriving DecidableEq, Repr

/-- A command in flight (R410, R421): the packet, the order of its acceptance, whether it has begun, and its reply
once it has completed. `discard` says that the reply and the result are not written (R416, R418), `wait` that what it
bound has not come about yet. -/
structure Cmd where
  id : Nat
  src : Source
  opcode : Nat
  tag : Nat
  target : Nat
  flags : Nat
  params : Bytes
  deadline : Nat
  raddr : Nat
  rmax : Nat
  header : Bytes
  begun : Bool
  reply : Option Reply
  discard : Bool
  deriving DecidableEq, Repr

/-- What leaves the block: Runnel datagrams, DMA writes to host memory, MSI-X messages, replies and answers on SMBus
and the ports, heartbeat words, AVSBus requests. -/
inductive Out
  | datagram (h : HalfId) (f : TxFrame)
  | hostWrite (h : HalfId) (addr : Nat) (data : Bytes)
  | msix (h : HalfId) (vec : Nat) (addr data : Word)
  | smbus (data : Bytes)
  | smbusNack
  | smbusAddress (addr : Nat)
  | arpReply (h : HalfId) (sub : Nat) (ip mac toMac : Nat)
  | neighbourAdvert (h : HalfId) (sub : Nat) (ip mac toMac : Nat)
  | announce (h : HalfId) (sub : Nat) (ip : Bytes)
  | heartbeat (h : HalfId) (wire : Nat) (word : Nat)
  | avs (h : HalfId) (mv : Nat)
  | mirror (h : HalfId) (image : Bytes)
  | regRead (value : Word)
  deriving DecidableEq, Repr

/-- The presence grant and the tamper latch of the device (R526 to R534). -/
structure Presence where
  openAt : Option Nat
  endAt : Nat
  source : Nat
  tamper : Bool
  tamperAt : Nat
  lockdown : Bool
  deriving DecidableEq, Repr

def Presence.reset : Presence :=
  { openAt := none, endAt := 0, source := 0, tamper := false, tamperAt := 0, lockdown := false }

/-- A 64-byte line of a core's instruction or data cache (R80, R89): the core, whose memory it is (0 for the system threads, lane index
+ 1 for a lane), its address / 64, and its bytes. -/
structure CacheLine where
  core : Nat
  space : Nat
  line : Nat
  data : Bytes
  deriving DecidableEq, Repr

/-- One half. `msixEnable` and `msixMask` say whether the function's MSI-X is enabled and whether it is masked (R569); `sys` are the system contexts by 16 core + x, `sysMem` the memory their firmware uses, `icache` and `dcache` the lines
that the cores' caches hold, `slots` the owner of each slot position by 16 core + p, one more than its context, 0 for none, `ctxs` what
each context holds by 16 core + x: 4 lane + t + 1, or 0; `coreStat` is SVC_CORE_STAT of a core, `slotNow` the number of the core cycle
of its last issue and `borrowed` the context that last borrowed a slot of it (R73, R77), `issued` the lanes
of a LANE_START in progress whose thread 0 has issued (R434); `band` and `ohms` are the seal loop's
reading. -/
structure Half where
  lanes : Sparse Lane
  net : Net
  qps : Sparse QueuePair
  ev : EventRing
  msix : Sparse MsixVector
  msixEnable : Bool
  msixMask : Bool
  sys : Sparse Thread
  sysMem : Mem
  icache : List CacheLine
  dcache : List CacheLine
  slots : Sparse Nat
  ctxs : Sparse Nat
  coreStat : Sparse Word
  slotNow : Sparse Nat
  borrowed : Sparse Nat
  issued : List Nat
  titles : Sparse (Option Title)
  sp : Sparing
  auth : Authority
  mon : Monitors
  life : Lifetime
  boot : Boot
  fw : Firmware
  pins : Pins
  drain : Drain
  band : Nat
  ohms : Nat
  draws : Nat
  deriving DecidableEq, Repr

/-- What the 64 KiB internal block and the operator records of a snapshot image hold (R407): the lane unit, what is on its way across
threads and to the beam, the waiting threads, the entries in progress, what code does not see of memory, the logged inputs and the operator records. -/
structure A1Block where
  unit : LaneUnit
  cross : List CrossEffect
  queue : List BeamEntry
  waiting : List Nat
  entering : List (Nat × Entering)
  hidden : List (Nat × Byte)
  inputs : List LaneInput
  records : List (Sparse Word × Mem)
  deriving DecidableEq, Repr, Inhabited

/-- The state of the block. `time` is device time in ns (R325). `out` holds what has left the block, the newest first.
`images` are the snapshot images that the block has written, with what their parts of no given layout hold. `freeCtr` numbers the draws
of free values. -/
structure State where
  time : Nat
  powered : Bool
  inReset : Bool
  ready : Bool
  safe : Bool
  thermtrip : Bool
  east : Half
  west : Half
  presence : Presence
  cmds : List Cmd
  nextCmd : Nat
  smReplies : List Bytes
  out : List Out
  images : List (Bytes × A1Block)
  freeCtr : Nat
  pending : List Instr
  deriving DecidableEq, Repr

/-- The timing of a lane that has never started. -/
def Timing.zero : Timing :=
  { hact := 0, htot := 0, vact := 0, vtot := 0, dotdiv := 1, cpudiv := 1, lclk := 0, v0 := 0, n0 := 0, k0 := 0,
    oldLl := 0, oldLf := 0, oldDot := 1 }

/-- A lane unit after lane reset (R8). -/
def LaneUnit.reset : LaneUnit :=
  { regs := [], ras := .reset, blt := none, bltWas := (0, 0), snd := .reset, lic := .reset, tim := .reset, tm := .zero }

/-- The operator side after lane reset. What the overlay stores hold after lane reset is not given: bytes of 0 here. -/
def Operator.reset : Operator :=
  { act := [], stage := [], display := [], staging := [], copying := false, meter0 := 0, meter1 := 0,
    tap := Option.none, tapDone := Option.none, tapLast := 0, tapCount := 0, tapRing := [] }

/-- The encoder at lane start. -/
def Encoder.reset : Encoder :=
  { prev := [], cur := [], store := [], chg := [], bf := 0, bl := 0, bx := 0, sf := 0, sl := 0, crcA := [], crcB := [],
    winB := [], winA := [], scrPrev := [], scrCur := [], allChanged := true }

/-- A lane index with no started lane. -/
def Lane.absent : Lane :=
  { phase := .stopped, block := [], title := 0, titleLen := 0, core := 0, det := false, prio := 0, ckptPages := 0,
    inputDelay := 0, unit := .reset, tail := Option.none, tailWr := [], tailAt := Option.none, op := .reset, th := [], mem := [], hidden := [], log := [], gate := [],
    near := 64, nearAt := 0, bvt := 0, mil := 0, late := false, lateAt := 0, hold := .none, holdAt := 0, copied := false,
    queue := [], replies := [], cross := [], inputs := [], inOrder := 0, opRecords := [], meters := [], pauseDue := .no, pausedFor := .no,
    pauseCmds := [], ckpts := [], early := [], pages := [], roll := Option.none, lostCkpts := 0, rollbacks := 0,
    audio := .reset, enc := .reset, snap := Option.none, opqPend := [], opqBits := [],
    stopping := false, startCmd := Option.none, lastPads := [], lastAcc := [], draws := 0 }

def laneNone (_ : Nat) : Lane := .absent
def qpReset (_ : Nat) : QueuePair := .reset
def msixReset (_ : Nat) : MsixVector := .reset
/-- The system contexts: SYSTEM 1, not started (R71, R72). -/
def sysReset (_ : Nat) : Thread := .init
/-- The reset value of SVC_SLOT_TABLE (R78): contexts 14 and 15 own positions 0 and 8. -/
def slotReset (k : Nat) : Nat := if k % 16 = 0 then 15 else if k % 16 = 8 then 16 else 0

/-- The monitors' limits at device reset (R473): the voltage limits are 5 % of the droop target of the monitor's rail
(R471), in the VALUE unit of R470. -/
def droopTarget (rail : Nat) : Int :=
  match rail with
  | 0 => 3000 | 1 => 3200 | 2 => 4400 | 3 => 1600 | 4 => 7200 | 5 => 3400 | 6 => 3200 | _ => 7200
/-- The rail that a voltage monitor watches (R471). -/
def railOf (i : Nat) : Nat :=
  if i ≤ 6 then 0 else if i ≤ 12 then 1 else if i ≤ 14 then 2 else if i ≤ 16 then 3 else if i ≤ 18 then 4
  else if i ≤ 20 then 5 else if i = 21 then 6 else 7
/-- The droop target of a monitor, in 0.25 mV: monitor 20 watches VDDH_SD at 1.200 V, monitors 22 and 23 the half's two MFIO banks, each at its selected
level, 3.3 V where the mask has the bank (R471, R493). -/
def monitorTarget (io33 i : Nat) : Int :=
  if i = 20 then 4800 else if 22 ≤ i ∧ io33.testBit (i - 22) = true then 13200 else droopTarget (railOf i)
/-- A monitor with its limits and no reading yet: its reading is 0 (DESIGN CHOICE: the manual gives none). -/
def Monitor.at (low high : Int) : Monitor :=
  { value := 0, low := low, high := high, below := false, above := false, failed := false, streak := 0 }
def thermalReset (_ : Nat) : Monitor := .at (-320) 1080
def voltageReset (io33 i : Nat) : Monitor := .at (monitorTarget io33 i * 95 / 100) (monitorTarget io33 i * 105 / 100)
def ringReset (_ : Nat) : Monitor := .at 0 0xFFFF

def Sparing.reset (h : HalfId) : Sparing :=
  { records := [], last := 0, masked := [], detected := [], faults := [], again := [], retired := [],
    spares := (List.range 4).map (fun k => (if h = .east then 128 else 260) + k), spareCore := some 16, luMap := [],
    coreMap := [], coreMove := [], luNext := if h = .east then 0 else 132, coreNext := 0, luHalt := false, coreHalt := false,
    handoff := none, tests := [], luTested := [], coreTested := [], recovering := false, spRestart := false,
    spFault := none, spTime := 0, spFlags := 0, later := [], down := false, spared := [], memCorr := 0, memUncorr := 0, repairs := 0,
    rowErrs := [], pcErrs := [], pendingRows := [], pcFailing := [] }

def Authority.reset (h : HalfId) (pref : Nat) : Authority :=
  { role := if (pref = 0) = (h = .east) then .inCharge else .subordinate, pref := pref, pin := 0, claims := 0,
    resLast := 0, outcome := 0, seqTx := [], seqRx := [], lastValid := [], wireOff := [], claiming := none, heardRole1 := false,
    heardClaim := false, heardAny := false, passLeft := 0, peerLost := false, claimUntil := 0 }

def Monitors.reset : Monitors :=
  { thermal := [], voltage := [], ring := [], stage := 0, stageAt := 0, floor2 := false, avsFault := false,
    avsMv := 750, avsNacks := 0, avsOffSince := none, ladder := [], ladderAt := 0, droops := [], io33 := 0, trip := false }

def noImage (_ : Nat) : Option Bytes := none
def Lifetime.reset : Lifetime :=
  { image := [], mram := [], tripWord := 0, gen := 0, mirrorOk := false, source := 0, nextS := 600, due := false,
    toMirror := none, seconds := 0 }

/-- Boot right after RESET_N is released: stage 1 has begun (R501). -/
def Boot.reset : Boot :=
  { stage := 1, ready := false, fullTrain := false, ports := false, failed := false, err := 0, fallback := false, bootMs := 0,
    since := 0, running := true, por := false, cycle := false, pinReset := false, trip := false, safeLast := false, perstHeld := false,
    ethClk := true, pcieClk := true }

def Slot.empty : Slot := { state := 0, image := [] }
def compReset (_ : Nat) : Component := { active := 0, a := .empty, b := .empty }
def keyReset (_ : Nat) : Nat × Nat := (0, 0)
/-- The flash and the fuses of a half as manufacture left them: free values. No settings block is written, and KEYFLOOR is 1 (DESIGN CHOICE:
the manual gives neither). -/
def Firmware.reset (h : HalfId) : Firmware :=
  { gen := 0, comps := Config.flashSlots h, staging := [], waiting := 0, waitLen := 0, keys := Config.fusedKeys h, keyFloor := 1, sver := 0,
    setGen := 0, setCfg := .reset, setSubs := [], setLockdown := false, copyDue := false, restart := none, prevSlot := 0, tables := false }

/-- The reset value of MFIO_MUX (R552). -/
def muxReset (h : HalfId) (i : Nat) : Nat := if 16 ≤ i then 0 else if h = .west ∧ i = 7 then 0 else 1
/-- The reset value of MFIO_CFG (R552): HYS 1, DRIVE 1, PULL by pin, ANA 1 on East's pin 7. -/
def cfgReset (h : HalfId) (i : Nat) : Word :=
  let pull := if i = 5 ∨ i = 6 ∨ i = 8 then 1 else if i = 0 ∨ i = 1 ∨ i = 7 ∨ i = 10 then 0 else 2
  w64 (2 + 4 + 16 * pull + (if h = .east ∧ i = 7 then 64 else 0))
def noHold (_ : Nat) : Option (Nat × Nat) := none
def Pins.reset (h : HalfId) : Pins :=
  { mux := [], cfg := [], irqMode := [], adc := [], out := 0, oe := 0, pad := 0, irqStat := 0, irqCtl := 0, seen := 0,
    led := 0, deny := 0, holds := [], strapPref := 0, strapMode := 0, strapAddr := 0,
    ownPref := 0, ownMode := 0, ownAddr := 0, mismatch := false, jmp := false, v33 := 0, sealAtReset := h = .east }

/-- A half at the end of a device reset. -/
def Half.reset (h : HalfId) : Half :=
  { lanes := [], net := .reset, qps := [], ev := .reset, msix := [], msixEnable := false, msixMask := false, sys := [], sysMem := [], icache := [], dcache := [],
    slots := [], ctxs := [], coreStat := [], slotNow := [], borrowed := [], issued := [], titles := [], sp := .reset h, auth := .reset h 0, mon := .reset, life := .reset,
    boot := .reset, fw := .reset h, pins := .reset h, drain := .reset, band := 3, ohms := 0, draws := 0 }

/-- The block right after a device reset: both halves at stage 1 of boot (R501), every lane absent, no command in
flight, nothing waiting. -/
def State.reset : State :=
  { time := 0, powered := true, inReset := false, ready := false, safe := false, thermtrip := false,
    east := .reset .east, west := .reset .west, presence := .reset, cmds := [], nextCmd := 0, smReplies := [],
    out := [], images := [], freeCtr := 0, pending := [] }

end Sys2Proof.Machine

namespace Sys2Proof.Config

/-- What the parts of a snapshot image whose layout the manual does not give stand for, where the block has not written the image
itself (R407). -/
opaque a1Block : Bytes → Sys2Proof.Machine.A1Block
/-- What the DATA of a logged timing change stands for (R401): 0 and the words of TIMING_SET, or 1 and those of LANE_TUNE. -/
opaque timingWords : Bytes → Nat × Bytes

end Sys2Proof.Config
end

