-- ==== Sys2Proof/Machine/Timer.lean ====
section
/-! DEFINITION. The timers: counting, compare, start and stop, cascaded pairs and capture (R158 to R169), as
functions on `Timers`. Each returns the LIC sources it makes pending. -/
namespace Sys2Proof.Machine

/-- Timer `n`. -/
def Timers.get (x : Timers) (n : Nat) : Timer := x.t.getD n .reset
/-- Timer `n` replaced. -/
def Timers.put (x : Timers) (n : Nat) (y : Timer) : Timers := { x with t := x.t.set n y }
/-- Whether timer `n` is the odd timer of a pair with CASC set (R165). -/
def Timers.slave (x : Timers) (n : Nat) : Bool := decide (n % 2 = 1) && (x.get n).casc
/-- Whether timer `n` is the even timer of such a pair. -/
def Timers.paired (x : Timers) (n : Nat) : Bool := decide (n % 2 = 0) && (x.get (n + 1)).casc
/-- Whether timer `n` runs: the odd timer of a pair follows timer 2k (R164). -/
def Timers.running (x : Timers) (n : Nat) : Bool := if x.slave n then (x.get (n - 1)).run else (x.get n).run
/-- Whether the pair of even timer `n` compares as one 64-bit value (R166). -/
def Timers.wide (x : Timers) (n : Nat) : Bool := x.paired n && (x.get (n + 1)).cmp64

/-- One step in the timer's mode (R159): the new count, the new direction, and whether it is a wrap event. Counts are
32 bits wide. DESIGN CHOICE (MODE 2 at the edge of 32 bits, which R159 does not give): rising from 0xFFFF_FFFF the sum before it wraps is
compared with TOP, the count becomes 0 with a wrap event and turns to falling; falling from 0 it becomes 0xFFFF_FFFF. -/
def timerStep (mode count top : Nat) (falling : Bool) : Nat × Bool × Bool :=
  match mode with
  | 0 => if count = top ∨ count = 2 ^ 32 - 1 then (0, falling, true) else (count + 1, falling, false)
  | 1 => if count = 0 then (top, falling, true) else (count - 1, falling, false)
  | _ =>
    if falling then
      let c := (count + 2 ^ 32 - 1) % 2 ^ 32
      if c = 0 then (0, false, true) else (c, true, false)
    else
      let c := (count + 1) % 2 ^ 32
      (c, decide (top ≤ count + 1), decide (c = 0))

/-- The LCLK period of timer `n`'s next tick, if it ticks by its own prescaler (R158). -/
def Timers.nextTick (x : Timers) (n : Nat) : Option Nat :=
  if (x.get n).run && !x.slave n then some ((x.get n).last + 2 ^ (x.get n).psc) else none

/-- The earliest tick of any timer. -/
def Timers.firstTick (x : Timers) : Option Nat :=
  (List.range 8).foldl (fun acc n => match acc, x.nextTick n with
    | some a, some b => some (min a b)
    | none, b => b
    | a, none => a) none

/-- Whether a trigger of the period captures timer `n` (R168, R169): its CAPSEL is the trigger's; the odd timer of a cascaded pair never
captures alone. -/
def Timers.triggers (x : Timers) (q : CapTrig) (n : Nat) : Bool := decide ((x.get n).capsel = q.sel) && q.mask.testBit n && !x.slave n
/-- Whether step 3 or step 4 of R160 is still owed in the period `now`. -/
def Timers.owed (x : Timers) : Bool :=
  x.t.any (fun y => y.wrapped || y.due) || x.trigs.any (fun q => (List.range 8).any (fun n => x.triggers q n))

/-- What the timers are before the period `vt`, kept for the host (R412). -/
def Timers.mark (x : Timers) (vt : Nat) : Timers :=
  if x.past.any (fun p => decide (vt ≤ p.vt)) then x else { x with past := x.past ++ [{ vt := vt, t := x.t, hold := x.hold }] }
/-- The timers as they stand between the LCLK periods before `vt` and the others (R412). -/
def Timers.before (x : Timers) (vt : Nat) : Timers :=
  match x.past.find? (fun p => decide (vt ≤ p.vt)) with
  | some p => { x with t := p.t, hold := p.hold }
  | none => x
/-- The period reached moves to `vt`. -/
def Timers.at (x : Timers) (vt : Nat) : Timers := let x := x.mark vt; if x.now < vt then { x with now := vt, trigs := [] } else x

/-- Step 1 of R160 for timer `n` at its next tick, with the odd timer of a cascaded pair stepping in the same period
(R165; MODE 2 of that timer acts as MODE 0). The wraps are raised at step 4. DESIGN CHOICE: an odd MODE 2 timer that was falling when CASC was
set counts up and keeps its direction for DIR and the compare; R165 does not say. -/
def Timers.tick (x : Timers) (n : Nat) : Timers :=
  let y := x.get n
  let t := y.last + 2 ^ y.psc
  let (c, f, w) := timerStep y.mode y.count y.top y.falling
  let x := (x.at t).put n { y with count := c, falling := f, wrapped := y.wrapped || w, due := true, last := t }
  if w && x.paired n then
    let z := x.get (n + 1)
    let (c2, f2, w2) := timerStep (if z.mode = 2 then 0 else z.mode) z.count z.top z.falling
    x.put (n + 1) { z with count := c2, falling := f2, wrapped := z.wrapped || w2, due := true }
  else x

/-- Step 4 of R160 for the wrap of timer `n`: WRAPF, and source 8 + n with the VT of the period. -/
def Timers.raiseWrap (x : Timers) (n : Nat) : Timers × List (Nat × Nat) :=
  if (x.get n).wrapped then (x.put n { x.get n with wrapped := false, wrapf := true }, [(8 + n, x.now)]) else (x, [])

/-- The compare condition of R162, at `b` bits. -/
def compareHolds (b count c : Nat) (falling : Bool) : Bool :=
  let d := if falling then (c + 2 ^ b - count) % 2 ^ b else (count + 2 ^ b - c) % 2 ^ b
  decide (d < 2 ^ (b - 1))

/-- The compare condition of timer `n`, 64 bits wide for a pair with CMP64 (R166). -/
def Timers.compareNow (x : Timers) (n : Nat) : Bool :=
  let y := x.get n
  if x.wide n then compareHolds 64 ((x.get (n + 1)).count * 2 ^ 32 + y.count) (x.get (n + 1)).c64 y.falling
  else compareHolds 32 y.count y.cmp y.falling

/-- Step 4 of R160 for the compare of timer `n` (R162): a false condition arms it; a true one fires it if armed. The
odd timer of a 64-bit pair stays idle (R166). -/
def Timers.compare (x : Timers) (n : Nat) : Timers × List (Nat × Nat) :=
  let y := x.get n
  let idle := x.slave n && y.cmp64
  if !y.due then (x, [])
  else if idle || !x.running n then (x.put n { y with due := false }, [])
  else if !x.compareNow n then (x.put n { y with due := false, armed := true }, [])
  else if y.armed then (x.put n { y with due := false, armed := false, cmpf := true }, [(n, x.now)])
  else (x.put n { y with due := false }, [])

/-- Step 4 of R160 falls due for timer `n`, if it runs after the period's writes (R164). -/
def Timers.dueFor (x : Timers) (n : Nat) : Timers := x.put n { x.get n with due := x.running n }
/-- The 64-bit compare value of the pair of even timer `n` as TIM_CMP holds it (R166). -/
def Timers.cmpPair (x : Timers) (n : Nat) : Nat := (x.get (n + 1)).cmp * 2 ^ 32 + (x.get n).cmp

/-- A write of TIM_CTL[n] (R158, R159, R163). CASC and CMP64 exist on odd timers; a pair that begins to compare as one takes C from its
two TIM_CMP (R166), and a timer that leaves a pair with RUN 1 starts. -/
def Timers.writeCtl (x : Timers) (n v vt : Nat) : Timers :=
  let x := x.at vt
  let y := x.get n
  let w := w64 v
  let m := bits w 1 2
  let mode := if m = 3 then y.mode else m
  let falling := if mode = y.mode then y.falling else decide (mode = 1)
  let run := bit w 0
  let psc := bits w 8 4
  let odd := decide (n % 2 = 1)
  let starts := run && (!y.run || (y.casc && !bit w 3))
  let last := if starts || (run && decide (psc ≠ y.psc)) then vt else y.last
  let y' := { y with run := run, mode := mode, casc := odd && bit w 3, cmp64 := odd && bit w 4, psc := psc,
                     capsel := bits w 16 4, falling := falling, last := last }
  let z := x.put n y'
  let z := if odd && z.wide (n - 1) && !x.wide (n - 1) then z.put n { z.get n with c64 := z.cmpPair (n - 1) } else z
  let z := z.dueFor n
  if odd then z.dueFor (n - 1) else if z.paired n then z.dueFor (n + 1) else z

/-- A write of TIM_CNT[n]: the count, after the tick of the period (R160). -/
def Timers.writeCnt (x : Timers) (n v vt : Nat) : Timers :=
  let x := x.at vt
  let x := x.put n { x.get n with count := v % 2 ^ 32, due := x.running n }
  if x.slave n && (x.get n).cmp64 then x.put (n - 1) { x.get (n - 1) with due := x.running (n - 1) } else x

/-- A write of TIM_TOP[n]. -/
def Timers.writeTop (x : Timers) (n v vt : Nat) : Timers :=
  let x := x.at vt
  x.put n { x.get n with top := v % 2 ^ 32 }

/-- A write of TIM_CMP[n] (R162): it arms the compare. In a 64-bit pair the even half is only held, and the odd half
makes the 64-bit value effective (R166). -/
def Timers.writeCmp (x : Timers) (n v vt : Nat) : Timers :=
  let x := x.at vt
  let v := v % 2 ^ 32
  if x.wide n then x.put n { x.get n with cmp := v }
  else
    let x := x.put n { x.get n with cmp := v, armed := true, due := x.running n }
    if decide (n % 2 = 1) && x.wide (n - 1) then
      let x := x.put n { x.get n with c64 := x.cmpPair (n - 1) }
      x.put (n - 1) { x.get (n - 1) with armed := true, due := x.running (n - 1) }
    else x

/-- A write of TIM_STAT[n]: CMPF, WRAPF and CAPOVR are W1C. -/
def Timers.writeStat (x : Timers) (n v vt : Nat) : Timers :=
  let x := x.at vt
  let y := x.get n
  let w := w64 v
  x.put n { y with cmpf := y.cmpf && !bit w 0, wrapf := y.wrapf && !bit w 1, capovr := y.capovr && !bit w 3 }

/-- Starting timer `n` in period `vt` if it is stopped (R158, R163, R164). -/
def Timers.start (x : Timers) (n vt : Nat) : Timers :=
  if (x.get n).run then x
  else
    let x := x.put n { x.get n with run := true, last := vt, due := true }
    if x.paired n then x.put (n + 1) { x.get (n + 1) with due := true } else x

/-- Stopping timer `n` (R164): no compare is evaluated for it, and a wrap of this period's tick is still raised. -/
def Timers.stop (x : Timers) (n : Nat) : Timers :=
  let x := x.put n { x.get n with run := false, due := false }
  if x.paired n then x.put (n + 1) { x.get (n + 1) with due := false } else x

/-- What a write of TIM_GSTART does to timer `n` (R163): both bits leave it unchanged, and the odd timer of a cascaded pair follows the
even one (R165). -/
def Timers.gstartOne (x : Timers) (n v vt : Nat) : Timers :=
  let st := v.testBit n
  let sp := v.testBit (8 + n)
  if x.slave n then x else if st && !sp then x.start n vt else if sp && !st then x.stop n else x

/-- A write of TIM_GSTART: every timer it names, in one period (R163). -/
def Timers.gstart (x : Timers) (v vt : Nat) : Timers :=
  (List.range 8).foldl (fun x n => x.gstartOne n v vt) (x.at vt)

/-- A capture of timer `n` (R168). The odd timer of a cascaded pair never captures alone; the even one captures
both. -/
def Timers.capture (x : Timers) (n vt : Nat) : Timers × List (Nat × Nat) :=
  if x.slave n then (x, [])
  else
    let y := x.get n
    let x := x.put n { y with cap := y.count, capf := true, capovr := y.capovr || y.capf }
    let x := if x.paired n then x.put (n + 1) { x.get (n + 1) with cap := (x.get (n + 1)).count } else x
    (x, [(16 + n, vt)])

/-- The capture of every timer whose CAPSEL is `sel` (R169). -/
def Timers.captureSel (x : Timers) (sel vt : Nat) : Timers × List (Nat × Nat) :=
  (List.range 8).foldl (fun (a : Timers × List (Nat × Nat)) n =>
    if (a.1.get n).capsel = sel then let r := a.1.capture n vt; (r.1, a.2 ++ r.2) else a) (x, [])

/-- A trigger for step 3 of the period `vt` (R160, R169). -/
def Timers.trigger (x : Timers) (sel mask vt : Nat) : Timers :=
  let x := x.at vt
  { x with trigs := x.trigs ++ [{ sel := sel, mask := mask }] }
/-- A write of TIM_CAP_TRIG: timer n captures at step 3 if its bit is 1 and its CAPSEL is 1 (R169). -/
def Timers.capTrig (x : Timers) (v vt : Nat) : Timers := x.trigger 1 (v % 256) vt
/-- Step 3 of R160: the captures of the period. -/
def Timers.captures (x : Timers) : Timers × List (Nat × Nat) :=
  let r := x.trigs.foldl (fun (a : Timers × List (Nat × Nat)) q => (List.range 8).foldl (fun (a : Timers × List (Nat × Nat)) n =>
    if a.1.triggers q n then let r := a.1.capture n x.now; (r.1, a.2 ++ r.2) else a) a) (x, [])
  ({ r.1 with trigs := [] }, r.2)

/-- The side effects of a thread's read of TIM_CAP[n] (R167, R168): CAPF clears, and the even half of a cascaded pair
copies the odd one into TIM_HOLD. A read of the odd half of a pair clears nothing: the pair's CAPF is the even one's. -/
def Timers.readCap (x : Timers) (n : Nat) : Timers :=
  let x := if x.slave n then x else x.put n { x.get n with capf := false }
  if x.paired n then { x with hold := Sparse.set zeroNat x.hold (n / 2) (x.get (n + 1)).cap } else x

/-- The side effect of a thread's read of TIM_CNT[n] (R167): the even half of a cascaded pair copies the odd count
into TIM_HOLD. -/
def Timers.readCnt (x : Timers) (n : Nat) : Timers :=
  if x.paired n then { x with hold := Sparse.set zeroNat x.hold (n / 2) (x.get (n + 1)).count } else x

/-- The registers of the timer window by offset, as they read (R169); none where the offset holds no register. -/
def Timers.read (x : Timers) (off : Nat) : Option Nat :=
  if off < 0x100 then
    let y := x.get (off / 0x20)
    match off % 0x20 with
    | 0x00 => some ((x.running (off / 0x20)).toNat + 2 * y.mode + 8 * y.casc.toNat + 16 * y.cmp64.toNat + y.psc * 2 ^ 8 + y.capsel * 2 ^ 16)
    | 0x04 => some y.count
    | 0x08 => some y.top
    | 0x0C => some y.cmp
    | 0x10 => some y.cap
    | 0x14 => some (y.cmpf.toNat + 2 * y.wrapf.toNat + 4 * y.capf.toNat + 8 * y.capovr.toNat + 16 * y.falling.toNat +
                    32 * y.armed.toNat)
    | _ => none
  else if off = 0x100 ∨ off = 0x104 then some 0
  else if 0x110 ≤ off ∧ off < 0x120 ∧ off % 4 = 0 then some (Sparse.get zeroNat x.hold ((off - 0x110) / 4))
  else none

/-- The timers as the registers of an image show them (R407), `r` by window offset; what shows in none is kept. -/
def Timers.ofRegs (x : Timers) (r : Nat → Nat) : Timers :=
  let one (x : Timers) (n : Nat) : Timers :=
    let c := w64 (r (0x20 * n))
    let st := w64 (r (0x20 * n + 0x14))
    let y := x.get n
    x.put n { y with run := if bit c 3 then y.run else bit c 0, mode := bits c 1 2, casc := bit c 3, cmp64 := bit c 4, psc := bits c 8 4,
                     capsel := bits c 16 4, count := r (0x20 * n + 4), top := r (0x20 * n + 8), cmp := r (0x20 * n + 0x0C),
                     cap := r (0x20 * n + 0x10), cmpf := bit st 0, wrapf := bit st 1, capf := bit st 2, capovr := bit st 3,
                     falling := bit st 4, armed := bit st 5 }
  { (List.range 8).foldl one x with hold := (List.range 4).foldl (fun m k => Sparse.set zeroNat m k (r (0x110 + 4 * k))) [] }
/-- A write to the timer window at VT `vt`. -/
def Timers.write (x : Timers) (off v vt : Nat) : Timers :=
  if off < 0x100 then
    let n := off / 0x20
    match off % 0x20 with
    | 0x00 => x.writeCtl n v vt
    | 0x04 => x.writeCnt n v vt
    | 0x08 => x.writeTop n v vt
    | 0x0C => x.writeCmp n v vt
    | 0x14 => x.writeStat n v vt
    | _ => x
  else if off = 0x100 then x.gstart v vt
  else if off = 0x104 then x.capTrig v vt
  else x

end Sys2Proof.Machine
end

