-- ==== Sys2Proof/Machine/LaneBeam.lean ====
section
/-! DEFINITION. The beam of a lane: positions and milestones (R36), dots of stamped writes (R42), the lane floor (R38),
and how far the beam may run (R40, R50, R53, R57, R58). -/
namespace Sys2Proof.Machine

/-- LL and LF (R36). -/
def Timing.ll (t : Timing) : Nat := t.htot * t.dotdiv
def Timing.lf (t : Timing) : Nat := t.ll * t.vtot
/-- LL, LF and DOTDIV of the timing in force, and of the one before it. -/
def Timing.periods (t : Timing) : Nat × Nat × Nat := (t.ll, t.lf, t.dotdiv)
def Timing.oldPeriods (t : Timing) : Nat × Nat × Nat := (t.oldLl, t.oldLf, t.oldDot)
/-- Lines since V0 at VT `v`. -/
def Timing.linesAt (t : Timing) (v : Nat) : Nat := (v - t.v0) / t.ll
/-- The LCLK periods since the boundary at which the frame of VT `v` began, and since its line began, by the timing in force from V0 on
and by the one before it below V0. -/
def Timing.intoFrame (t : Timing) (v : Nat) : Nat :=
  if v < t.v0 then roundUp (t.v0 - v) t.oldLf - (t.v0 - v) else (v - t.v0) % t.lf
def Timing.intoLine (t : Timing) (v : Nat) : Nat :=
  if v < t.v0 then roundUp (t.v0 - v) t.oldLl - (t.v0 - v) else (v - t.v0) % t.ll
/-- The beam position at VT `v` (R36). -/
def Timing.frameAt (t : Timing) (v : Nat) : Nat :=
  if v < t.v0 then t.n0 - ceilDiv (t.v0 - v) t.oldLf else t.n0 + (v - t.v0) / t.lf
def Timing.lineAt (t : Timing) (v : Nat) : Nat := t.intoFrame v / (if v < t.v0 then t.oldLl else t.ll)
def Timing.dotAt (t : Timing) (v : Nat) : Nat := t.intoLine v / (if v < t.v0 then t.oldDot else t.dotdiv)
/-- The index k of the milestone interval that holds `v`: M_k ≤ v < M_(k+1). -/
def Timing.milIndex (t : Timing) (v : Nat) : Nat :=
  if v < t.v0 then t.k0 - ceilDiv (t.v0 - v) t.oldLl else t.k0 + t.linesAt v
/-- M_k, by the timing in force and the one before it. -/
def Timing.milVt (t : Timing) (k : Nat) : Nat :=
  if k < t.k0 then t.v0 - (t.k0 - k) * t.oldLl else t.v0 + (k - t.k0) * t.ll
/-- LSYS_MILESTONE.COUNT at VT `v` (R36). -/
def Timing.milCount (t : Timing) (v : Nat) : Nat := t.milIndex v + 1
/-- M of line `l` of frame `f` (R36). -/
def Timing.lineVt (t : Timing) (f l : Nat) : Nat := t.v0 + (f - t.n0) * t.lf + l * t.ll
/-- The VT at which dot `x` of line `l` of frame `f` begins. -/
def Timing.dotVt (t : Timing) (f l x : Nat) : Nat := t.lineVt f l + x * t.dotdiv
/-- The last frame boundary at or before `v`, and the first after it. -/
def Timing.boundary (t : Timing) (v : Nat) : Nat :=
  if v < t.v0 then t.v0 - roundUp (t.v0 - v) t.oldLf else t.v0 + (v - t.v0) / t.lf * t.lf
def Timing.nextBoundary (t : Timing) (v : Nat) : Nat := if v < t.v0 then t.boundary v + t.oldLf else t.boundary v + t.lf
/-- The frame boundary a command binds to from BVT `a` on: the first F ≥ a + (RUNAHEAD + 1) × LL (R240, R377). -/
def Timing.bindBoundary (t : Timing) (a runahead : Nat) : Nat :=
  let x := a + (runahead + 1) * t.ll
  if t.boundary x = x then x else t.nextBoundary x
/-- The VT at which dot d(s) begins (R42). -/
def Timing.stampVt (t : Timing) (s : Nat) : Nat :=
  let m := t.v0 + roundUp (s - t.v0) t.ll
  if s ≤ m ∧ m < s + t.cpudiv then m else t.v0 + roundUp (s - t.v0) t.dotdiv

/-- The registers of the sound, pads, blitter and lane-system windows. -/
def LaneUnit.reg (u : LaneUnit) (off : Nat) : Word := Sparse.get laneReset u.regs off
def LaneUnit.setReg (u : LaneUnit) (off : Nat) (v : Word) : LaneUnit := { u with regs := Sparse.set laneReset u.regs off v }
/-- The raster and compositor registers a pass sees. -/
def Ras.reg (r : Ras) (off : Nat) : Word := Sparse.get laneReset r.regs off
def Ras.setReg (r : Ras) (off : Nat) (v : Word) : Ras := { r with regs := Sparse.set laneReset r.regs off v }

/-- RUNAHEAD and SLACK (LSYS_CTRL). -/
def Lane.runahead (L : Lane) : Nat := bits (L.unit.reg 0x34000) 8 5
/-- Whether a hold is one of R57 or R58, which R59 bounds and LSYS_CTRL.HOLD shows (R66); the hold of R377 is neither. -/
def Hold.counted : Hold → Bool
  | .slack | .vblank => true
  | .none | .relock => false
def Lane.slack (L : Lane) : Nat := bits (L.unit.reg 0x34000) 16 12
def Lane.tm (L : Lane) : Timing := L.unit.tm
def Lane.cpu (L : Lane) : Nat := L.unit.tm.cpudiv
/-- A thread of the lane. -/
def threadInit (_ : Nat) : Thread := .init
def Lane.thread (L : Lane) (t : Nat) : Thread := Sparse.get threadInit L.th t
def Lane.setThread (L : Lane) (t : Nat) (x : Thread) : Lane := { L with th := Sparse.set threadInit L.th t x }
def Lane.threads (L : Lane) : List Thread := (List.range 4).map L.thread

/-- Whether a lane's contexts have empty store buffers and no load outstanding, as a stop or a core swap needs them (R94). -/
def Lane.drained (L : Lane) : Bool := L.threads.all (fun x => x.sb.isEmpty && x.loads.isEmpty)

/-- The least of a list, `d` for none. -/
def minL (d : Nat) : List Nat → Nat
  | [] => d
  | x :: t => t.foldl min x

/-- The lane floor (R38): the smallest VT among the active threads, a waiting one counting at BVT. -/
def Lane.floor (L : Lane) : Nat :=
  minL L.bvt ((L.threads.filter (·.active)).map (fun t => if t.waiting then L.bvt else t.vt))
/-- The VTs of the active threads that do not wait. -/
def Lane.running (L : Lane) : List Nat := (L.threads.filter (fun t => t.active && !t.waiting)).map (·.vt)
/-- The smallest VT of a thread that does not wait; none where every thread waits. A waiting thread counts at BVT, so the beam never
leads it (R38). -/
def Lane.lowest (L : Lane) : Option Nat :=
  match L.running with
  | [] => none
  | x :: r => some (r.foldl min x)
/-- How far virtual time is settled: the smallest VT of a thread that issues, or BVT where every thread waits. No write
with a lower stamp is still to come. -/
def Lane.vfloor (L : Lane) : Nat := minL L.bvt L.running

/-- The instruction word at the pc, as the prefetch queue holds it (R79, R108). -/
def Thread.word (t : Thread) : Option (BitVec 32) :=
  (assoc (t.pc.toNat / 8 * 8) t.prefetch).map (fun w => BitVec.ofNat 32 (bits w (if t.pc.toNat % 8 = 0 then 0 else 32) 32))

/-- The divide of a context that is in progress: the VT, the PC and the CPUDIV at which it issued (R86). -/
def Thread.divide (x : Thread) : Option (Nat × Word × Nat) := x.units.findSome? (·.div)

/-- Whether the wait of thread `t` has ended by VT `v` (R131): a source is pending for it above its LEVEL. DESIGN CHOICE: the
configuration is that of 2 virtual cycles earlier, as R148 gives it for a delivery; R131 does not say. -/
def Lane.wakeAt (L : Lane) (t v : Nat) : Bool :=
  match L.unit.lic.best t (v - 2 * L.cpu) v (fun _ => true) with
  | some (_, p) => decide ((L.thread t).level < p)
  | none => false
/-- The VTs at which a wait of thread `t` can end: its own VT, that of a pending bit, that of a change of the
controller it sees. -/
def Lane.wakePoints (L : Lane) (t : Nat) : List Nat :=
  let c := L.unit.lic
  let v := (L.thread t).vt
  (v :: (c.pendAt.map (·.2) ++ c.lagActive.map (fun d => licFrom d.writer d.own d.other t) ++
      (Sparse.get viewReset c.views t).chg.map (fun d => d.vt + 2 * L.cpu))).filter
    (fun x => decide (v ≤ x))
/-- The VT at which the wait of thread `t` ends, if it ends at or before `bound` (R47, R131). -/
def Lane.wakePoint (L : Lane) (t bound : Nat) : Option Nat :=
  match (L.wakePoints t).filter (fun x => decide (x ≤ bound) && L.wakeAt t x) with
  | [] => none
  | x :: r => some (r.foldl min x)

/-- The VT `v` that a thread reaches from VT `p`: beyond the boundary of a timing change between them a multiple of the new CPUDIV (R39). -/
def Lane.onGrid (L : Lane) (p v : Nat) : Nat := if p < L.tm.v0 ∧ L.tm.v0 < v then roundUp v L.cpu else v
/-- CPUDIV where the divide of a thread issued. -/
def Lane.divCpu (L : Lane) (t : Nat) : Nat := match (L.thread t).divide with | some d => d.2.2 | none => L.cpu
/-- The take point, below `v`, of an interrupt that abandons the divide of thread `t` issued at VT `i` (R86, R99): its
event lies strictly inside the divide's span. DESIGN CHOICE: where CPUDIV changes at a boundary within the span, the divide's virtual cycles
are those of its issue, and a take point beyond the boundary is rounded up as every VT there; R86 and R144 do not say. -/
def Lane.abandonPoint (L : Lane) (t i v : Nat) : Option Nat :=
  let x := L.thread t
  ((List.range 66).map (fun j => L.onGrid i (i + (j + 1) * L.divCpu t))).find? (fun p =>
    x.ie && decide (p < v) && decide (p ≤ x.vt) &&
      (match L.unit.lic.best t (p - 2 * L.cpu) (min p (x.vt - 1)) (fun _ => true) with
       | some (_, q) => decide (x.level < q)
       | none => false))

/-- Whether a window offset belongs to the timers or the LIC. -/
def clocked (off : Nat) : Bool := decide (0x30000 ≤ off) && decide (off < 0x32000)
/-- The register-window stores and loads of the lane's threads that have not entered the beam-write queue (R90, R92). -/
def Lane.coming (L : Lane) : List BeamEntry :=
  (List.range 4).flatMap (fun t =>
    let x := L.thread t
    (x.sb.filter (fun e => decide (0xF0000000 ≤ e.addr))).map (fun e =>
      { thread := t, stamp := e.stamp, off := e.addr - 0xF0000000, width := e.data.length, data := leNat e.data, read := false,
        applied := false }) ++
    (x.loads.filter (fun p => p.beam && !p.sent)).map (fun p =>
      { thread := t, stamp := p.stamp, off := p.addr - 0xF0000000, width := 0, data := 0, read := true, applied := false }))
/-- The VT of the dot at which an access applies (R42). -/
def Lane.dotOf (L : Lane) (e : BeamEntry) : Nat := L.tm.stampVt e.stamp
/-- Whether every register-window access that applies below `v` has reached the lane unit. -/
def Lane.arrived (L : Lane) (v : Nat) : Bool := L.coming.all (fun e => decide (v ≤ L.dotOf e))

/-- The VT of the next frame boundary that the beam has not reached. What the timers, the LIC and the inputs do at or above
it waits for it, so that the checkpoint taken there holds nothing of it (R394, R395; DESIGN CHOICE, a delay in real time only). -/
def Lane.frameEnd (L : Lane) : Nat :=
  let m := L.tm.milVt L.mil
  if L.tm.boundary m = m then m else L.tm.nextBoundary m

/-- Whether every condition whose event VT lies below `v` has arisen (R99, R154): no raised event is left to set, the
timers and the milestones are projected, no access to them, no input and no effect of R51 below `v` is left, and beam,
sound unit and blitter have evaluated every line that reaches `v`. -/
def Lane.fixed (L : Lane) (v : Nat) : Bool :=
  let ahead := (L.runahead + 1) * L.tm.ll
  decide (v ≤ L.frameEnd) && !L.unit.lic.events.any (fun p => decide (p.2 < v)) &&
    !(match L.unit.tim.firstTick with | some e => decide (e < v) | none => false) &&
    (!L.unit.tim.owed || decide (v ≤ L.unit.tim.now)) &&
    decide (v ≤ L.tm.milVt L.unit.lic.milestones) &&
    (L.queue ++ L.coming).all (fun e => e.applied || !clocked e.off || decide (v ≤ L.dotOf e)) &&
    L.inputs.all (fun i => i.applied || decide (i.kind = 4) || decide (i.kind = 5) || decide (i.kind = 6) || decide (v ≤ i.vt)) &&
    L.cross.all (fun c => decide (v ≤ L.tm.milVt c.mil)) &&
    (match L.tail with
     | some r => decide (v ≤ ahead + L.tm.lineVt r.cf r.cl)
     | none => decide (v ≤ ahead + L.tm.milVt L.mil) && decide (v ≤ ahead + L.tm.lineVt L.unit.ras.cf L.unit.ras.cl)) &&
    decide (v ≤ ahead + L.tm.milVt (L.tm.milIndex L.unit.snd.tick)) &&
    (match L.unit.blt with
     | some o => decide (v ≤ ahead + L.tm.milVt (L.tm.milIndex o.e))
     | none => true)

/-- Whether the divide of thread `u`, issued at VT `i`, runs to VT `v`, or to its end where that lies no more than `more` below it, without
an interrupt whose vector read lies below `v` (R86, R99, R137). -/
def Lane.divides (L : Lane) (u i v more : Nat) : Bool :=
  let c := L.divCpu u
  (match L.abandonPoint u i v with
    | some p => decide (v ≤ p + 3 * c)
    | none => decide (v ≤ (L.thread u).vt + more)) && (decide (v ≤ i + 3 * c) || L.fixed (v - 3 * c))
/-- Whether a thread that does not wait neither issues nor reads a vector below VT `v`: it stands at or above it, its divide runs that far,
or the vector read of its entry lies there (R137, R141). -/
def Lane.passes (L : Lane) (u v : Nat) : Bool :=
  let y := L.thread u
  match y.entering, y.divide with
  | some q, _ => decide (v ≤ q.read)
  | none, some (i, _) => L.divides u i v 0
  | none, none => decide (v ≤ y.vt)
/-- Whether no thread but those of `skip` can still issue below VT `v`: it waits for no source that is pending below `v`,
or passes `v`. -/
def Lane.silent (L : Lane) (skip : Nat → Bool) (v : Nat) : Bool :=
  (List.range 4).all (fun u =>
    let y := L.thread u
    skip u || !y.active || (if y.waiting then (L.wakePoint u (v - 1)).isNone else L.passes u v))
/-- Whether no thread but those of `skip` can still read a vector below VT `v` (R137, R146). -/
def Lane.vectorsPast (L : Lane) (skip : Nat → Bool) (v : Nat) : Bool :=
  let c := L.cpu
  (List.range 4).all (fun u =>
    let y := L.thread u
    skip u || !y.active || (if y.waiting then (L.wakePoint u (v - 3 * c - 1)).isNone else match y.entering, y.divide with
      | some q, _ => decide (v ≤ q.read)
      | none, some (i, _) => L.divides u i v (3 * c)
      | none, none => decide (v ≤ y.vt + 3 * c)))
/-- Whether an active thread has reached VT `v` for good: a waiting one by way of the beam, one that divides once no interrupt takes it back
below. -/
def Lane.reached (L : Lane) (u v : Nat) : Bool :=
  let y := L.thread u
  if y.waiting then decide (v ≤ L.bvt) else if y.divide.isSome then L.passes u v else decide (v ≤ y.vt)

/-- Whether nothing that happens below VT `v` is still to come. -/
def Lane.quiet (L : Lane) (v : Nat) : Bool := L.fixed v && L.arrived v && L.silent (fun _ => false) v

/-- The timing change bound to a boundary that has not come (R377): F, and the new timing words of the last command bound to it
(R426). -/
def Lane.newTiming (L : Lane) : Option (Nat × Bytes) :=
  let bound := L.inputs.filter (fun i => decide (i.kind = 6) && decide (i.slot = 0) && !i.applied)
  match bound with
  | [] => none
  | i :: _ => ((bound.filter (fun j => decide (j.vt = i.vt))).getLast?).map (fun j => (j.vt, j.data))
/-- M_k, across a timing change that is bound already (R36, R377). -/
def Lane.milVt (L : Lane) (k : Nat) : Nat :=
  let m := L.tm.milVt k
  match L.newTiming with
  | some (f, d) => if f < m then f + (k - L.tm.milIndex f) * (leAt d 0x0E 2 * leAt d 0x06 1) else m
  | none => m
/-- VT of the beam's next milestone. -/
def Lane.nextMil (L : Lane) : Nat := L.tm.milVt L.mil
/-- Whether every tick of the sound unit below `v` has been computed; a lane that has started has an SNDDIV of at least 64 (R269). -/
def Lane.ticked (L : Lane) (v : Nat) : Bool := decide (bits (L.unit.reg 0x21000) 0 17 = 0) || decide (v ≤ L.unit.snd.tick)
/-- Whether the beam may stand at VT `v` (R53, R57, R58, R62): the lane runs without a hold and the beam does not move
back. In deterministic mode a frame that is not late keeps the beam at or below the threads, with everything below `v`
decided; in a late one it goes no further than the first VT at which a thread lags by more than SLACK lines. In normal mode the
milestones' events, the timers, the effects across threads and the ticks of the sound unit (R274) keep up with it. -/
def Lane.beamCan (L : Lane) (v : Nat) : Bool :=
  decide (L.phase = .running) && decide (L.hold = .none) && decide (L.bvt ≤ v) &&
    (if !L.det then decide (v ≤ L.tm.milVt L.unit.lic.milestones) && (match L.unit.tim.firstTick with | some e => decide (v ≤ e) | none => true) && (!L.unit.tim.owed || decide (v ≤ L.unit.tim.now)) &&
          L.cross.all (fun c => decide (v ≤ L.milVt c.mil)) && L.ticked v
      else (if L.late then
        (List.range 4).all (fun u => let y := L.thread u; !y.active || !y.waiting || (L.wakePoint u (v - 1)).isNone) &&
          (decide (L.tm.vtot ≤ L.slack) || (match L.lowest with | some w => decide (v ≤ w + L.slack * L.tm.ll + 1) | none => true))
      else L.quiet v))
/-- The beam moved to `v`. -/
def Lane.beamTo (L : Lane) (v : Nat) : Lane := { L with bvt := max L.bvt v }

/-- Whether the beam stands at `v` or beyond, or may be moved there before its next milestone. -/
def Lane.beamReach (L : Lane) (v : Nat) : Bool := decide (v ≤ L.bvt) || (decide (v < L.nextMil) && L.beamCan v)

/-- Whether the milestone barrier lets thread `t` issue at VT `v` (R50): with several active threads, every other one has reached
M_(k-1), a waiting one by way of the beam. -/
def Lane.barrierOk (L : Lane) (t v : Nat) : Bool :=
  let k := L.tm.milIndex v
  let others := (List.range 4).filter (fun u => u ≠ t && (L.thread u).active)
  others.isEmpty || decide (k ≤ L.tm.k0) ||
    others.all (fun u => L.reached u (L.tm.milVt (k - 1)))
/-- Whether thread `t` may issue at VT `v` as far as the beam, the barrier and captures go (R40, R50, R395): RUNAHEAD
lines ahead of BVT at most, not past the milestone barrier, not past a boundary at which it has not been captured, nor
past one at which a timing change is bound and not applied. In normal mode a thread waits for its capture. `vtCan` is that
at its own VT. -/
def Lane.vtCanAt (L : Lane) (t v : Nat) : Bool :=
  let x := L.thread t
  if !L.det then decide (L.tm.boundary L.bvt ≤ x.capVt)
  else L.beamReach (v - L.runahead * L.tm.ll) && L.barrierOk t v && decide (L.tm.boundary v ≤ x.capVt) &&
    (match L.newTiming with | some (f, _) => decide (v < f) | none => true)
def Lane.vtCan (L : Lane) (t : Nat) : Bool := L.vtCanAt t (L.thread t).vt

/-- Whether a write of 1 to bit 0 of the register at `off` that applies below `v` is on its way. -/
def Lane.dueBelow (L : Lane) (off v : Nat) : Bool :=
  (L.queue ++ L.coming).any (fun e => !e.read && decide (e.off = off) && e.data.testBit 0 && decide (L.dotOf e < v))
/-- Whether every operation of the blitter that ends below `v` has reached memory (R263): none is in progress, and no START that applies
below `v` is on its way. -/
def Lane.bltPast (L : Lane) (v : Nat) : Bool :=
  (match L.unit.blt with | some o => decide (v ≤ o.e) | none => true) && !L.dueBelow 0x33000 v
/-- Whether every store of the blitter and of the echo with a stamp below `v` has reached memory (R49, R263, R280). -/
def Lane.unitsPast (L : Lane) (v : Nat) : Bool :=
  L.bltPast v && ((!bit (L.unit.reg 0x21040) 0 && !L.dueBelow 0x21040 v) || decide (v ≤ L.unit.snd.tick))
/-- Whether every such store with a stamp at or below `v` has: those of VT `v` come before the thread stores of that VT (R49, R263, R280). -/
def Lane.unitsThrough (L : Lane) (v : Nat) : Bool :=
  (match L.unit.blt with | some o => decide (v < o.e) | none => true) && !L.dueBelow 0x33000 v &&
    ((!bit (L.unit.reg 0x21040) 0 && !L.dueBelow 0x21040 (v + 1)) || decide (v < L.unit.snd.tick))

end Sys2Proof.Machine
end

