-- ==== Sys2Proof/Machine/LaneMem.lean ====
section
/-! DEFINITION. The memory of a lane: windows (R64), stamped stores and their order (R49), what threads and fetches see
(R52, R180), and first writes of an interval (R396, R400). -/
namespace Sys2Proof.Machine

/-- The windows of the lane address map (R64). -/
inductive Window | near | work | video | title | regs | outside
  deriving DecidableEq, Repr

/-- The window of a lane address (R64). -/
def windowOf (a : Nat) : Window :=
  if a < 0x40000 then .near
  else if 0x10000000 ≤ a ∧ a < 0x14000000 then .work
  else if 0x20000000 ≤ a ∧ a < 0x24000000 then .video
  else if 0x40000000 ≤ a ∧ a < 0x80000000 then .title
  else if 0xF0000000 ≤ a ∧ a < 0xF0035000 then .regs
  else .outside

/-- Whether a word may be fetched at an address (R64, R65). -/
def executable (a titleLen : Nat) : Bool :=
  match windowOf a with
  | .near | .work => true
  | .title => decide (a + 4 ≤ 0x40000000 + titleLen)
  | .video | .regs | .outside => false

/-- Whether two byte ranges meet. -/
def overlaps (a n b m : Nat) : Bool := decide (a < b + m) && decide (b < a + n)

/-- The order of stores (R49): stamp, then rank. -/
def LogStore.le (a b : LogStore) : Bool := decide (a.stamp < b.stamp) || (decide (a.stamp = b.stamp) && decide (a.rank ≤ b.rank))
/-- Insert a store after those that precede it or stand level with it. -/
def insertStore (e : LogStore) : List LogStore → List LogStore
  | [] => [e]
  | d :: t => if d.le e then d :: insertStore e t else e :: d :: t

/-- The byte at `a` after the stores of a list, over `b`. -/
def lastByte (es : List LogStore) (a : Nat) (b : Byte) : Byte :=
  es.foldl (fun b e => if e.addr ≤ a ∧ a < e.addr + e.data.length then e.data.getD (a - e.addr) 0 else b) b

/-- The buffered stores of thread `t` that go to memory, as stores of the order. -/
def Lane.buffered (L : Lane) (t : Nat) : List LogStore :=
  ((L.thread t).sb.filter (fun e => decide (windowOf e.addr ≠ .regs))).map
    (fun e => { stamp := e.stamp, rank := t + 1, addr := e.addr, data := e.data, gated := false })
/-- Every stamped store since the lane's memory was last brought up to date, in the order of R49. -/
def Lane.stores (L : Lane) : List LogStore :=
  ((List.range 4).flatMap L.buffered).foldl (fun l e => insertStore e l) L.log

/-- What a byte of the lane's address space is before those stores: memory, or the title image. -/
def Lane.baseByte (L : Lane) (title : Bytes) (a : Nat) : Byte :=
  if windowOf a = .title then title.getD (a - 0x40000000) 0 else L.mem.read a

/-- `n` bytes at `a` as a reader at (VT `v`, rank `r`) sees them in a deterministic lane (R49, R124): the stores of a
smaller stamp, and those of stamp `v` and a smaller rank. -/
def Lane.viewAt (L : Lane) (title : Bytes) (v r a n : Nat) : Bytes :=
  let es := L.stores.filter (fun e => decide (e.stamp < v) || (decide (e.stamp = v) && decide (e.rank < r)))
  (List.range n).map (fun i => lastByte es (a + i) (L.baseByte title (a + i)))

/-- The memory that a fetch belonging to the milestone at `m` sees in a deterministic lane (R52, R175): stores stamped
below `m`. -/
def Lane.memAt (L : Lane) (m : Nat) : Mem :=
  (L.stores.filter (fun e => decide (e.stamp < m))).foldl (fun M e => M.writeBytes e.addr e.data) L.mem
/-- The memory that a fetch of a late frame finds (R178): what has left the video gate. -/
def Lane.memLate (L : Lane) : Mem :=
  (L.log.filter (fun e => !e.gated)).foldl (fun M e => M.writeBytes e.addr e.data) L.mem

/-- `n` bytes at `a` as a thread of the lane reads them at VT `v` (R49, R91, R93): by the order of stores in
deterministic mode, memory under the thread's own buffered stores in normal mode. -/
def Lane.read (L : Lane) (title : Bytes) (t v a n : Nat) : Bytes :=
  if L.det then L.viewAt title v 0 a n
  else (List.range n).map (fun i => lastByte (L.buffered t) (a + i) (L.baseByte title (a + i)))

/-- The VT below which a thread at VT `v` sees code that others have stored (R83): M_(k-1), 0 while k is 0. -/
def Lane.codeFrom (L : Lane) (v : Nat) : Nat :=
  let k := L.tm.milIndex v
  if k = 0 then 0 else L.tm.milVt (k - 1)
/-- What code finds in a byte of memory before the stores of the log: never a store of the blitter or the echo (R83). -/
def Lane.codeByte (L : Lane) (title : Bytes) (a : Nat) : Byte := (assoc a L.hidden).getD (L.baseByte title a)
/-- The word at `a` that thread `t` of a deterministic lane executes at VT `v` (R83): after its own earlier stores, and those of the other
threads with a stamp below M_(k-1), and no others. -/
def Lane.codeAt (L : Lane) (title : Bytes) (t v a : Nat) : Nat :=
  let m := L.codeFrom v
  let es := L.stores.filter (fun e => decide (e.rank = t + 1) || (decide (e.rank ≠ 0) && decide (e.stamp < m)))
  leNat ((List.range 4).map (fun i => lastByte es (a + i) (L.codeByte title (a + i))))
/-- The bytes of the executable windows that differ, in the memory at VT `m`, from what code finds there: written last by the blitter or the
echo (R83). -/
def Lane.hiddenAt (L : Lane) (m : Nat) : List (Nat × Byte) :=
  let es := L.stores.filter (fun e => decide (e.stamp < m))
  let mine := (es.filter (fun e => decide (e.rank = 0))).flatMap (fun e => (List.range e.data.length).map (· + e.addr))
  let as := (L.hidden.map (·.1) ++ mine.filter (fun a => decide (windowOf a = .near) || decide (windowOf a = .work))).eraseDups
  let now := L.memAt m
  as.filterMap (fun a =>
    let b := lastByte (es.filter (fun e => decide (e.rank ≠ 0))) a (L.codeByte [] a)
    if b = now.read a then none else some (a, b))

/-- Whether a store that R83 lets thread `t` see at VT `v` in the word at `a` is still in its store buffer: the thread holds. -/
def Lane.codeBuffered (L : Lane) (t v a : Nat) : Bool :=
  (List.range 4).any (fun u => (L.buffered u).any (fun e =>
    overlaps a 4 e.addr e.data.length && (decide (u = t) || decide (e.stamp < L.codeFrom v))))

/-- Whether the word in thread `t`'s prefetch queue is the one R83 gives, and the stores it depends on have left their buffers. -/
def Lane.codeFresh (L : Lane) (title : Bytes) (t : Nat) : Bool :=
  let x := L.thread t
  !L.det || (!L.codeBuffered t x.vt x.pc.toNat && match x.word with
    | some w => decide (w.toNat = L.codeAt title t x.vt x.pc.toNat)
    | none => false)

/-- The tiles of opacity region `j` that the bytes `a … a + n - 1` of video RAM belong to (R201, R202); a region that passes the end of video RAM
goes on at its start. DESIGN CHOICE: a region marks tiles only while its EN is 1; R202 does not say whether a write to a tile of a region with EN 0
marks it (a write of RAS_OPQ[j] that sets EN marks them all). -/
def opqTiles (r : Ras) (j a n : Nat) : List Nat :=
  let w := r.reg (0x200 + 8 * j)
  let ts := tileSize (bits w 49 3) (if bit w 48 then 16 else 8)
  let base := 0x20000000 + bits w 10 16 * 1024
  if bit w 63 ∧ 0 < ts ∧ windowOf a = .video then
    [a, a + 2 ^ 26].flatMap (fun a =>
      if base < a + n then
        let lo := (a - base) / ts
        let hi := (a + n - 1 - base) / ts
        ((List.range (hi + 1 - lo)).map (· + lo)).filter (fun t => decide (t ≤ bits w 32 16))
      else [])
  else []
/-- A write marks the covered tiles pending (R202). -/
def Lane.markOpaque (L : Lane) (a n : Nat) : Lane :=
  let new := (List.range 2).flatMap (fun j => (opqTiles L.unit.ras j a n).map (· + 65536 * j))
  { L with opqPend := L.opqPend ++ new.filter (fun t => !L.opqPend.contains t) }

/-- The pages in use of the page pool (R396, SVC_CKPT.POOL_USED): the first-written pages of every interval kept. -/
def Lane.poolUsed (L : Lane) : Nat := L.pages.length

/-- The frame of the interval in which a write stamped `s` falls (R396), for the checkpoint whose F is the last at or
before `s`. -/
def Lane.intervalOf (L : Lane) (s : Nat) : Nat := if L.det then L.tm.boundary s else L.tm.boundary L.bvt

/-- The pages of work RAM and video RAM that `n` bytes at `a` touch. -/
def pagesOf (a n : Nat) : List Nat :=
  match windowOf a with
  | .work | .video => (List.range ((a + n - 1) / 4096 + 1 - a / 4096)).map (· + a / 4096)
  | .near | .title | .regs | .outside => []

/-- Drop what only the checkpoints not kept need (R399). -/
def Lane.trimPages (L : Lane) : Lane :=
  match L.ckpts.map (·.vt) with
  | [] => { L with pages := [] }
  | l => { L with pages := L.pages.filter (fun p => decide (minL 0 l ≤ p.1)) }

/-- A first write of page `p` is one that the next round of a snapshot copies (R406). -/
def Lane.wrote (L : Lane) (p : Nat) : Lane :=
  { L with snap := L.snap.map (fun z => if z.dirty.contains p then z else { z with dirty := z.dirty ++ [p] }) }
/-- The copy of a pre-image at a first write (R396) of page `p` in the interval of `f`, with the full pool of R400: the
older checkpoint goes, then the newest, and the write lands without a copy. The number counts checkpoints abandoned. -/
def Lane.copyPage (L : Lane) (f p : Nat) : Lane × Nat :=
  if L.pages.contains (f, p) then (L, 0)
  else
  let L := L.wrote p
  if L.ckpts.isEmpty then (L, 0)
  else if L.poolUsed < L.ckptPages then ({ L with pages := L.pages ++ [(f, p)] }, 0)
  else
    let keep := L.ckpts.drop (L.ckpts.length - 1)
    let A := ({ L with ckpts := keep }).trimPages
    if A.poolUsed < A.ckptPages then ({ A with pages := A.pages ++ [(f, p)] }, 0)
    else ({ A with ckpts := [], pages := [], lostCkpts := satBits 32 (A.lostCkpts + 1) }, 1)

/-- The copies of R396 for a write of `n` bytes at `a`. -/
def Lane.copyOnWrite (L : Lane) (s a n : Nat) : Lane × Nat :=
  (pagesOf a n).foldl (fun r p => let q := r.1.copyPage (r.1.intervalOf s) p; (q.1, r.2 + q.2)) (L, 0)

/-- F of the newest checkpoint, if one is kept. -/
def Lane.lastCkpt (L : Lane) : Option Checkpoint := L.ckpts.getLast?
/-- Whether every active thread is captured at VT `f`. -/
def Lane.allCaptured (L : Lane) (f : Nat) : Bool := L.threads.all (fun x => !x.active || decide (f ≤ x.capVt))
/-- Whether every write stamped below `f` has landed (R396): every active thread is captured at `f`, no gate entry, tick
or blitter operation below `f` is left, nor a START on its way to one. -/
def Lane.landedBelow (L : Lane) (f : Nat) : Bool :=
  L.allCaptured f && !L.log.any (fun e => e.gated && decide (e.stamp < f)) && L.ticked f && L.bltPast f
/-- Whether a write of `n` bytes at `a`, stamped `s`, has to wait for the capture at the boundary of its interval (R394, R396, R398): for the
copy of a pre-image there, in normal mode for the memory of the newest checkpoint (DEDUCED from R394: what a captured thread, the
blitter or the echo writes while another thread is held for its capture is no part of it), or for the copy of its page of near SRAM. -/
def Lane.ckptHold (L : Lane) (s a n : Nat) : Bool :=
  let f := L.tm.boundary s
  match windowOf a with
  | .near => decide (L.nearAt ≤ f) || (decide (L.nearAt = f + 1) && decide (L.near ≤ a / 4096))
  | .work | .video =>
    if L.det then !(L.ckpts.isEmpty && decide (f ≤ L.bvt)) && !L.landedBelow f && (pagesOf a n).any (fun p => !L.pages.contains (f, p))
    else L.ckpts.any (fun c => c.mem.isNone && decide (c.vt ≤ s))
  | .title | .regs | .outside => false

/-- The milestone interval of a store in the video gate (R179). -/
def Lane.gateKey (L : Lane) (e : LogStore) : Nat × Nat := (L.tm.milIndex e.stamp, e.addr / 64)
/-- Whether the video gate takes a store (R179): it merges, or one of the 512 entries is free. -/
def Lane.gateTakes (L : Lane) (e : LogStore) : Bool := L.gate.contains (L.gateKey e) || decide (L.gate.length < 512)
/-- A store in the video gate: it merges with the entry of its line and interval, or takes an entry of its own (R179). -/
def Lane.gated (L : Lane) (e : LogStore) : Lane :=
  { L with log := insertStore { e with gated := true } L.log
           gate := if L.gate.contains (L.gateKey e) then L.gate else L.gate ++ [L.gateKey e] }

/-- A store that reaches the lane's memory: the video gate, the log in deterministic mode, memory at once in normal mode; with its copies,
its opacity marks, and the count of checkpoints abandoned. -/
def Lane.land (L : Lane) (e : LogStore) : Lane × Nat :=
  if e.gated then (L.gated e, 0)
  else
    let c := L.copyOnWrite e.stamp e.addr e.data.length
    let A := c.1.markOpaque e.addr e.data.length
    (if A.det then { A with log := insertStore e A.log } else { A with mem := A.mem.writeBytes e.addr e.data }, c.2)

end Sys2Proof.Machine
end

