-- ==== Sys2Proof/Machine/Operands.lean ====
section
/-! DEFINITION. The integer results of the Nongagon groups (R112 to R117, R119, R122) as functions of operand values. -/
namespace Sys2Proof.Machine

/-- The low 32 bits of a word. -/
def lo32 (x : Word) : Nat := x.toNat % 2 ^ 32
/-- sext of a 32-bit result (R111). -/
def sext32 (n : Nat) : Word := sextN 32 n
/-- 1 or 0 (R112). -/
def ofBool (b : Bool) : Word := if b then 1 else 0

/-- Leading zero bits of a 64-bit value, 0 to 64 (R112). -/
def clz64 (x : Word) : Nat := if x.toNat = 0 then 64 else 63 - x.toNat.log2
/-- Trailing zero bits among bits `i` and above, for `n` bits. -/
def ctzFrom (x : Word) : Nat → Nat → Nat
  | 0, _ => 0
  | n + 1, i => if bit x i then 0 else 1 + ctzFrom x n (i + 1)
/-- One bits among the low `n` bits. -/
def popCount (x : Word) : Nat → Nat
  | 0 => 0
  | n + 1 => (bit x n).toNat + popCount x n
/-- The bytes of a value in reverse order (R112). -/
def bswap64 (x : Word) : Word := w64 (leNat (leBytes 8 x.toNat).reverse)

/-- The ALU group (R112); `c` is g[rc], read by SEL alone. -/
def aluResult (fn : AluFn) (a b c : Word) : Word :=
  let sh := b.toNat % 64
  let sh5 := b.toNat % 32
  match fn with
  | .add => a + b
  | .sub => a - b
  | .and => a &&& b
  | .or => a ||| b
  | .xor => a ^^^ b
  | .andn => a &&& ~~~ b
  | .sll => a <<< sh
  | .srl => a >>> sh
  | .sra => a.sshiftRight sh
  | .ror => a.rotateRight sh
  | .slt => ofBool (a.slt b)
  | .sltu => ofBool (a.ult b)
  | .min => if a.slt b then a else b
  | .max => if a.slt b then b else a
  | .minu => if a.ult b then a else b
  | .maxu => if a.ult b then b else a
  | .addw => sext32 (lo32 a + lo32 b)
  | .subw => sext32 (lo32 (a - b))
  | .sllw => sext32 (lo32 a <<< sh5)
  | .srlw => sext32 (lo32 a >>> sh5)
  | .sraw => w64 ((sext32 (lo32 a)).sshiftRight sh5).toNat
  | .sel => if c = 0 then b else a
  | .clz => w64 (clz64 a)
  | .ctz => w64 (ctzFrom a 64 0)
  | .popc => w64 (popCount a 64)
  | .bswap => bswap64 a
  | .sextb => sextN 8 a.toNat
  | .sexth => sextN 16 a.toNat
  | .sextw => sextN 32 a.toNat
  | .zextw => w64 (lo32 a)

/-- The immediate instructions (R113). -/
def immResult (fn : ImmFn) (a : Word) (i : BitVec 16) : Word :=
  let s := sextN 16 i.toNat
  let z := w64 i.toNat
  match fn with
  | .addi => a + s
  | .andi => a &&& z
  | .ori => a ||| z
  | .xori => a ^^^ z
  | .slti => ofBool (a.slt s)
  | .sltiu => ofBool (a.ult s)
  | .shifti =>
    let k := i.toNat % 64
    match i.toNat / 64 % 4 with
    | 0 => a <<< k
    | 1 => a >>> k
    | 2 => a.sshiftRight k
    | _ => a.rotateRight k
  | .shi => (a <<< 16) ||| z

/-- The low and high halves of a 128-bit product. -/
def product (a b : Int) : Word × Word :=
  let p := (a * b) % ((2 ^ 128 : Nat) : Int)
  (BitVec.ofInt 64 p, BitVec.ofInt 64 (p / ((2 ^ 64 : Nat) : Int)))

/-- The MUL group (R114): the result for rd, and the one for rc where the form writes rc. `c` is g[rc] before the
instruction. -/
def mulResult (fn : MulFn) (a b c : Word) : Word × Option Word :=
  match fn with
  | .mul => (a * b, none)
  | .mulw => (sext32 (lo32 (a * b)), none)
  | .mulxss => let p := product a.toInt b.toInt; (p.1, some p.2)
  | .mulxuu => let p := product a.toNat b.toNat; (p.1, some p.2)
  | .mulxsu => let p := product a.toInt b.toNat; (p.1, some p.2)
  | .mac => (c + a * b, none)

/-- Quotient and remainder of integers, truncated toward zero; a divisor of 0 gives 0 and the dividend (R115). -/
def divInt (a b : Int) : Int × Int := if b = 0 then (0, a) else (a.tdiv b, a.tmod b)

/-- The DIV group (R115): quotient for rd, remainder for rc. -/
def divResult (fn : DivFn) (a b : Word) : Word × Word :=
  match fn with
  | .divs => let q := divInt a.toInt b.toInt; (BitVec.ofInt 64 q.1, BitVec.ofInt 64 q.2)
  | .divu => let q := divInt a.toNat b.toNat; (BitVec.ofInt 64 q.1, BitVec.ofInt 64 q.2)
  | .divsw =>
    let q := divInt (signed 32 (lo32 a)) (signed 32 (lo32 b))
    (sext32 (unsigned 32 q.1), sext32 (unsigned 32 q.2))
  | .divuw =>
    let q := divInt (lo32 a) (lo32 b)
    (sext32 (unsigned 32 q.1), sext32 (unsigned 32 q.2))

/-- The condition of a compare-and-branch (R116). -/
def brTaken (fn : BrFn) (a b : Word) : Bool :=
  match fn with
  | .beq => a == b
  | .bne => a != b
  | .blt => a.slt b
  | .bge => !a.slt b
  | .bltu => a.ult b
  | .bgeu => !a.ult b

/-- The target of a branch: PC + sext(off16) × 4 (R116). -/
def brTarget (pc : Word) (off : BitVec 16) : Word := pc + (sextN 16 off.toNat <<< 2)
/-- The target of J and JAL: PC + sext(off26) × 4 (R117). -/
def jTarget (pc : Word) (off : BitVec 26) : Word := pc + (sextN 26 off.toNat <<< 2)
/-- The effective address of a memory instruction (R119). -/
def effAddr (base : Word) (off : BitVec 16) : Word := base + sextN 16 off.toNat

/-- Bytes of a load (R120). -/
def loadWidth : LoadFn → Nat
  | .lb | .lbu => 1
  | .lh | .lhu => 2
  | .lw | .lwu | .flw => 4
  | .ld | .fld => 8
/-- Bytes of a store (R120). -/
def storeWidth : StoreFn → Nat
  | .sb => 1
  | .sh => 2
  | .sw | .fsw => 4
  | .sd | .fsd => 8
/-- Whether a load writes an f register (R120). -/
def loadIsF : LoadFn → Bool
  | .flw | .fld => true
  | .lb | .lbu | .lh | .lhu | .lw | .lwu | .ld => false
/-- Whether a store reads an f register (R120). -/
def storeIsF : StoreFn → Bool
  | .fsw | .fsd => true
  | .sb | .sh | .sw | .sd => false
/-- What a load writes for the bytes it read (R120). -/
def loadResult (fn : LoadFn) (v : Nat) : Word :=
  match fn with
  | .lb => sextN 8 v
  | .lbu => w64 (v % 2 ^ 8)
  | .lh => sextN 16 v
  | .lhu => w64 (v % 2 ^ 16)
  | .lw => sextN 32 v
  | .lwu | .flw => w64 (v % 2 ^ 32)
  | .ld | .fld => w64 v

/-- The new value of an AMO at its width of `n` bits (R122); `old`, `b`, `c` as numbers of that width. -/
def amoNew (fn : AmoFn) (n old b c : Nat) : Nat :=
  let lt := decide (signed n old < signed n b)
  match fn with
  | .swap => b
  | .add => (old + b) % 2 ^ n
  | .and => old &&& b
  | .or => old ||| b
  | .xor => old ^^^ b
  | .min => if lt then old else b
  | .max => if lt then b else old
  | .minu => min old b
  | .maxu => max old b
  | .cas => if old = b then c else old

end Sys2Proof.Machine
end

