-- ==== Sys2Proof/Machine/ThreadOps.lean ====
section
/-! DEFINITION. What an instruction does to its thread context: registers, system registers (R133), costs (R143), the
entry of an exception or interrupt (R137), and hazards (R76). -/
namespace Sys2Proof.Machine
open Sys2Proof

/-- What a context knows of its place: system level, deterministic mode, its index, CPUDIV, BVT, the length of the
title image, the VT of its instruction, and the 8 bytes that a vector read at an address returns (R137). -/
structure CoreEnv where
  sys : Bool
  det : Bool
  idx : Nat
  cpu : Nat
  bvt : Nat
  titleLen : Nat
  vector : Nat → Bytes

/-- g register `r`: g0 reads 0 (R104). -/
def Thread.gReg (t : Thread) (r : RegNo) : Word := if r = 0 then 0 else Sparse.get zeroWord t.g r.toNat
/-- A write of a g register: a write to g0 is discarded (R104). -/
def Thread.setG (t : Thread) (r : RegNo) (v : Word) : Thread :=
  if r = 0 then t else { t with g := Sparse.set zeroWord t.g r.toNat v }
def Thread.fReg (t : Thread) (r : RegNo) : Word := Sparse.get zeroWord t.f r.toNat
def Thread.setF (t : Thread) (r : RegNo) (v : Word) : Thread := { t with f := Sparse.set zeroWord t.f r.toNat v }
def Thread.setDest (t : Thread) (d : Dest) (v : Word) : Thread :=
  match d with
  | .g r => t.setG r v
  | .f r => t.setF r v

/-- THR_STATUS (R133). -/
def Thread.status (e : CoreEnv) (t : Thread) : Word :=
  w64 (t.ie.toNat + t.level * 2 ^ 4 + e.sys.toNat * 2 ^ 8 + e.det.toNat * 2 ^ 9 + t.frames.length * 2 ^ 16)

/-- The VT charged for `n` virtual cycles (R39); normal mode and system threads are not charged. -/
def Thread.charge (e : CoreEnv) (n : Nat) (t : Thread) : Thread := if e.det then { t with vt := t.vt + n * e.cpu } else t
/-- A normal-mode thread's VT is BVT when it issues (R61). -/
def Thread.stampNow (e : CoreEnv) (t : Thread) : Thread := if e.det then t else { t with vt := if e.sys then 0 else e.bvt }

/-- The prefetch queue without the words below the one that holds the pc (R79). -/
def Thread.prune (t : Thread) : Thread :=
  { t with prefetch := t.prefetch.filter (fun p => decide (t.pc.toNat / 8 * 8 ≤ p.1)) }
/-- The next instruction in sequence. -/
def Thread.next (t : Thread) : Thread := ({ t with pc := t.pc + 4 }).prune
/-- A transfer: the pc changes and the prefetch queue is flushed (R79). -/
def Thread.jump (t : Thread) (a : Word) : Thread := { t with pc := a, prefetch := [] }
/-- The cost of a transfer to `a` (R143, R144): `far` to work RAM or the title image, `near` elsewhere. -/
def jumpCost (a : Word) (far near : Nat) : Nat :=
  match windowOf a.toNat with
  | .work | .title => far
  | .near | .video | .regs | .outside => near

/-- Whether a vector may be read at an address (R139): near SRAM, work RAM or the title image; any address at system
level. -/
def vectorOk (e : CoreEnv) (a : Nat) : Bool :=
  e.sys || (match windowOf a with
    | .near | .work => true
    | .title => decide (a + 8 ≤ 0x40000000 + e.titleLen)
    | .video | .regs | .outside => false)

/-- The address of vector entry `n` (R137). -/
def Thread.vectorAddr (t : Thread) (n : Nat) : Nat := (t.vbase.toNat + 8 * n) % 2 ^ 64

/-- The pc that a vector entry names: bits [1:0] are ignored (R137). -/
def entryPc (b : Bytes) : Word := w64 (leNat b / 4 * 4)

/-- The frame that an entry pushes. DESIGN CHOICE: EPC keeps every bit of the pc, as R118 gives it for a fetch fault; that a game thread's
bits [63:40] read 0 (R133) holds of every pc that can be fetched from. -/
def Thread.frame (e : CoreEnv) (t : Thread) (cause badaddr : Word) : Frame :=
  { epc := t.pc, estatus := t.status e, cause := cause, badaddr := badaddr }

/-- A thread trap (R139): the thread ends and the context stops issuing. -/
def Thread.trap (t : Thread) : Thread := { t with active := false, waiting := false, trapped := true }

/-- Taking an exception or an interrupt (R137): entry `n` of the vector table, CAUSE and BADADDR, LEVEL for an
interrupt. A full frame stack or a vector outside its windows traps (R139), the
latter at the VT of its read (DEDUCED). IE is unchanged; the entry is charged 6
vc. -/
def Thread.enter (e : CoreEnv) (n : Nat) (cause badaddr : Word) (lvl : Option Nat) (t : Thread) : Thread :=
  let a := t.vectorAddr n
  if t.frames.length = 16 then t.trap
  else if vectorOk e a = false then (t.charge e 3).trap
  else (({ t with frames := t.frame e cause badaddr :: t.frames, level := lvl.getD t.level }).jump
      (entryPc (e.vector a))).charge e 6

/-- An entry or a return begun at VT `p` (R100, R137): the prefetch queue is flushed, and the context goes on `n` virtual cycles later at
the earliest. -/
def Thread.begin (cpu p n : Nat) (k : EntryKind) (t : Thread) : Thread :=
  { t with vt := p + n * cpu, prefetch := [], entering := some { point := p, cpu := cpu, kind := k } }
/-- The context as it stood where the entry began. -/
def Thread.atPoint (q : Entering) (t : Thread) : Thread := { t with vt := q.point, entering := none }

/-- The causes of R134. -/
inductive Cause
  | illegal (w : BitVec 32)
  | privileged (w : BitVec 32)
  | instrAlign (a : Word)
  | instrAccess (a : Word) (detail : Nat)
  | loadAlign (a : Word)
  | storeAlign (a : Word)
  | loadAccess (a : Word) (detail : Nat) (split2 : Bool)
  | storeAccess (a : Word) (detail : Nat) (split2 : Bool)
  | ecall (n : BitVec 12)
  | ebreak
  deriving DecidableEq, Repr

/-- CODE, DETAIL and SPLIT2 of THR_CAUSE (R133 to R135). -/
def Cause.word : Cause → Word
  | .illegal _ => 1
  | .privileged _ => 2
  | .instrAlign _ => 3
  | .instrAccess _ d => w64 (4 + d * 2 ^ 8)
  | .loadAlign _ => 5
  | .storeAlign _ => 6
  | .loadAccess _ d s => w64 (7 + d * 2 ^ 8 + s.toNat * 2 ^ 12)
  | .storeAccess _ d s => w64 (8 + d * 2 ^ 8 + s.toNat * 2 ^ 12)
  | .ecall _ => 9
  | .ebreak => 10
/-- THR_BADADDR of a cause (R133). -/
def Cause.bad : Cause → Word
  | .illegal w | .privileged w => w64 w.toNat
  | .instrAlign a | .instrAccess a _ | .loadAlign a | .storeAlign a | .loadAccess a _ _ | .storeAccess a _ _ => a
  | .ecall n => w64 n.toNat
  | .ebreak => 0

/-- An exception: the frame's EPC is the instruction's address (R102, R142). -/
def Thread.raise (e : CoreEnv) (c : Cause) (t : Thread) : Thread := (t.stampNow e).enter e 0 c.word c.bad none
/-- CAUSE of an interrupt by source `n` of priority `p` (R133). -/
def interruptCause (n p : Nat) : Word := w64 (0x10 + n * 2 ^ 16 + p * 2 ^ 24 + 2 ^ 63)

/-- The top frame's field, 0 while the stack is empty (R133). -/
def Thread.top (t : Thread) (f : Frame → Word) : Word := match t.frames with | [] => 0 | x :: _ => f x

/-- The numbers below 0x800 of the system registers (R133). -/
def sysRegs : List Nat := [0, 1, 2, 3, 4, 5, 6, 8, 0x10, 0x20, 0x21, 0x22, 0x23]

/-- A system register as MFS reads it (R133). -/
def Thread.readSys (e : CoreEnv) (t : Thread) (n : Nat) : Word :=
  match n with
  | 0 => t.status e
  | 1 => t.top (·.estatus)
  | 2 => t.top (·.epc)
  | 3 => t.top (·.cause)
  | 4 => t.top (·.badaddr)
  | 5 => t.vbase
  | 6 => w64 (e.idx % 4 + e.det.toNat * 4 + e.sys.toNat * 8)
  | 8 => t.fcsr
  | 0x10 => w64 (if e.sys then 0 else if e.det then t.vt else e.bvt)
  | 0x20 | 0x21 | 0x22 | 0x23 => Sparse.get zeroWord t.scratch (n - 0x20)
  | _ => 0

/-- The writable bits of an address register: [39:low], and [63:40] at system level (R133). -/
def addrMask (sys : Bool) (low : Nat) : Word := mask low ((if sys then 64 else 40) - low)
/-- The top frame replaced. -/
def Thread.mapTop (t : Thread) (f : Frame → Frame) : Thread :=
  match t.frames with
  | [] => t
  | x :: r => { t with frames := f x :: r }

/-- A system register as MTS writes it (R130, R133): fields that are not writable keep their values. -/
def Thread.writeSys (e : CoreEnv) (t : Thread) (n : Nat) (v : Word) : Thread :=
  let into (m old : Word) : Word := (old &&& ~~~ m) ||| (v &&& m)
  match n with
  | 0 => { t with ie := bit v 0 }
  | 1 => t.mapTop (fun x => { x with estatus := into 1 x.estatus })
  | 2 => t.mapTop (fun x => { x with epc := into (addrMask e.sys 2) x.epc })
  | 5 => { t with vbase := into (addrMask e.sys 10) t.vbase }
  | 8 => { t with fcsr := into fcsrWritable t.fcsr }
  | 0x20 | 0x21 | 0x22 | 0x23 => { t with scratch := Sparse.set zeroWord t.scratch (n - 0x20) v }
  | _ => t

/-- A register of either file. -/
def Dest.live : Dest → Bool
  | .g r => decide (r ≠ 0)
  | .f _ => true

/-- The registers that an instruction reads or writes (R76). -/
def NInstr.regs : NInstr → List Dest
  | .alu _ rd ra rb rc => [.g rd, .g ra, .g rb, .g rc]
  | .imm _ rd ra _ => [.g rd, .g ra]
  | .mul fn rd ra rb rc => match fn with
    | .mul | .mulw => [.g rd, .g ra, .g rb]
    | .mulxss | .mulxuu | .mulxsu | .mac => [.g rd, .g ra, .g rb, .g rc]
  | .div _ rd ra rb rc => [.g rd, .g ra, .g rb, .g rc]
  | .fp _ fn rd ra rb _ => [if fpWritesG fn then .g rd else .f rd, if fpReadsG fn then .g ra else .f ra] ++
      (if fpReadsFb fn then [.f rb] else [])
  | .fma _ _ _ rd ra rb rc => [.f rd, .f ra, .f rb, .f rc]
  | .br _ ra rb _ => [.g ra, .g rb]
  | .j _ => []
  | .jal _ => [.g 31]
  | .jalr rd ra _ => [.g rd, .g ra]
  | .load fn rt base _ => [if loadIsF fn then .f rt else .g rt, .g base]
  | .store fn rt base _ => [if storeIsF fn then .f rt else .g rt, .g base]
  | .amo _ _ rd ra rb rc => [.g rd, .g ra, .g rb, .g rc]
  | .mfs rd _ => [.g rd]
  | .mts ra _ => [.g ra]
  | .ecall _ | .ebreak | .eret | .wait | .mbar | .isync | .sysx _ => []

/-- The registers that await a load or a unit (R76). -/
def Thread.awaited (t : Thread) : List Dest :=
  (t.loads.map (·.dest) ++ t.units.flatMap (fun u => u.writes.map (·.1))).filter Dest.live

/-- Whether the store buffer has an entry free for a store, and fewer than 4 loads are outstanding for a load (R76, R88, R90). -/
def Thread.roomFor (t : Thread) : NInstr → Bool
  | .store _ _ _ _ => decide (t.sb.length < 8)
  | .load _ _ _ _ => decide (t.loads.length < 4)
  | _ => true
/-- Whether a context can issue an instruction as far as the context itself goes (R76): it is active and neither waits
nor has trapped, the word at its pc is in its prefetch queue and is that instruction, no register of it is awaited, and its store
buffer or its loads have room. -/
def Thread.ready (t : Thread) (i : NInstr) : Bool :=
  t.active && !t.waiting && !t.trapped &&
    (match t.word with | some w => decide (ndecode w = some i) | none => false) &&
    !i.regs.any (fun r => t.awaited.contains r) && t.roomFor i

/-- The thread at its take point: a divide in progress is abandoned, and its PC returns to the divide (R86). -/
def Thread.abandon (t : Thread) (p : Nat) : Thread :=
  match t.divide with
  | some (_, pc, _) => { t with vt := p, pc := pc, units := t.units.filter (fun u => u.div.isNone) }
  | none => { t with vt := p }

/-- A divide of the context is in progress (R86). -/
def Thread.dividing (t : Thread) : Bool := t.units.any (fun u => u.div.isSome)

/-- The accesses of a system thread's unaligned load or store: the bytes below the first aligned boundary, then the
rest (R96). -/
def splitAt (a n : Nat) : List (Nat × Nat) :=
  if a % n = 0 then [(a, n)] else let k := n - a % n; [(a, k), (a + k, n - k)]

end Sys2Proof.Machine
end

