-- ==== Sys2Proof/Machine/Crypto.lean ====
section
/-! DEFINITION. The standards the manual names: SHA-384 (R391, R407, R517), AES-GCM with keys of 16 and 32 bytes (R317)
and ECDSA over P-384 (R517). -/
namespace Sys2Proof.Machine

/-- The greatest r with r^k ≤ n, from bit `b` down. -/
def rootSearch (k n : Nat) : Nat → Nat → Nat
  | 0, r => r
  | b + 1, r => rootSearch k n b (if (r + 2 ^ b) ^ k ≤ n then r + 2 ^ b else r)
/-- The first primes, by trial division. -/
def primesUpTo (n : Nat) : List Nat :=
  (List.range (n + 1)).filter (fun p => decide (2 ≤ p) && (List.range p).all (fun d => decide (d < 2) || decide (p % d ≠ 0)))
/-- The 64 bits after the binary point of the k-th root of `p`. -/
def rootFrac (k p : Nat) : Nat := rootSearch k (p * 2 ^ (64 * k)) 70 0 % 2 ^ 64
/-- The round constants: cube roots of the first 80 primes. -/
def shaK : List Nat := (primesUpTo 409).map (rootFrac 3)
/-- The initial value: square roots of the 9th to 16th primes. -/
def shaInit : List Nat := ((primesUpTo 53).drop 8).map (rootFrac 2)

def m64 (n : Nat) : Nat := n % 2 ^ 64
def rotr64 (x n : Nat) : Nat := (x >>> n) ||| m64 (x <<< (64 - n))
/-- The message schedule, newest word first. -/
def shaExtend : Nat → List Nat → List Nat
  | 0, w => w
  | n + 1, w =>
    let a := w.getD 1 0
    let b := w.getD 14 0
    let s1 := (rotr64 a 19 ^^^ rotr64 a 61) ^^^ (a >>> 6)
    let s0 := (rotr64 b 1 ^^^ rotr64 b 8) ^^^ (b >>> 7)
    shaExtend n (m64 (s1 + w.getD 6 0 + s0 + w.getD 15 0) :: w)
/-- One round on the eight working words. -/
def shaRound (s : List Nat) (kw : Nat × Nat) : List Nat :=
  match s with
  | [a, b, c, d, e, f, g, h] =>
    let t1 := h + ((rotr64 e 14 ^^^ rotr64 e 18) ^^^ rotr64 e 41) + ((e &&& f) ^^^ ((2 ^ 64 - 1 - e) &&& g)) + kw.1 + kw.2
    let t2 := ((rotr64 a 28 ^^^ rotr64 a 34) ^^^ rotr64 a 39) + (((a &&& b) ^^^ (a &&& c)) ^^^ (b &&& c))
    [m64 (t1 + t2), a, b, c, m64 (d + t1), e, f, g]
  | s => s
def shaBlock (s : List Nat) (b : Bytes) : List Nat :=
  let w := ((List.range 16).map (fun i => beAt b (8 * i) 8)).reverse
  let r := ((shaK.zip (shaExtend 64 w).reverse)).foldl shaRound s
  s.zipWith (fun x y => m64 (x + y)) r
def shaBlocks : Nat → List Nat → Bytes → List Nat
  | 0, s, _ => s
  | n + 1, s, b => shaBlocks n (shaBlock s (b.take 128)) (b.drop 128)
/-- SHA-384 of a byte string. -/
def sha384 (b : Bytes) : Bytes :=
  let z := (111 + 128 - b.length % 128) % 128
  let p := b ++ 0x80 :: List.replicate z 0 ++ beBytes 16 (8 * b.length)
  ((shaBlocks (p.length / 128) shaInit p).take 6).flatMap (beBytes 8)

/-- Multiplication in the field of AES. -/
def gfMulAes : Nat → Nat → Nat → Nat
  | 0, _, _ => 0
  | n + 1, a, b =>
    (if b % 2 = 1 then a else 0) ^^^ gfMulAes n (if a < 128 then 2 * a else (2 * a) ^^^ 0x11B) (b / 2)
/-- The inverse in that field, a^254. -/
def gfInv (a : Nat) : Nat :=
  let m := gfMulAes 8
  let a2 := m a a
  let a4 := m a2 a2
  let a8 := m a4 a4
  let a16 := m a8 a8
  let a32 := m a16 a16
  let a64 := m a32 a32
  let a128 := m a64 a64
  m (m (m a128 a64) (m a32 a16)) (m (m a8 a4) a2)
/-- The S-box of AES. -/
def sboxOf (a : Nat) : Nat :=
  let x := gfInv a
  let r (n : Nat) : Nat := ((x <<< n) ||| (x >>> (8 - n))) % 256
  (((x ^^^ r 1) ^^^ r 2) ^^^ (r 3 ^^^ r 4)) ^^^ 0x63
/-- The S-box as one number, the value of byte `a` at bits 8 a to 8 a + 7. -/
def sboxTable : Nat := 0x16BB54B00F2D99416842E6BF0D89A18CDF2855CEE9871E9B948ED9691198F8E19E1DC186B95735610EF6034866B53E708A8BBD4B1F74DDE8C6B4A61C2E2578BA08AE7A65EAF4566CA94ED58D6D37C8E779E4959162ACD3C25C2406490A3A32E0DB0B5EDE14B8EE4688902A22DC4F816073195D643D7EA7C41744975FEC130CCDD2F3FF1021DAB6BCF5389D928F40A351A89F3C507F02F94585334D43FBAAEFD0CF584C4A39BECB6A5BB1FC20ED00D153842FE329B3D63B52A05A6E1B1A2C830975B227EBE28012079A059618C323C7041531D871F1E5A534CCF73F362693FDB7C072A49CAFA2D4ADF04759FA7DC982CA76ABD7FE2B670130C56F6BF27B777C63
def sbox (a : Nat) : Nat := (sboxTable >>> (8 * a)) % 256
/-- The key schedule: words of 4 bytes, newest first. -/
def aesExpand (nk : Nat) : Nat → Nat → Nat → List (List Nat) → List (List Nat)
  | 0, _, _, w => w
  | n + 1, i, rc, w =>
    let prev := w.getD 0 []
    let back := w.getD (nk - 1) []
    let t := if i % nk = 0 then
        ((prev.drop 1 ++ prev.take 1).map sbox).zipWith (· ^^^ ·) [rc, 0, 0, 0]
      else if nk = 8 ∧ i % 8 = 4 then prev.map sbox else prev
    aesExpand nk n (i + 1) (if i % nk = 0 then gfMulAes 8 rc 2 else rc) (back.zipWith (· ^^^ ·) t :: w)
def shiftRows (s : List Nat) : List Nat := (List.range 16).map (fun i => s.getD ((i + 4 * (i % 4)) % 16) 0)
def mixColumn (c : List Nat) : List Nat :=
  (List.range 4).map (fun i => (gfMulAes 2 (c.getD i 0) 2 ^^^ gfMulAes 2 (c.getD ((i + 1) % 4) 0) 3) ^^^
    (c.getD ((i + 2) % 4) 0 ^^^ c.getD ((i + 3) % 4) 0))
def aesRounds : Nat → List (List Nat) → List Nat → List Nat
  | 0, _, s => s
  | n + 1, ks, s =>
    let t := shiftRows (s.map sbox)
    let u := if n = 0 then t else (List.range 4).flatMap (fun c => mixColumn ((t.drop (4 * c)).take 4))
    aesRounds n (ks.drop 4) (u.zipWith (· ^^^ ·) (ks.take 4).flatten)
/-- AES of one block of 16 bytes, with a key of 16 or 32 bytes. -/
def aes (key : List Nat) (block : List Nat) : List Nat :=
  let nk := key.length / 4
  let nr := nk + 6
  let w0 := ((List.range nk).map (fun i => (key.drop (4 * i)).take 4)).reverse
  let ks := (aesExpand nk (4 * (nr + 1) - nk) nk 1 w0).reverse
  aesRounds nr (ks.drop 4) (block.zipWith (· ^^^ ·) (ks.take 4).flatten)

/-- Multiplication in the field of GCM, most significant bit first. -/
def gcmMul (y : Nat) : Nat → Nat → Nat → Nat
  | 0, _, z => z
  | n + 1, v, z =>
    gcmMul y n (if v % 2 = 1 then (v / 2) ^^^ (0xE1 <<< 120) else v / 2) (if y.testBit n then z ^^^ v else z)
def ghash (h : Nat) (b : Bytes) : Nat → Nat → Nat
  | 0, y => y
  | n + 1, y =>
    let x := beNat (b.take 16)
    ghash h (b.drop 16) n (gcmMul (y ^^^ x) 128 h 0)
def padTo16 (b : Bytes) : Bytes := b ++ List.replicate ((16 - b.length % 16) % 16) 0
def natBytes (b : Bytes) : List Nat := b.map (·.toNat)
/-- The key stream of `n` blocks from counter `c`. -/
def gcmStream (key : List Nat) (nonce : Bytes) : Nat → Nat → Bytes
  | 0, _ => []
  | n + 1, c => (aes key (natBytes (nonce ++ beBytes 4 c))).map (BitVec.ofNat 8) ++ gcmStream key nonce n (c + 1)
def xorBytes (a b : Bytes) : Bytes := a.zipWith (· ^^^ ·) b
def gcmTag (key : List Nat) (nonce aad ct : Bytes) : Bytes :=
  let h := beNat ((aes key (List.replicate 16 0)).map (BitVec.ofNat 8))
  let b := padTo16 aad ++ padTo16 ct ++ beBytes 8 (8 * aad.length) ++ beBytes 8 (8 * ct.length)
  xorBytes (beBytes 16 (ghash h b (b.length / 16) 0)) (gcmStream key nonce 1 1)
/-- AES-GCM encryption: ciphertext and 16-byte tag (R317). -/
def gcmSeal (key nonce aad plain : Bytes) : Bytes :=
  let k := natBytes key
  let ct := xorBytes plain (gcmStream k nonce (ceilDiv plain.length 16) 2)
  ct ++ gcmTag k nonce aad ct
/-- AES-GCM decryption of a ciphertext with its tag: none where the tag fails. -/
def gcmOpen (key nonce aad sealed : Bytes) : Option Bytes :=
  let k := natBytes key
  let ct := sealed.take (sealed.length - 16)
  if gcmTag k nonce aad ct = sealed.drop (sealed.length - 16) then
    some (xorBytes ct (gcmStream k nonce (ceilDiv ct.length 16) 2))
  else none

/-- P-384: the prime, the order, the coefficient b and the base point. -/
def p384p : Nat := 2 ^ 384 - 2 ^ 128 - 2 ^ 96 + 2 ^ 32 - 1
def p384n : Nat := 0xFFFFFFFFFFFFFFFFFFFFFFFFFFFFFFFFFFFFFFFFFFFFFFFFC7634D81F4372DDF581A0DB248B0A77AECEC196ACCC52973
def p384b : Nat := 0xB3312FA7E23EE7E4988E056BE3F82D19181D9C6EFE8141120314088F5013875AC656398D8A2ED19D2A85C8EDD3EC2AEF
def p384g : Nat × Nat :=
  (0xAA87CA22BE8B05378EB1C71EF320AD746E1D3B628BA79B9859F741E082542A385502F25DBF55296C3A545E3872760AB7,
   0x3617DE4A96262C6F5D9E98BF9292DC29F8F41DBD289A147CE9DA3113B5F0B8C00A60B1CE1D7E819D7A431D7C90EA0E5F)
/-- a^e mod n over the low `k` bits of e. -/
def powMod (n e : Nat) : Nat → Nat → Nat → Nat
  | 0, _, r => r
  | k + 1, a, r => powMod n (e / 2) k (a * a % n) (if e % 2 = 1 then r * a % n else r)
/-- The inverse modulo a prime. -/
def invMod (n a : Nat) : Nat := powMod n (n - 2) 384 (a % n) 1
/-- The sum of two points of the curve; none is the point at infinity. -/
def ecAdd : Option (Nat × Nat) → Option (Nat × Nat) → Option (Nat × Nat)
  | none, q => q
  | p, none => p
  | some (x1, y1), some (x2, y2) =>
    let p := p384p
    if x1 = x2 ∧ (y1 + y2) % p = 0 then none
    else
      let l := if x1 = x2 then (3 * x1 * x1 + p - 3) * invMod p (2 * y1) % p
        else (y2 + p - y1) * invMod p (x2 + p - x1) % p
      let x := (l * l + 2 * p - x1 - x2) % p
      some (x, (l * (x1 + p - x) + p - y1) % p)
/-- k times a point, over the low bits of k. -/
def ecMul (k : Nat) : Nat → Option (Nat × Nat) → Option (Nat × Nat) → Option (Nat × Nat)
  | 0, _, r => r
  | n + 1, q, r => ecMul (k / 2) n (ecAdd q q) (if k % 2 = 1 then ecAdd r q else r)
/-- Whether a pair of coordinates is a point of the curve. -/
def onCurve (q : Nat × Nat) : Bool :=
  decide (q.1 < p384p) && decide (q.2 < p384p) &&
    decide (q.2 * q.2 % p384p = (q.1 * q.1 * q.1 + (p384p - 3) * q.1 + p384b) % p384p)
/-- ECDSA verification of (r, s) on a 48-byte hash. -/
def ecdsaOk (q : Nat × Nat) (hash : Bytes) (r s : Nat) : Bool :=
  decide (0 < r) && decide (r < p384n) && decide (0 < s) && decide (s < p384n) && onCurve q &&
    (let w := invMod p384n s
     let u := beNat hash * w % p384n
     let v := r * w % p384n
     match ecAdd (ecMul u 384 (some p384g) none) (ecMul v 384 (some q) none) with
     | some (x, _) => decide (x % p384n = r)
     | none => false)

end Sys2Proof.Machine
end

