-- ==== Sys2Proof/Machine/Wire.lean ====
section
/-! DEFINITION. Runnel datagrams on the wire: header, nonce, sealing and opening, replay (R313 to R323). -/
namespace Sys2Proof.Machine
open Sys2Proof

/-- The 24 header bytes (R315). -/
def runnelHeader (type flags flow seq frame slice len epoch : Nat) : Bytes :=
  leBytes 1 1 ++ leBytes 1 type ++ leBytes 2 flags ++ leBytes 4 flow ++ leBytes 4 seq ++ leBytes 4 frame ++
    leBytes 2 slice ++ leBytes 2 len ++ leBytes 1 epoch ++ [0, 0, 0]
/-- The nonce (R317); direction 0 device to client, 1 client to device. -/
def runnelNonce (flow seq dir epoch : Nat) : Bytes :=
  leBytes 4 flow ++ leBytes 4 seq ++ leBytes 1 dir ++ leBytes 1 epoch ++ [0, 0]
/-- The key bytes in use for a cipher (R437). -/
def keyOf (cipher : Nat) (key : Bytes) : Bytes := if cipher = 0 then key.take 16 else key.take 32

/-- A datagram of a flow under its present key: the UDP payload, and the flow with its SEQ advanced (R313, R317). -/
def Flow.seal (f : Flow) (type flags frame slice : Nat) (payload : Bytes) : Flow × Bytes :=
  let h := runnelHeader type flags f.id f.seq frame slice payload.length f.epoch
  ({ f with seq := f.seq + 1 },
   h ++ gcmSeal (keyOf f.cipher f.key) (runnelNonce f.id f.seq 0 f.epoch) h payload)

/-- Whether frame `a` comes before frame `b` in serial order (R323). -/
def serialBefore (a b : Nat) : Bool := decide (a ≠ b) && decide ((b + 2 ^ 32 - a) % 2 ^ 32 < 2 ^ 31)

/-- The sum of the 16-bit words of some bytes, the last one padded with 0. -/
def wordSum : Bytes → Nat
  | [] => 0
  | [a] => 256 * a.toNat
  | a :: b :: t => 256 * a.toNat + b.toNat + wordSum t
/-- The UDP checksum of a datagram (R358; RFC 768, RFC 8200), always sent: 0 goes as 0xFFFF. -/
def udpChecksum (src dst : Bytes) (sport dport : Nat) (udp : Bytes) : Nat :=
  let n := 8 + udp.length
  65535 - (wordSum src + wordSum dst + 17 + n + sport + dport + n + wordSum udp) % 65535
/-- The VLAN tag of a flow: VID and PCP, where its bit 15 says so (R358, R437). -/
def Flow.tag (f : Flow) : Option Nat := if f.vlan.testBit 15 then some (f.vlan % 4096 + f.vlan / 4096 % 8 * 2 ^ 13) else none
/-- A datagram of a flow for the address `peer`; what the sub-port adds is filled in as it is sent. -/
def Flow.frame (f : Flow) (peer : Bytes × Nat) (udp : Bytes) : TxFrame :=
  { sub := f.sub, smac := [], dmac := f.dmac, tag := f.tag, family := f.family, src := leBytes 1 f.srcIdx, dst := peer.1, dscp := f.dscp, ecn := 0,
    ttl := f.ttl, df := decide (f.family ≠ 6), sport := Config.devicePort % 65536, dport := peer.2, cksum := 0, udp := udp }
/-- The frame with the source address SRCIDX of sub-port `own`, its checksum, and the MAC address of sub-port `mac` that sends it. -/
def TxFrame.sentFrom (f : TxFrame) (own mac : SubPort) : TxFrame :=
  let src := (if f.family = 6 then own.ip6 else own.ip4).getD (leAt f.src 0 1) []
  { f with smac := mac.mac, src := src, cksum := udpChecksum src f.dst f.sport f.dport f.udp }

/-- A received datagram's header fields. -/
structure RxHead where
  ver : Nat
  type : Nat
  flow : Nat
  seq : Nat
  frame : Nat
  len : Nat
  epoch : Nat
  deriving DecidableEq, Repr
def rxHead (u : Bytes) : RxHead :=
  { ver := leAt u 0 1, type := leAt u 1 1, flow := leAt u 4 4, seq := leAt u 8 4, frame := leAt u 12 4,
    len := leAt u 18 2, epoch := leAt u 20 1 }

/-- Whether the replay rule accepts a SEQ (R320). -/
def Replay.ok (r : Replay) (seq : Nat) : Bool :=
  match r.h with
  | none => true
  | some h => decide (h < seq) || (decide (h ≤ seq + 63) && !r.seen.contains seq)
/-- The record after a SEQ has been accepted. -/
def Replay.accept (r : Replay) (seq : Nat) : Replay :=
  let h := match r.h with | none => seq | some h => max h seq
  { h := some h, seen := (seq :: r.seen).filter (fun x => decide (h ≤ x + 63)) }

/-- The key, with its replay record, under which a datagram of EPOCH `e` is opened at device time `tm`: the present
one, or the previous one for 1 s after a rekey (R318). -/
def Flow.keyFor (f : Flow) (e tm : Nat) : Option (Bytes × Replay) :=
  if e = f.epoch then some (f.key, f.rx)
  else match f.prev with
    | some (k, pe, r, until_) => if e = pe ∧ tm ≤ until_ then some (k, r) else none
    | none => none
/-- The flow once a datagram of EPOCH `e` with SEQ `seq` has been accepted. -/
def Flow.accept (f : Flow) (e seq : Nat) : Flow :=
  if e = f.epoch then { f with rx := f.rx.accept seq }
  else match f.prev with
    | some (k, pe, r, until_) => { f with prev := some (k, pe, r.accept seq, until_) }
    | none => f

/-- A rekey (R318). -/
def Flow.rekey (f : Flow) (key : Bytes) (tm : Nat) : Flow :=
  { f with prev := some (f.key, f.epoch, f.rx, tm + 1000000000), key := key, epoch := (f.epoch + 1) % 256, seq := 0,
           rx := .fresh }

/-- Whether a client or orchestrator message has the length that its type's layout gives (R316); `bx` is BX of the
viewer's lane. -/
def payloadOk (type bx : Nat) (p : Bytes) : Bool :=
  let n := p.length
  match type with
  | 0x81 =>
    let nb := ceilDiv bx 8
    let nrec := leAt p 12 1
    decide (1 ≤ nrec ∧ nrec ≤ 64 ∧ n = 16 + nrec * (8 + 2 * nb)) &&
      (List.range nrec).all (fun i => decide (leAt p (16 + i * (8 + 2 * nb) + 5) 1 = nb))
  | 0x82 => decide (1 ≤ leAt p 0 1 ∧ leAt p 0 1 ≤ 8 ∧ n = 4 + 16 * leAt p 0 1)
  | 0x83 => decide (n = 24)
  | 0x84 => decide (n = 8)
  | 0x85 => decide (1 ≤ leAt p 2 2 ∧ leAt p 2 2 ≤ 1275 ∧ n = 4 + leAt p 2 2)
  | 0x86 => decide (n = 8)
  | 0x87 => decide (n = 12)
  | 0x40 => decide (32 ≤ n) && decide (n = 32 + leAt p 8 2)
  | _ => false

end Sys2Proof.Machine
end

