-- ==== Sys2Proof/Machine/Ops.lean ====
section
/-! DEFINITION. The named operations over the state: halves and lanes, device time, outputs, events, MSI-X messages,
and the completion of commands. -/
namespace Sys2Proof.Machine
open Sys2Proof

/-- The answer of every meaning. -/
abbrev Res := Host.Outcome State Fault Refusal

/-- A half. -/
def State.half (s : State) : HalfId → Half
  | .east => s.east
  | .west => s.west
/-- The state with a half replaced. -/
def State.putHalf (s : State) (h : HalfId) (H : Half) : State :=
  match h with
  | .east => { s with east := H }
  | .west => { s with west := H }
/-- The other half. -/
def HalfId.peer : HalfId → HalfId
  | .east => .west
  | .west => .east
/-- HALF: 0 East, 1 West. -/
def halfNo : HalfId → Nat
  | .east => 0
  | .west => 1
def halfId (n : Nat) : HalfId := if n = 0 then .east else .west
/-- The half of a lane, and its index there (R13). -/
def halfOf (l : Nat) : HalfId := if l < 128 then .east else .west
def Half.lane (H : Half) (i : Nat) : Lane := Sparse.get laneNone H.lanes i
def Half.putLane (H : Half) (i : Nat) (L : Lane) : Half := { H with lanes := Sparse.set laneNone H.lanes i L }
/-- A lane of the device, 0 to 255. -/
def State.lane (s : State) (l : Nat) : Lane := (s.half (halfOf l)).lane (l % 128)
def State.putLane (s : State) (l : Nat) (L : Lane) : State :=
  s.putHalf (halfOf l) ((s.half (halfOf l)).putLane (l % 128) L)
/-- The bytes of the title image that a lane maps (R392). -/
def titleOf (H : Half) (id : Nat) : Bytes :=
  match Sparse.get noTitle H.titles id with
  | some t => t.data
  | none => []
def State.title (s : State) (l : Nat) : Bytes := titleOf (s.half (halfOf l)) (s.lane l).title

/-- The memory of lane `l` in the caches (R80, R89). -/
def laneSpace (l : Nat) : Nat := l % 128 + 1
/-- The lines of a cache but those of a memory that `n` bytes at `a` touch. -/
def dropLines (c : List CacheLine) (space a n : Nat) : List CacheLine :=
  c.filter (fun x => !(decide (x.space = space) && overlaps a n (64 * x.line) 64))
/-- A write of `n` bytes at `a` in lane `l` by an agent other than its threads invalidates the matching lines (R82, R89). -/
def State.dropWritten (s : State) (l a n : Nat) : State :=
  let H := s.half (halfOf l)
  s.putHalf (halfOf l) { H with icache := dropLines H.icache (laneSpace l) a n, dcache := dropLines H.dcache (laneSpace l) a n }
/-- Every line of lane `l` goes. -/
def State.dropAllLines (s : State) (l : Nat) : State :=
  let H := s.half (halfOf l)
  let keep (c : List CacheLine) : List CacheLine := c.filter (fun x => decide (x.space ≠ laneSpace l))
  s.putHalf (halfOf l) { H with icache := keep H.icache, dcache := keep H.dcache }

/-- A write of `n` bytes at `a` of title image `id` of a half invalidates the matching lines of every lane that maps it (R82, R89). -/
def State.dropTitle (s : State) (h : HalfId) (id a n : Nat) : State :=
  (((List.range 128).map (· + 128 * halfNo h)).filter (fun l => decide ((s.lane l).title = id) && decide ((s.lane l).phase ≠ .stopped))).foldl
    (fun s l => s.dropWritten l (0x40000000 + a) n) s

/-- Whether the device runs: powered, out of reset, not tripped. -/
def State.runs (s : State) : Bool := s.powered && !s.inReset && !s.thermtrip
/-- Whether the PCIe function of a half is up (R497, R500, R502). -/
def State.pfUp (s : State) (h : HalfId) : Bool := s.runs && !(s.half h).boot.perstHeld && (s.half h).boot.pcieClk && !(s.half h).sp.down
/-- Device time, a count that advances by 40 and does not run back (R325). -/
def State.at (s : State) (tm : Nat) : State := { s with time := max s.time (tm / 40 * 40) }
/-- The half whose MAC sends what sub-port `k` of half `h` is to send (R383, R385): its own, the other half's while that
carries it, or none. -/
def State.macOf (s : State) (h : HalfId) (k : Nat) : Option HalfId :=
  if !(Sparse.get subPortReset (s.half h).net.subs k).failed then some h
  else if (Sparse.get subPortReset (s.half (HalfId.peer h)).net.subs k).carry then some (HalfId.peer h) else none
/-- Something leaves the block. A datagram of a failed sub-port goes over Ford, or nowhere (R383, R385): its source address stays, and the MAC
address is that of the sub-port that sends it (DESIGN CHOICE: R383 does not name it). -/
def State.emit (s : State) (o : Out) : State :=
  match o with
  | .datagram h f => match s.macOf h f.sub with
    | some m => { s with out := .datagram m (f.sentFrom (Sparse.get subPortReset (s.half h).net.subs f.sub) (Sparse.get subPortReset (s.half m).net.subs f.sub)) :: s.out }
    | none => s
  | o => { s with out := o :: s.out }

/-- Free values of a state are numbered apart from those of a half and of a lane. -/
def laneDraw (l : Nat) (L : Lane) : Nat := L.draws * 1024 + l
def halfDraw (h : HalfId) (H : Half) : Nat := H.draws * 1024 + 256 + halfNo h
def State.draw (s : State) : Nat := s.freeCtr * 1024 + 512

/-- The address to which a flow sends, if it is bound (R321), and the output of a datagram on it. -/
def sendOn (h : HalfId) (f : Flow) (udp : Bytes) : List Out :=
  match f.bound with
  | some peer => [.datagram h (f.frame peer udp)]
  | none => []

/-- The 32 bytes of an event entry (R429). -/
def Event.bytes (e : Event) (phase : Bool) : Bytes :=
  leBytes 2 e.code ++ leBytes 2 (phase.toNat * 2 ^ 15) ++ leBytes 2 e.lane ++ [0, 0] ++ leBytes 4 e.eseq ++
    leBytes 4 e.frame ++ leBytes 8 e.time ++ leBytes 8 e.data

/-- The 16 bytes of a reply (R423). -/
def replyBytes (status tag rlen rflags detail sqHead qpph : Nat) : Bytes :=
  leBytes 2 status ++ leBytes 2 tag ++ leBytes 2 rlen ++ leBytes 2 rflags ++ leBytes 4 detail ++ leBytes 2 sqHead ++
    leBytes 2 qpph

/-- A REPLY on the control flow of a half (R356, R419): FRAME 0, SLICE 0xFFFF. Nothing goes before the flow is bound (R321). One that would take
SEQ 0xFFFF_FFFE ends the flow instead (R319; DEDUCED: at once, as LEAVE is no message of this flow). The last component is the DATA of SEQ_HIGH
where the flow reaches it. -/
def Half.controlSend (H : Half) (h : HalfId) (payload : Bytes) : Half × List Out × Option Nat :=
  match H.net.control with
  | some c =>
    if c.flow.bound.isNone then (H, [], none)
    else if 0xFFFFFFFE ≤ c.flow.seq then ({ H with net := { H.net with control := none } }, [], none)
    else
      let r := c.flow.seal 0x41 0 0 0xFFFF payload
      ({ H with net := { H.net with control := some { c with flow := r.1 } } }, sendOn h c.flow r.2,
       if r.1.seq = 0xF0000000 then some (c.flow.id + c.flow.epoch * 2 ^ 32) else none)
  | none => (H, [], none)

/-- The slots of an enabled event ring that the device may still write (R417, R429). -/
def EventRing.room (e : EventRing) : Nat := if e.en then (e.head + 2 * 2 ^ e.cqlog - e.slot - 1) % 2 ^ e.cqlog else 0
/-- An event that waits for a slot of the ring (R429): beyond those that the ring has room for and the 64 buffered while it is full or disabled,
it is lost and counted. -/
def EventRing.put (x : EventRing) (e : Event) : EventRing :=
  if x.buf.length < 64 + x.room then { x with buf := x.buf ++ [e] } else { x with lost := satBits 16 (x.lost + 1), lostPend := true }
/-- An event noted by a half (R429, R431): it takes the next number, goes to the control flow that has subscribed to it and
waits for a slot of the ring. -/
def Half.noteEvent (H : Half) (h : HalfId) (code lane frame time data : Nat) : Half × List Out × Option Nat :=
  let n := H.ev.eseq + 1
  let e : Event := { code := code, lane := lane, eseq := n, frame := frame, time := time, data := data }
  let H := { H with ev := ({ H.ev with eseq := n } : EventRing).put e }
  match H.net.control with
  | some c => if c.mask.testBit code then
      H.controlSend h (replyBytes 0 0xFFFF 32 0 0 0 0 ++ e.bytes false) else (H, [], none)
  | none => (H, [], none)
/-- SEQ_HIGH follows where the control flow has reached it (R319, R356, R430); it names no lane. -/
def seqHigh (h : HalfId) (time : Nat) (r : Half × List Out × Option Nat) : Half × List Out :=
  match r.2.2 with
  | none => (r.1, r.2.1)
  | some d => let q := r.1.noteEvent h 0x0004 0xFFFF 0 time d; (q.1, r.2.1 ++ q.2.1)
/-- A REPLY on the control flow, at device time `time`. -/
def Half.sendReply (H : Half) (h : HalfId) (time : Nat) (payload : Bytes) : Half × List Out := seqHigh h time (H.controlSend h payload)
/-- An event of a half. -/
def Half.event (H : Half) (h : HalfId) (code lane frame time data : Nat) : Half × List Out :=
  seqHigh h time (H.noteEvent h code lane frame time data)

/-- An event raised in the state. -/
def State.event (s : State) (h : HalfId) (code lane frame data : Nat) : State :=
  let r := (s.half h).event h code lane frame s.time data
  r.2.foldl State.emit (s.putHalf h r.1)

/-- Whether the function sends MSI-X messages at all (R569). -/
def Half.msixOpen (H : Half) : Bool := H.msixEnable && !H.msixMask
/-- An MSI-X message falls due (R417, R569): pending while masked, sent where the spacing of 1 µs allows, otherwise due
at its end. -/
def Half.message (H : Half) (h : HalfId) (vec time : Nat) : Half × List Out :=
  let v := Sparse.get msixReset H.msix vec
  let put (v : MsixVector) : Half := { H with msix := Sparse.set msixReset H.msix vec v }
  if v.masked || !H.msixOpen then (put { v with pending := true }, [])
  else if (match v.lastSent with | some t => decide (time < t + 1000) | none => false) then (put { v with due := true }, [])
  else (put { v with lastSent := some time, due := false }, [.msix h vec v.addr v.data])
def State.message (s : State) (h : HalfId) (vec : Nat) : State :=
  let r := (s.half h).message h vec s.time
  r.2.foldl State.emit (s.putHalf h r.1)

/-- The status codes of R428. -/
def stOk : Nat := 0
def stBadOpcode : Nat := 1
def stBadHeader : Nat := 2
def stBadParam : Nat := 3
def stBadTarget : Nat := 4
def stBadState : Nat := 5
def stBadTiming : Nat := 6
def stNoCapacity : Nat := 7
def stNoSpare : Nat := 8
def stTagBusy : Nat := 9
def stBusy : Nat := 10
def stDroppedLate : Nat := 11
def stDenied : Nat := 12
def stLockdown : Nat := 13
def stBadImage : Nat := 14
def stNotFound : Nat := 15
def stDmaError : Nat := 16
def stFault : Nat := 17
def stAborted : Nat := 18
def stNotDrained : Nat := 19
def stIsolated : Nat := 20

/-- A command in flight by its number. -/
def State.cmd (s : State) (id : Nat) : Option Cmd := s.cmds.find? (fun c => decide (c.id = id))
/-- A command replaced. -/
def State.putCmd (s : State) (c : Cmd) : State :=
  { s with cmds := s.cmds.map (fun d => if d.id = c.id then c else d) }
/-- A command taken out of flight. -/
def State.dropCmd (s : State) (id : Nat) : State := { s with cmds := s.cmds.filter (fun d => !decide (d.id = id)) }

/-- The replies that a control flow keeps: the latest 256 (R419). -/
def Control.keep (c : Control) (header reply : Bytes) (time : Nat) : Control :=
  { c with kept := ((header, reply, time) :: c.kept).take 256 }

/-- A command completes (R417, R419, R420, R424): a ring command's reply waits for its completion entry behind those before it, a control flow's
reply is sent and kept, an SMBus reply waits to be read. A ring command whose reply is discarded leaves none (R416, R418). A command that has completed already stays as it is. -/
def State.finish (s : State) (id status detail : Nat) (result : Bytes) : State :=
  match s.cmd id with
  | none => s
  | some c =>
    if c.reply.isSome then s else
    let dup := if status = stTagBusy then 2 else 0
    match c.src with
    | .ring _ _ =>
      let t := s.dropCmd id
      if c.discard then t else
      { t with cmds := t.cmds ++ [{ c with begun := true, reply := some { status := status, detail := detail, result := result } }] }
    | .smbus =>
      { s.dropCmd id with smReplies := s.smReplies ++ [replyBytes status c.tag result.length dup detail 0 0 ++ result] }
    | .control h =>
      let p := replyBytes status c.tag result.length dup detail 0 0 ++ result
      let H := s.half h
      let H := match H.net.control with
        | some k => { H with net := { H.net with control := some (k.keep c.header p s.time) } }
        | none => H
      let r := H.sendReply h s.time p
      r.2.foldl State.emit ((s.dropCmd id).putHalf h r.1)

/-- A command that completes without effect. -/
def State.refuseCmd (s : State) (id status detail : Nat) : State := s.finish id status detail []

/-- A meaning that answers the state itself: its event does not come about there. -/
def stay (s : State) : Res := .next s
/-- A fault for a unit outside the manual's numbers. -/
def noUnit : Res := .fault .noUnit

end Sys2Proof.Machine
end

