-- ==== Sys2Proof/Machine/LaneLife.lean ====
section
/-! DEFINITION. Messages on a viewer's flow, a viewer's leaving (R319, R346, R361), and the stop of a lane (R427, R435). -/
namespace Sys2Proof.Machine
open Sys2Proof

/-- The frame in progress of a lane (R36), low 32 bits. -/
def Lane.frameNow (L : Lane) : Nat := L.tm.frameAt L.bvt % 2 ^ 32

/-- A viewer after sending, what left, and the DATA of SEQ_HIGH where the flow reached it (R319). -/
structure Sent where
  view : Viewer
  outs : List Out
  high : Option Nat

/-- A message sealed and sent on the flow of a viewer; nothing is sent before its first valid JOIN (R321). -/
def Viewer.push (h : HalfId) (x : Viewer) (type flags frame slice : Nat) (payload : Bytes) : Sent :=
  if x.flow.bound.isNone then { view := x, outs := [], high := none }
  else
    let r := x.flow.seal type flags frame slice payload
    { view := { x with flow := r.1 }, outs := sendOn h x.flow r.2,
      high := if r.1.seq = 0xF0000000 then some (x.flow.id + x.flow.epoch * 2 ^ 32) else none }

/-- The bytes of a datagram's Ethernet frame, FCS included (R371). -/
def Flow.frameBytes (f : Flow) (payload : Nat) : Nat :=
  max 64 (14 + (if f.tag.isNone then 0 else 4) + (if f.family = 6 then 40 else 20) + 8 + 40 + payload + 4)
/-- A viewer's send bucket at device time `tm`, in 1/8,000 bytes (R371). -/
def Viewer.bucketNow (x : Viewer) (tm : Nat) : Nat := min (16384 * 8000) (x.bucket + x.pace * (tm - x.bucketAt))
/-- The viewer with the frame bytes of a datagram taken from its send bucket: none where the bucket does not hold them (R371). -/
def Viewer.pays (x : Viewer) (tm payload : Nat) : Option Viewer :=
  let n := x.flow.frameBytes payload * 8000
  let b := x.bucketNow tm
  if x.pace = 0 then some { x with bucket := b, bucketAt := tm }
  else if b < n then none
  else some { x with bucket := b - n, bucketAt := tm }
/-- A datagram built for a viewer (R367, R371): the budget counts REGION and KEY. -/
def Viewer.build (x : Viewer) (tm type flags frame slice : Nat) (payload : Bytes) : Viewer :=
  { x with items := x.items ++ [{ type := type, flags := flags, frame := frame, slice := slice, payload := payload, builtAt := tm }],
           t := if type = 1 ∨ type = 3 then x.t - ((40 + payload.length : Nat) : Int) else x.t }
/-- The payload of LEAVE (R346). -/
def leavePayload (reason : Nat) : Bytes := leBytes 2 reason ++ [0, 0]
/-- The entry of state 3 with the first LEAVE (R346, R361, R362): what is built and not handed over is discarded; the send bucket may hold
the LEAVE (R371). One that takes SEQ 0xFFFF_FFFE carries reason 3 (R319). -/
def Viewer.leave (h : HalfId) (x : Viewer) (tm frame reason : Nat) : Sent :=
  if x.state = 3 then { view := x, outs := [], high := none }
  else
    let reason := if 0xFFFFFFFE ≤ x.flow.seq then 3 else reason
    let y := { x with state := 3, items := [], keyDue := [], selects := false, rep := .leave reason 1 tm }
    match y.pays tm 4 with
    | some z => z.push h 0x06 0 frame 0xFFFF (leavePayload reason)
    | none => { view := { y with rep := .leave reason 2 tm }.build tm 0x06 0 frame 0xFFFF (leavePayload reason), outs := [], high := none }

/-- Whether the next datagram of a viewer's flow would take SEQ 0xFFFF_FFFE (R319). -/
def Viewer.exhausted (x : Viewer) : Bool := decide (0xFFFFFFFE ≤ x.flow.seq)
/-- A message of a viewer other than LEAVE, its frame `now` being in progress: at SEQ 0xFFFF_FFFE the flow sends LEAVE with reason 3 in its place
(R319); where the send bucket does not hold it, or holds an earlier one, it waits (R371). -/
def Viewer.send (h : HalfId) (x : Viewer) (tm now type flags frame slice : Nat) (payload : Bytes) : Sent :=
  if x.exhausted then x.leave h tm now 3
  else match x.items, x.pays tm payload.length with
    | [], some y => y.push h type flags frame slice payload
    | _, _ => { view := x.build tm type flags frame slice payload, outs := [], high := none }

/-- A viewer of a half. -/
def Half.viewer (H : Half) (v : Nat) : Option Viewer := Sparse.get noViewer H.net.viewers v
def Half.putViewer (H : Half) (v : Nat) (x : Option Viewer) : Half :=
  { H with net := { H.net with viewers := Sparse.set noViewer H.net.viewers v x } }
/-- The viewers of a lane, in order of v. -/
def Half.viewersOf (H : Half) (l : Nat) : List (Nat × Viewer) :=
  H.net.viewers.filterMap (fun p => match p.2 with
    | some x => if x.lane = l then some (p.1, x) else none
    | none => none)

/-- The reference state of a pad slot before any (R350): every button released, every axis and trigger 0. -/
def padZero (_ : Nat) : Bytes := List.replicate 16 0
/-- The VT that stands for the moment of an input's acceptance (R378, R404): BVT, or during a replay the VT at which the fault
was detected. -/
def Lane.acceptVt (L : Lane) : Nat := match L.roll with | some r => max r.h L.bvt | none => L.bvt
/-- The VT at which an input accepted now applies (R378). -/
def Lane.inputVt (L : Lane) : Nat :=
  if L.det then
    L.tm.v0 + roundUp (L.acceptVt + max L.inputDelay (L.runahead + 1) * L.tm.ll - L.tm.v0) L.tm.dotdiv
  else
    let k := L.tm.milIndex L.acceptVt + 1
    L.tm.milVt (max k L.mil)
/-- An entry put into a log in VT order, after those of its own VT (R401). -/
def insertInput (i : LaneInput) : List LaneInput → List LaneInput
  | [] => [i]
  | j :: t => if j.vt ≤ i.vt then j :: insertInput i t else i :: j :: t
/-- An input of the lane enters its log (R379, R401). -/
def Lane.addInput (L : Lane) (vt kind slot : Nat) (data : Bytes) (cmd : Option Nat) : Lane :=
  { L with inOrder := L.inOrder + 1,
           inputs := insertInput { vt := vt, order := L.inOrder, kind := kind, slot := slot, data := data, cmd := cmd, applied := false } L.inputs }
/-- The entries of the input log that have applied, below the beam, and that no kept checkpoint needs any more are freed (R401). -/
def Lane.trimLog (L : Lane) : Lane :=
  { L with inputs := L.inputs.filter (fun i => !i.applied || decide (L.bvt ≤ i.vt) || L.ckpts.any (fun c => decide (c.vt ≤ i.vt))) }
/-- Room for one entry in the input log of 32,768 (R400, R401): the older checkpoint goes, then the newest. The number counts the
checkpoints abandoned. -/
def Lane.makeRoom (L : Lane) : Lane × Nat :=
  let A := L.trimLog
  if A.inputs.length < 32768 then (A, 0)
  else
    let B := ({ A with ckpts := A.ckpts.drop (A.ckpts.length - 1) } : Lane).trimPages.trimLog
    if B.inputs.length < 32768 ∨ B.ckpts.isEmpty then (B, 0)
    else (({ B with ckpts := [], pages := [], lostCkpts := satBits 32 (B.lostCkpts + 1) } : Lane).trimLog, 1)
/-- CKPT_LOST for each checkpoint abandoned (R400, R430). -/
def State.ckptLost (s : State) (l : Nat) : Nat → State
  | 0 => s
  | n + 1 => (s.event (halfOf l) 0x0008 l (s.lane l).frameNow (s.lane l).lostCkpts).ckptLost l n

/-- An input logged for lane `l`, whose other state is `L` (R379, R400). -/
def State.logInput (s : State) (l : Nat) (L : Lane) (vt kind slot : Nat) (data : Bytes) (cmd : Option Nat) : State :=
  let r := L.makeRoom
  (s.putLane l (r.1.addInput vt kind slot data cmd)).ckptLost l r.2
/-- Edges in a paused lane (R157): each sets its latch where its LSYS_WAKE enable is 1. -/
def Lane.edge (L : Lane) (pad acc net : Bool) : Lane :=
  let w := L.unit.reg 0x34030
  let c := L.unit.lic
  if L.phase = .paused then
    { L with unit := { L.unit with lic := { c with latchPad := c.latchPad || (pad && bit w 0), latchAcc := c.latchAcc || (acc && bit w 1),
                                                    latchNet := c.latchNet || (net && bit w 2) } } }
  else L

/-- The change of the joined viewers of lane `l` as an input (R363); a slot that is no longer joined has its pad cleared. -/
def State.viewerChange (s : State) (l : Nat) (cleared : Option Nat) : State :=
  let L := s.lane l
  if L.phase = .stopped ∨ L.phase = .starting then s
  else
    let vs := (s.half (halfOf l)).viewersOf l
    let joined := vs.foldl (fun m p => if p.2.player && p.2.slotJoined then m ||| 2 ^ p.2.slot else m) 0
    let spect := (vs.filter (fun p => !p.2.player && decide (p.2.state = 1))).length
    let L := match cleared with
      | some k => { L with lastPads := Sparse.set padZero L.lastPads k (padZero k) }
      | none => L
    let m := match cleared with | some k => 2 ^ k | none => 0
    s.logInput l (L.edge false false true) L.inputVt 3 0 (leBytes 1 joined ++ leBytes 1 spect ++ leBytes 1 m) none

/-- What the network engine keeps for a lane. -/
def State.netLane (s : State) (l : Nat) : NetLane := Sparse.get netLaneReset (s.half (halfOf l)).net.lanes (l % 128)
def State.putNetLane (s : State) (l : Nat) (n : NetLane) : State :=
  let H := s.half (halfOf l)
  s.putHalf (halfOf l) { H with net := { H.net with lanes := Sparse.set netLaneReset H.net.lanes (l % 128) n } }

/-- STEER (R376) and the frame period in ns, at STEER 0 and now (R374). -/
def Lane.steer (L : Lane) : Int := signed 16 (bits (L.unit.reg 0x34008) 48 16)
def Lane.nomPeriod (L : Lane) : Rat :=
  let y := L.unit.reg 0x34008
  ((L.tm.lf * (2 ^ 25 * bits y 32 9) * 40 : Nat) : Rat) / ((bits y 24 8 * 2 ^ 24 + bits y 0 24 : Nat) : Rat)
def Lane.period (L : Lane) : Rat := L.nomPeriod / (1 + (L.steer : Rat) / 4000000)
/-- I0 of an entry in ppm (R374). -/
def Lane.entryI0 (L : Lane) (rperiod : Nat) : Rat := (16 * L.nomPeriod / (rperiod : Rat) - 1) * 1000000
/-- The nearest integer, halves up (DESIGN CHOICE: the manual does not say which way). -/
def ratRound (x : Rat) : Int := (x + 1 / 2).floor

/-- A TIMING payload (R344), its TXTIME filled in as it is sent. -/
def State.timingPayload (s : State) (l kind token ctime rx : Nat) : Bytes :=
  let L := s.lane l
  let n := s.netLane l
  leBytes 1 kind ++ leBytes 1 n.lock.lock ++ [0, 0] ++ leBytes 4 n.bframe ++ leBytes 8 n.btime ++
    leBytes 4 (unsigned 32 (ratRound (16 * L.period))) ++ leBytes 4 (unsigned 32 L.steer) ++ leBytes 4 (unsigned 32 n.lead) ++
    leBytes 4 token ++ leBytes 8 ctime ++ leBytes 8 rx ++ leBytes 8 0
/-- TIMING with KIND 0 for one viewer of lane `l`. -/
def State.reportTiming (s : State) (h : HalfId) (v : Nat) (x : Viewer) : State :=
  let y := { x.build s.time 4 0 (s.lane x.lane).frameNow 0xFFFF (s.timingPayload x.lane 0 0 0 0) with timingAt := s.time }
  s.putHalf h ((s.half h).putViewer v (some y))
/-- Where LOCK is no longer `old` (R375), TIMING goes to every joined viewer. -/
def State.tellLock (s : State) (l old : Nat) : State :=
  if (s.netLane l).lock.lock = old then s
  else ((s.half (halfOf l)).viewersOf l).foldl (fun s p => if p.2.state = 1 then s.reportTiming (halfOf l) p.1 p.2 else s) s
/-- The lock replaced, with what R375 sends where LOCK changes. -/
def State.setLock (s : State) (l : Nat) (k : Lock) : State :=
  let n := s.netLane l
  (s.putNetLane l { n with lock := k }).tellLock l n.lock.lock
/-- LOCK 0 (R375), where STEER holds. -/
def State.unlock (s : State) (l : Nat) : State :=
  s.setLock l { (s.netLane l).lock with lock := 0, good := 0, bad := 0 }

/-- The VIEWER_KEYFRAME commands that wait for viewer `v` (R437): it has begun its key frame at `frame`, or has left state 1. The
parameters of such a command hold its result so far. -/
def State.settleKeys (s : State) (h : HalfId) (v : Nat) (frame : Option Nat) : State :=
  match (s.half h).viewer v with
  | none => s
  | some x =>
    let s := s.putHalf h ((s.half h).putViewer v (some { x with keyCmds := [] }))
    x.keyCmds.foldl (fun s p =>
      let s := match frame, s.cmd p.1 with
        | some f, some c => if p.2 then s.putCmd { c with params := leBytes 4 f } else s
        | _, _ => s
      let waits := (s.half h).net.viewers.any (fun q => match q.2 with | some y => y.keyCmds.any (fun k => decide (k.1 = p.1)) | none => false)
      if waits then s else s.finish p.1 stOk 0 (match s.cmd p.1 with | some c => c.params | none => [])) s

/-- A viewer that has left state 1 or given up its slot (R363, R372, R375): the lane's input, PEN where it leaves for good, LOCK. -/
def State.viewerLeft (s : State) (v : Nat) (x y : Viewer) : State :=
  let l := x.lane
  let n := s.netLane l
  let pacer := n.pen && decide (n.pacer = v)
  let s := if pacer && decide (y.state = 3) then s.putNetLane l { n with pen := false } else s
  let s := if pacer && (decide (x.state = 1) || decide (y.state = 3)) then s.unlock l else s
  let s := if x.state = 1 ∧ y.state ≠ 1 then s.settleKeys (halfOf l) v none else s
  if x.player && x.slotJoined then s.viewerChange l (some x.slot)
  else if !x.player && decide (x.state = 1) then s.viewerChange l none
  else s

/-- What a viewer has sent goes out; SEQ_HIGH is raised (R319, R430); a viewer that enters state 3 leaves. -/
def State.sentBy (s : State) (h : HalfId) (v : Nat) (r : Sent) : State :=
  let old := (s.half h).viewer v
  let left := decide (r.view.state = 3) && (match old with | some x => decide (x.state ≠ 3) | none => false)
  let y := if left then { r.view with slotJoined := false } else r.view
  let s := r.outs.foldl State.emit (s.putHalf h ((s.half h).putViewer v (some y)))
  let s := match old with | some x => if left then s.viewerLeft v x y else s | none => s
  match r.high with
  | some d => s.event h 0x0004 r.view.lane (s.lane r.view.lane).frameNow d
  | none => s

/-- A reference to a title image given up; an image that is unloading goes with its last one (R393). -/
def Half.dropTitle (H : Half) (id : Nat) : Half :=
  match Sparse.get noTitle H.titles id with
  | none => H
  | some t =>
    let n := t.refs - 1
    { H with titles := Sparse.set noTitle H.titles id (if t.unloading && decide (n = 0) then none else some { t with refs := n }) }

def noCtx (_ : Nat) : Nat := 0
/-- Contexts and slot positions of a lane given up (R68, R78). -/
def Half.release (H : Half) (l : Nat) : Half :=
  let mine := (H.ctxs.filter (fun p => decide ((p.2 - 1) / 4 = l) && decide (p.2 ≠ 0))).map (·.1)
  let own (m : Sparse Nat) (k p : Nat) : Bool :=
    decide (p ≠ 0) && decide (p ≠ 8) && decide (Sparse.get slotReset m (16 * (k / 16) + p) = k % 16 + 1)
  let clear (m : Sparse Nat) (k : Nat) : Sparse Nat :=
    (List.range 16).foldl (fun m p => if own m k p then Sparse.set slotReset m (16 * (k / 16) + p) 0 else m) m
  { H with slots := mine.foldl clear H.slots, ctxs := mine.foldl (fun m k => Sparse.set noCtx m k 0) H.ctxs }

/-- A lane that has stopped: no thread issues, no clock runs, its allocation is freed (R387, R435). -/
def Lane.stopped (L : Lane) : Lane :=
  { Lane.absent with unit := L.unit, block := L.block, title := L.title, core := L.core, bvt := L.bvt, draws := L.draws,
                     lostCkpts := L.lostCkpts, rollbacks := L.rollbacks, det := L.det, enc := L.enc, op := L.op }

/-- The commands to lane `l` that have not completed end with ABORTED, but for `except` (R427). -/
def State.abortAll (s : State) (l : Nat) (except : Option Nat) : State :=
  ((s.cmds.filter (fun c => decide (c.target = l) && c.reply.isNone && decide (some c.id ≠ except))).map (·.id)).foldl
    (fun s id => s.finish id stAborted 0 []) s
/-- A core migration of R450 is over for a lane; without any left it has ended (R17). -/
def Sparing.moved (p : Sparing) (l : Nat) : Sparing :=
  { p with coreMove := (p.coreMove.map (fun m => (m.1, m.2.1, m.2.2.filter (fun k => decide (k ≠ l))))).filter (fun m => !m.2.2.isEmpty) }
/-- A directory entry (R509). -/
def dirEntry (state lane frame off total : Nat) : Bytes :=
  leBytes 1 state ++ [0] ++ leBytes 2 lane ++ leBytes 4 frame ++ leBytes 8 off ++ leBytes 8 total ++ List.replicate 8 0
/-- The directory entry of lane `l`, where the half's drain has a buffer that it can reach (R508, R509). -/
def State.writeEntry (s : State) (l : Nat) (e : Bytes) : State :=
  let h := halfOf l
  let d := (s.half h).drain
  if d.buf && s.pfUp h then s.emit (.hostWrite h (d.addr + 32 * l) e) else s
/-- Lane `l` freed (R387, R393, R435): allocation, contexts and title reference; in a drain its directory entry reads 'no lane'
(R509). DESIGN CHOICE: a hand-off bound for it is given up at
once, and its spare joins the end of the list of spares; R17 and R459 do not say what becomes of it. -/
def State.freeLane (s : State) (l : Nat) : State :=
  let h := halfOf l
  let H := ((s.half h).dropTitle (s.lane l).title).release l
  let p := H.sp.moved l
  let sp := match p.handoff with
    | some (k, u) => if k = l then { p with handoff := none, spares := p.spares ++ [u] } else p
    | none => p
  let s := s.putHalf h { H with sp := sp, drain := { H.drain with lanes := H.drain.lanes.filter (fun k => decide (k ≠ l)) }, mon := { H.mon with ladder := H.mon.ladder.filter (fun k => decide (k ≠ l)) } }
  let s := if H.drain.lanes.contains l then s.writeEntry l (dirEntry 0 l 0 0 0) else s
  s.putLane l (s.lane l).stopped
/-- Every viewer of lane `l` leaves (R346). -/
def State.leaveAll (s : State) (l reason : Nat) : State :=
  let f := (s.lane l).frameNow
  ((s.half (halfOf l)).viewersOf l).foldl (fun s p => s.sentBy (halfOf l) p.1 (p.2.leave (halfOf l) s.time f reason)) s
/-- The stop of lane `l` (R427, R435): every viewer leaves with reason 2. -/
def State.stopLane (s : State) (l : Nat) (except : Option Nat) : State := ((s.abortAll l except).leaveAll l 2).freeLane l

/-- A meaning that acts on one lane: none where its event does not come about; the number counts the checkpoints that
a full page pool made it abandon. -/
def State.onLane (s : State) (l : Nat) (f : Lane → Option (Lane × Nat)) : Res :=
  if 256 ≤ l then noUnit
  else match f (s.lane l) with
    | none => stay s
    | some (L, n) => .next ((s.putLane l L).ckptLost l n)

end Sys2Proof.Machine
end

