-- ==== Sys2Proof/Machine/AudioRows.lean ====
section
/-! DEFINITION. Weirs, crosspoint, coders and the announcement ring as commands (R292 to R312, R343, R439). -/
namespace Sys2Proof.Machine
open Sys2Proof

/-- r_nom of a weir of the lane (R293). -/
def Lane.rate (L : Lane) (w : Nat) : Rate := if w = 0 then laneRate (L.unit.reg 0x34008) (L.unit.reg 0x21000) else voiceRate
/-- A frame into weir `w`. -/
def Lane.feed (L : Lane) (w : Nat) (f : WFrame) : Lane :=
  let x := (Sparse.get weirReset L.audio.weirs w).input (L.rate w) f
  { L with audio := { L.audio with weirs := Sparse.set weirReset L.audio.weirs w x } }

/-- The packet of a voice store that comes first (R310). -/
def firstVoice : List VoicePkt → Option VoicePkt
  | [] => none
  | p :: t => match firstVoice t with
    | some q => if q.seq < p.seq then some q else some p
    | none => some p
/-- How long an Opus packet plays, in units of 2.5 ms, by the table-of-contents byte that begins it (RFC 6716): frames of a size, one, two or
as many as the second byte says. -/
def opusUnits (d : Bytes) : Nat :=
  let toc := leAt d 0 1
  let g := toc / 8
  let size := if g < 12 then [4, 8, 16, 24].getD (g % 4) 4 else if g < 16 then [4, 8].getD (g % 2) 4 else [1, 2, 4, 8].getD (g % 4) 1
  size * (match toc % 4 with | 0 => 1 | 3 => leAt d 1 1 % 64 | _ => 2)
/-- A sample of voice at 48 kHz after the low-pass filter (R310), of `xs` with the 31 samples before it. DESIGN CHOICE: the filter is linear with 32
taps of its own that do not change; the manual gives its corner alone. -/
def voiceLowPass (xs : List Int) : Int :=
  let y := ((List.range 32).map (fun j => Config.voiceTap j * (xs.getD j 0 : Rat))).sum
  y.floor + ((Config.voiceRound y % 2 : Nat) : Int)
/-- The mono samples at 16 kHz of a packet (R310), and the last 31 samples at 48 kHz: two channels mixed as floor((L + R) / 2), 48 kHz filtered,
`past` being what was decoded before, and decimated by 3. -/
def opusMono (n : Nat) (past : List Int) (p : VoicePkt) : List Int × List Int :=
  let k := 40 * opusUnits p.data
  let x (i : Nat) : Int :=
    let l := Config.opusPcm n p.data p.hi 0 i
    if (leAt p.data 0 1).testBit 2 then (l + Config.opusPcm n p.data p.hi 1 i) / 2 else l
  if p.hi then
    let xs := List.replicate (31 - past.length) 0 ++ past ++ (List.range (3 * k)).map x
    ((List.range k).map (fun i => voiceLowPass (xs.drop (3 * i))), xs.drop (3 * k))
  else ((List.range k).map x, past)
/-- A voice store brought back to 60 ms (R310). DESIGN CHOICE: the packets that come first go, but for the last one left; the manual does not
say which. -/
def trimVoice (st : List VoicePkt) : List VoicePkt :=
  (List.range st.length).foldl (fun st _ =>
    if 24 < (st.map (fun p => opusUnits p.data)).sum ∧ 1 < st.length then
      match firstVoice st with
      | some p => st.filter (fun q => decide (q.seq ≠ p.seq))
      | none => st
    else st) st
/-- A packet received for a slot (R310): a duplicate, or one older than the last one decoded, is discarded. -/
def VoiceDec.receive (d : VoiceDec) (p : VoicePkt) : VoiceDec :=
  if (match d.lastSeq with | some q => decide (p.seq ≤ q) | none => false) || d.store.any (fun q => decide (q.seq = p.seq)) then d
  else { d with store := trimVoice (d.store ++ [p]) }
/-- The order of R310 across a new epoch, in which SEQ starts again at 0 (R317). -/
def VoiceDec.newEpoch (d : VoiceDec) : VoiceDec :=
  { d with store := d.store.map (fun p => { p with seq := p.seq - 2 ^ 32 }), lastSeq := d.lastSeq.map (· - 2 ^ 32) }
/-- The decoder of a slot brought to hold its next sample (R310): decoded from the store, concealed for up to 60 ms, then 0. Before the first packet
none is missing. -/
def VoiceDec.fill (d : VoiceDec) (n : Nat) : VoiceDec :=
  if !d.out.isEmpty then d
  else match firstVoice d.store with
    | some p =>
      let x := opusMono n d.past p
      { d with store := d.store.filter (fun q => decide (q.seq ≠ p.seq)), lastSeq := some p.seq, concealed := 0, out := x.1, past := x.2 }
    | none =>
      let c := if d.lastSeq.isNone then [] else (Config.opusConceal n).take (960 - d.concealed)
      if c.isEmpty then { d with concealed := if d.lastSeq.isNone then 0 else 960, out := [0] } else { d with concealed := d.concealed + c.length, out := c }
/-- The voice decoder of slot `p` changed. -/
def Lane.mapVoice (L : Lane) (p : Nat) (f : VoiceDec → VoiceDec) : Lane :=
  { L with audio := { L.audio with voices := Sparse.set voiceDecReset L.audio.voices p (f (Sparse.get voiceDecReset L.audio.voices p)) } }
/-- The next decoded sample of slot `p` enters its weir. -/
def Lane.feedVoice (l : Nat) (L : Lane) (p : Nat) : Lane :=
  let d := (Sparse.get voiceDecReset L.audio.voices p).fill (laneDraw l L)
  let A : Lane := { L with draws := L.draws + 1,
                           audio := { L.audio with voices := Sparse.set voiceDecReset L.audio.voices p { d with out := d.out.drop 1 } } }
  match d.out with
  | [] => A
  | x :: _ => A.feed (p + 1) { vt := 0, ch := [x] }

/-- WEIR_INPUT (R271, R296, R310): weir 0 takes the sound unit's next sample, weir 1 + p the next decoded one. -/
def execWeirInput (l w : Nat) (s : State) : Res :=
  if 5 ≤ w then noUnit
  else s.onLane l (fun L =>
    if L.phase = .stopped ∨ L.phase = .starting then none
    else if w = 0 then
      match L.audio.handoff with
      | [] => none
      | x :: rest =>
        let A : Lane := { L with audio := { L.audio with handoff := rest } }
        some (A.feed 0 { vt := x.vt, ch := [x.mainL, x.mainR, x.echoL, x.echoR] }, 0)
    else some (L.feedVoice l (w - 1), 0))

/-- STREAM_SAMPLE (R293 to R306): one stream sample; a node whose wait is over ramps first. While the queue of an output to its coder holds
1,024 samples, the stream audio holds (R29, R31). -/
def execStreamSample (l : Nat) (s : State) : Res :=
  s.onLane l (fun L =>
    if L.phase = .stopped ∨ L.phase = .starting ∨ (List.range 48).any (fun k => (Sparse.get nodeReset L.audio.nodes k).timedOut) = true ∨
        (List.range 5).any (fun o => decide (1024 ≤ (Sparse.get asmReset L.audio.asm o).length)) = true then none
    else
      let t := L.unit.reg 0x38078
      let modes := (List.range 6).map (fun o => bits (L.unit.reg (0x38040 + 4 * o)) 0 2)
      let a := L.audio.streamSample (L.rate 0) modes (bits t 0 15) (bits t 16 8)
      some ({ L with audio := a }, 0))

/-- NODE_TIMEOUT (R304). -/
def execNodeTimeout (l o i : Nat) (s : State) : Res :=
  if 6 ≤ o ∨ 8 ≤ i then noUnit
  else s.onLane l (fun L =>
    let n := Sparse.get nodeReset L.audio.nodes (8 * o + i)
    if n.timedOut then
      some ({ L with audio := { L.audio with nodes := Sparse.set nodeReset L.audio.nodes (8 * o + i) n.fallBack,
                                             timeouts := satBits 16 (L.audio.timeouts + 1) } }, 0)
    else none)

/-- Whether a viewer is joined and hears output `o` (R299, R343). -/
def Viewer.hears (x : Viewer) (o : Nat) : Bool := decide (x.state = 1) && (if x.player then decide (x.slot = o) else decide (o = 4))
/-- The 480 samples of an output that fill a frame become an Opus frame where the output is coded (R311). What the coder makes
of them is free, its length is not. -/
def Lane.encodeOpus (l : Nat) (L : Lane) (o : Nat) (heard : Bool) : Lane :=
  let a := L.audio
  let q := Sparse.get asmReset a.asm o
  let k := Sparse.get zeroNat a.frameIx o
  let c := L.unit.reg (0x38040 + 4 * o)
  let kb := bits c 16 9
  let d : Bytes := Config.opusEncode (laneDraw l L) kb (q.take 480)
  let f : OpusFrame := { output := o, index := k, data := slice d 0 (kb * 10 / 8) }
  { L with draws := L.draws + 1,
           audio := { a with asm := Sparse.set asmReset a.asm o (q.drop 480), frameIx := Sparse.set zeroNat a.frameIx o (k + 1),
                             ready := if bit c 2 && heard then a.ready ++ [f] else a.ready } }

/-- OPUS_FRAME_ENCODE (R311). -/
def execOpusFrameEncode (l o : Nat) (s : State) : Res :=
  if 5 ≤ o then noUnit
  else s.onLane l (fun L =>
    if 480 ≤ (Sparse.get asmReset L.audio.asm o).length then
      some (L.encodeOpus l o (((s.half (halfOf l)).viewersOf l).any (fun p => p.2.hears o)), 0)
    else none)

/-- An AUDIO payload (R343). -/
def audioPayload (f : OpusFrame) : Bytes :=
  leBytes 1 f.output ++ [0] ++ leBytes 2 f.data.length ++ leBytes 4 f.index ++ f.data

/-- AUDIO_SEND (R343): the output's oldest frame goes to each viewer that hears it. -/
def execAudioSend (l o tm : Nat) (s : State) : Res :=
  if 256 ≤ l ∨ 5 ≤ o then noUnit
  else
    let s := s.at tm
    let L := s.lane l
    let h := halfOf l
    match L.audio.ready.find? (fun f => decide (f.output = o)) with
    | none => stay s
    | some f =>
      let s := s.putLane l { L with audio := { L.audio with ready := L.audio.ready.erase f } }
      .next (((s.half h).viewersOf l).foldl (fun s p =>
        if p.2.hears o then s.putHalf h ((s.half h).putViewer p.1 (some (p.2.build s.time 2 0 L.frameNow 0xFFFF (audioPayload f)))) else s) s)

/-- ANNOUNCE_READ (R302, R439): the device reads WR, takes what has been written, at most 5 ms of it, and writes RD. `data` are
the bytes of the ring from RD on. -/
def execAnnounceRead (l wr : Nat) (data : Bytes) (s : State) : Res :=
  if 256 ≤ l then noUnit
  else
    let L := s.lane l
    let a := L.audio.ann
    if !a.on || decide (L.phase = .stopped) then stay s
    else
      let n := min (min ((wr + 2 ^ 32 - a.rd) % 2 ^ 32) data.length) 960 / 4 * 4
      let pair (i : Nat) : Int × Int := (signed 16 (leAt data (4 * i) 2), signed 16 (leAt data (4 * i + 2) 2))
      let rd := (a.rd + n) % 2 ^ 32
      let L := { L with audio := { L.audio with ann := { a with rd := rd, queue := a.queue ++ (List.range (n / 4)).map pair } } }
      .next ((s.putLane l L).emit (.hostWrite (halfOf l) (a.addr + 4) (leBytes 4 rd)))

end Sys2Proof.Machine
end

