-- ==== Sys2Proof/Machine/Crc.lean ====
section
/-! DEFINITION. The checksums of the manual: CRC-32 of IEEE 802.3 (R250) and the CRC-8 of the heartbeat word (R465). -/
namespace Sys2Proof.Machine

/-- `n` steps of the reflected CRC-32 shift register, polynomial 0x04C1_1DB7. -/
def crc32Shift : Nat → Nat → Nat
  | 0, c => c
  | n + 1, c => crc32Shift n (if c % 2 = 1 then (c / 2) ^^^ 0xEDB88320 else c / 2)
/-- One byte into a running CRC-32 (R250). -/
def crc32Byte (c : Nat) (b : Nat) : Nat := crc32Shift 8 (c ^^^ b)
/-- The initial value of a running CRC-32. -/
def crc32Init : Nat := 0xFFFFFFFF
/-- The final XOR. -/
def crc32Final (c : Nat) : Nat := c ^^^ 0xFFFFFFFF
/-- The CRC-32 of a run of bytes. -/
def crc32 (b : Bytes) : Nat := crc32Final (b.foldl (fun c x => crc32Byte c x.toNat) crc32Init)

/-- `n` steps of the CRC-8 shift register, polynomial 0x07, most significant bit first. -/
def crc8Shift : Nat → Nat → Nat
  | 0, c => c
  | n + 1, c => crc8Shift n (if 128 ≤ c then ((2 * c) % 256) ^^^ 0x07 else 2 * c)
/-- The CRC-8 of a run of bytes, initial value 0 (R465). -/
def crc8 (b : Bytes) : Nat := b.foldl (fun c x => crc8Shift 8 (c ^^^ x.toNat)) 0

end Sys2Proof.Machine
end

