-- ==== Sys2Proof/Machine/Life.lean ====
section
/-! DEFINITION. The lifetime record of a half: its counters, its image, its flush to MRAM (R484 to R492). -/
namespace Sys2Proof.Machine
open Sys2Proof

/-- A counter of `n` bytes at `off` of the live image advanced by `k`, saturating (R484). -/
def Half.lifeAdd (H : Half) (off n k : Nat) : Half :=
  { H with life := { H.life with image := H.life.image.writeBytes off (leBytes n (satBits (8 * n) (H.life.image.readNat off n + k))) } }
def Half.lifePut (H : Half) (off n v : Nat) : Half :=
  { H with life := { H.life with image := H.life.image.writeBytes off (leBytes n v) } }
/-- A bit of a bit map of the live image set. -/
def Half.lifeBit (H : Half) (off i : Nat) : Half :=
  H.lifePut (off + i / 8) 1 (H.life.image.readNat (off + i / 8) 1 ||| 2 ^ (i % 8))
def State.lifeAdd (s : State) (h : HalfId) (off n k : Nat) : State := s.putHalf h ((s.half h).lifeAdd off n k)
/-- A flush of the image is due (R490). -/
def Half.lifeDue (H : Half) : Half := { H with life := { H.life with due := true } }

/-- The fixed fields of the image of a half (R484). -/
def lifeFixed (h : HalfId) (m : Mem) : Mem :=
  (m.writeBytes 0 ("DNLIFE01".toList.map (fun c => BitVec.ofNat 8 c.toNat))).writeBytes 0x10 (leBytes 2 0x0256 ++ leBytes 1 0xA1 ++ leBytes 1 (halfNo h) ++
    leBytes 1 1)
/-- The 4,096 bytes of a live image, its CRC computed over it (R492). -/
def lifeBytes (h : HalfId) (m : Mem) : Bytes :=
  let b := (lifeFixed h m).readBytes 0 0xFFC
  b ++ leBytes 4 (crc32 b)
/-- Whether an image is a valid one of half `h` (R488). -/
def lifeValid (h : HalfId) (b : Bytes) : Bool :=
  decide (b.length = 4096) && decide (b.take 8 = "DNLIFE01".toList.map (fun c => BitVec.ofNat 8 c.toNat)) && decide (leAt b 0x10 2 = 0x0256) &&
    decide (leAt b 0x13 1 = halfNo h) && decide (leAt b 0xFFC 4 = crc32 (b.take 0xFFC))
/-- A flush (R490): GEN + 1 and the image to the older generation, and the copy for the peer's mirror (R491). `safe` is
DRAIN_SAFE. -/
def Half.flush (H : Half) (h : HalfId) (safe : Bool) : Half :=
  let gen := H.life.gen + 1
  let m := (H.life.image.writeBytes 8 (leBytes 8 gen)).writeBytes 0x15 (leBytes 1 safe.toNat)
  let b := lifeBytes h m
  let age (k : Nat) : Nat := match Sparse.get noImage H.life.mram k with
    | some x => if lifeValid h x then leAt x 8 8 + 1 else 0
    | none => 0
  let k := if age 0 ≤ age 1 then 0 else 1
  { H with life := { H.life with image := m, gen := gen, mram := Sparse.set noImage H.life.mram k (some b), due := false,
                                 toMirror := some b, mirrorOk := false } }
def State.flush (s : State) (h : HalfId) (safe : Bool) : State := s.putHalf h ((s.half h).flush h safe)
/-- The newer of two images, where each is present and valid. -/
def newerLife (h : HalfId) (a b : Option Bytes) : Option Bytes :=
  let ok (x : Option Bytes) : Option Bytes := match x with | some y => if lifeValid h y then some y else none | none => none
  match ok a, ok b with
  | some x, some y => if leAt x 8 8 < leAt y 8 8 then some y else some x
  | some x, none => some x
  | none, y => y

/-- T_half in 0.125 °C (R475): the highest reading of the sensors that have not failed, a free value where every one has
(the manual gives none for that). -/
def Half.thalf (H : Half) : Int :=
  let l := ((List.range 32).map (fun i => Sparse.get thermalReset H.mon.thermal i)).filter (fun m => !m.failed)
  match l with
  | [] => signed 16 (Config.freeNat 0)
  | m :: t => t.foldl (fun x y => max x y.value) m.value

end Sys2Proof.Machine
end

