-- ==== Sys2Proof/Machine/Admission.lean ====
section
/-! DEFINITION. Timing blocks and their limits (R33 to R35, R269, R565), slots and admission (R67, R68, R73, R74, R78), and the
capacity checks of a half (R196, R197, R249, R279, R387). -/
namespace Sys2Proof.Machine
open Sys2Proof

/-- A field of the LANE_START block (R433). -/
def bDot (b : Bytes) : Nat := leAt b 0x06 1
def bCpu (b : Bytes) : Nat := leAt b 0x07 1
def bLclk (b : Bytes) : Nat := leAt b 0x08 4
def bHact (b : Bytes) : Nat := leAt b 0x0C 2
def bHtot (b : Bytes) : Nat := leAt b 0x0E 2
def bVact (b : Bytes) : Nat := leAt b 0x10 2
def bVtot (b : Bytes) : Nat := leAt b 0x12 2
def bSnd (b : Bytes) : Nat := leAt b 0x18 4
/-- LL and LF of a block (R36). -/
def bLl (b : Bytes) : Nat := bHtot b * bDot b
def bLf (b : Bytes) : Nat := bLl b * bVtot b
/-- The frame rate of a block in hertz. -/
def bRate (b : Bytes) : Rat := (bLclk b : Rat) / (bLf b : Rat)

/-- The first timing limit that a block breaks: DETAIL of BAD_TIMING (R33, R269, R434, R565). -/
def badTiming (b : Bytes) (lead : Nat) : Option Nat :=
  let f := bLclk b
  let limits : List (Bool × Nat) :=
    [(decide (4000000 ≤ f) && decide (f ≤ 600000000), 0x08), (decide (1 ≤ bDot b) && decide (bDot b ≤ 16), 0x06),
     (decide (f ≤ 300000000 * bDot b), 0x08), (decide (1 ≤ bCpu b) && decide (bCpu b ≤ 64), 0x07),
     (decide (128 ≤ bHact b) && decide (bHact b ≤ 1920) && decide (bHact b % 16 = 0), 0x0C),
     (decide (96 ≤ bVact b) && decide (bVact b ≤ 1200) && decide (bVact b % 8 = 0), 0x10),
     (decide (bHact b + 64 ≤ bHtot b) && decide (bHtot b ≤ 4096), 0x0E), (decide (bVact b + 8 ≤ bVtot b) && decide (bVtot b ≤ 2048), 0x12),
     (decide (23976 * bLf b ≤ 1000 * f) && decide (f ≤ 240 * bLf b), 0x08), (decide (bLf b % bCpu b = 0), 0x07),
     (decide (64 ≤ bSnd b) && decide (8000 * bSnd b ≤ f) && decide (f ≤ 96000 * bSnd b), 0x18),
     (decide (1 ≤ lead) && decide (lead ≤ 64) && decide (lead < bVtot b - bVact b), 0x15)]
  (limits.find? (fun p => !p.1)).map (·.2)

/-- The synthesiser words of a requested LCLK, as LSYS_SYNTH holds them, LOCKED 1 (R35). -/
def synthOf (f : Nat) : Word :=
  let post := max 4 (ceilDiv 1400000000 f)
  let vco := 2 * post * f
  let frac := (vco % 25000000 * 2 ^ 25 + 25000000) / 50000000
  w64 (if frac = 2 ^ 24 then (vco / 25000000 + 1) * 2 ^ 24 + post * 2 ^ 32 + 2 ^ 41 else frac + vco / 25000000 * 2 ^ 24 + post * 2 ^ 32 + 2 ^ 41)
/-- The timing of a block from VT `v0` on; `old` are LL, LF and DOTDIV below `v0`. -/
def timingOf (b : Bytes) (v0 n0 k0 : Nat) (old : Nat × Nat × Nat) : Timing :=
  { hact := bHact b, htot := bHtot b, vact := bVact b, vtot := bVtot b, dotdiv := bDot b, cpudiv := bCpu b, lclk := bLclk b, v0 := v0,
    n0 := n0, k0 := k0, oldLl := old.1, oldLf := old.2.1, oldDot := old.2.2 }
/-- RAS_TIMING (R173). -/
def rasTiming (b : Bytes) : Word := w64 (bHact b + bHtot b * 2 ^ 16 + bVact b * 2 ^ 32 + bVtot b * 2 ^ 48)

/-- The slots that thread `t` of a block needs (R67, R434). -/
def slotsFor (b : Bytes) (t : Nat) : Nat :=
  let rate := leAt b (0x24 + 4 * t) 4
  let den := 1200000000
  if leAt b 4 1 % 2 = 0 then max 1 (ceilDiv (9 * rate) den)
  else if rate * bCpu b ≤ bLclk b then max 1 (ceilDiv (9 * bLclk b) (den * bCpu b)) else max 1 (ceilDiv (9 * rate) den)
def slotNeeds (b : Bytes) : List Nat := (List.range (leAt b 5 1)).map (slotsFor b)

/-- The distance of two positions around the table (R74). -/
def posDist (p q : Nat) : Nat := let d := if p ≤ q then q - p else p - q; min d (16 - d)
/-- The sets of `k` free positions that keep the spacing rule. -/
def positionSets : Nat → List Nat → List (List Nat)
  | 0, _ => [[]]
  | k + 1, free => (positionSets k free).flatMap (fun ps =>
      (free.filter (fun p => ps.all (fun q => decide (q < p) && decide (5 ≤ posDist p q)))).map (fun p => ps ++ [p]))
/-- Positions for every thread of a list of needs, if there are any. -/
def placeThreads : List Nat → List Nat → Option (List (List Nat))
  | [], _ => some []
  | k :: ks, free => (positionSets k free).findSome? (fun ps => (placeThreads ks (free.filter (fun p => !ps.contains p))).map (fun r => ps :: r))

/-- Where a lane's threads go: the logical core, the contexts and the positions of each. -/
structure Seats where
  core : Nat
  ctxs : List Nat
  pos : List (List Nat)

/-- The free contexts and positions of a logical core. -/
def Half.freeCtxs (H : Half) (c : Nat) : List Nat := (List.range 14).filter (fun x => decide (Sparse.get noCtx H.ctxs (16 * c + x) = 0))
def Half.freePos (H : Half) (c : Nat) : List Nat :=
  (List.range 16).filter (fun p => decide (p ≠ 0) && decide (p ≠ 8) && decide (Sparse.get slotReset H.slots (16 * c + p) = 0))
/-- A lane's threads seated. -/
def Half.seat (H : Half) (l : Nat) (z : Seats) : Half :=
  let put (H : Half) (q : (Nat × List Nat) × Nat) : Half :=
    { H with ctxs := Sparse.set noCtx H.ctxs (16 * z.core + q.1.1) (4 * l + q.2 + 1),
             slots := q.1.2.foldl (fun m p => Sparse.set slotReset m (16 * z.core + p) (q.1.1 + 1)) H.slots }
  (z.ctxs.zip z.pos).zipIdx.foldl put H

/-- Whether a lane holds an allocation. -/
def Lane.allocated (L : Lane) : Bool := decide (L.phase ≠ .stopped)
/-- The lanes of a half that hold an allocation, by index. -/
def Half.held (H : Half) : List (Nat × Lane) := H.lanes.filter (fun p => p.2.allocated)
/-- The capacity C of a line (R196). -/
def lineCapacity (b : Bytes) : Nat :=
  let n := (bLl b - 16) * 1000000000 - 1280 * bLclk b
  if bLclk b ≤ 100000000 then n / 1000000000 else n / (10 * bLclk b)
/-- Fetch traffic of a block in bytes per second: the raster's, and with the sound's (R197, R279). -/
def rasterTraffic (b : Bytes) : Rat := ((leAt b 0x1C 2 * 64 * bVact b : Nat) : Rat) * bRate b
def fetchTraffic (b : Bytes) : Rat := rasterTraffic b + ((leAt b 0x1E 2 * 64 * bVtot b : Nat) : Rat) * bRate b
def Half.traffic (H : Half) (f : Bytes → Rat) (except : Nat) : Rat :=
  H.held.foldl (fun x p => if p.1 = except then x else x + f p.2.block) 0
/-- The rule of R197 and R279 that a block breaks on lane index `i`. -/
def Half.overFetch (H : Half) (i : Nat) (b : Bytes) : Option Nat :=
  let a := leAt b 0x1C 2
  if lineCapacity b < a ∨ 640000000000 < H.traffic rasterTraffic i + rasterTraffic b then some 197
  else if lineCapacity b < a + leAt b 0x1E 2 ∨ 640000000000 < H.traffic fetchTraffic i + fetchTraffic b then some 279
  else none
/-- The bytes of a lane's allocation (R387). -/
def allocBytes (b : Bytes) : Nat := 2 ^ 27 + 2 ^ 19 + 2 ^ 20 + 2 ^ 20 + leAt b 0x20 2 * 4096
/-- The tap ring of a lane, in bytes (R245). -/
def Lane.tapBytes (L : Lane) : Nat :=
  let c := Sparse.get laneReset L.op.act 0x18800
  if bit c 0 then (bits c 4 4 + 1) * bits c 48 16 * 4096 else 0
/-- What the lanes, titles, tap rings and images in staging take of the 46 GiB of the allocation pool (R386). -/
def Half.poolTaken (H : Half) : Nat :=
  H.held.foldl (fun n p => n + allocBytes p.2.block + p.2.tapBytes + (match p.2.snap with
      | some z => (match z.image with | some i => i.length | none => 0)
      | none => 0)) 0 +
    H.titles.foldl (fun n p => n + (match p.2 with | some t => t.data.length | none => 0)) 0
def Half.poolFree (H : Half) : Nat := 46 * 2 ^ 30 - H.poolTaken
/-- Whether a near SRAM bank, or a unit of another kind, is retired (R454, R567). -/
def Half.isRetired (H : Half) (u : UnitKind) (i : Nat) : Bool := H.sp.retired.contains (u, i)

/-- The physical unit of a lane index, and the physical core of a logical one (R16). -/
def luDefault (h : HalfId) (n : Nat) : Nat := if h = .east then n else 132 + n
def coreDefault (c : Nat) : Nat := c
def Half.luOf (H : Half) (h : HalfId) (n : Nat) : Nat := Sparse.get (luDefault h) H.sp.luMap n
def Half.coreOf (H : Half) (c : Nat) : Nat := Sparse.get coreDefault H.sp.coreMap c
/-- Whether a logical core's physical core is in service: neither retired nor under test (one that waits for its swap is in service). -/
def Half.coreUsable (H : Half) (c : Nat) : Bool :=
  !H.isRetired .core (H.coreOf c) &&
    !(H.sp.spareCore.isNone && H.sp.tests.any (fun t => decide (t.kind = .core) && decide (t.idx = H.coreOf c)))
/-- Admission to the first core that has room (R68; the choice among cores that qualify is the model's). -/
def Half.seats (H : Half) (needs : List Nat) : Option Seats :=
  if needs.any (fun k => decide (3 < k)) then none
  else (List.range 16).findSome? (fun c =>
    if (H.freeCtxs c).length < needs.length || !H.coreUsable c then none
    else (placeThreads needs (H.freePos c)).map (fun ps => { core := c, ctxs := (H.freeCtxs c).take needs.length, pos := ps }))
/-- The lane index that a physical lane unit serves, and the logical core that a physical core acts as. -/
def Half.indexOf (H : Half) (h : HalfId) (u : Nat) : Option Nat := (List.range 128).find? (fun n => decide (H.luOf h n = u))
def Half.logicalOf (H : Half) (p : Nat) : Option Nat := (List.range 16).find? (fun c => decide (H.coreOf c = p))
/-- The lane of the device at index `n` of a half. -/
def laneNo (h : HalfId) (n : Nat) : Nat := 128 * halfNo h + n
/-- Whether lane `l` holds game-thread contexts (SVC_LU_MAP.ADMITTED). -/
def Half.admitted (H : Half) (l : Nat) : Bool := H.ctxs.any (fun p => decide (p.2 ≠ 0) && decide ((p.2 - 1) / 4 = l))
/-- SVC_LU_MAP of a lane index (R16). -/
def Half.luMapReg (H : Half) (h : HalfId) (n : Nat) : Nat :=
  let L := H.lane n
  let moving := match H.sp.handoff with | some (l, _) => decide (l = laneNo h n) | none => false
  H.luOf h n + (if H.admitted (laneNo h n) then L.core * 2 ^ 9 + 2 ^ 30 else 0) + (if moving then 0 else 2 ^ 31)

end Sys2Proof.Machine
end

