-- ==== Sys2Proof/Machine/BlitterOps.lean ====
section
/-! DEFINITION. The blitter: checks, groups, pixels and timing of an operation (R255 to R266). -/
namespace Sys2Proof.Machine

/-- Fields of the latched registers (R268). -/
def BltOp.op (o : BltOp) : Nat := bits o.ctl 1 2
def BltOp.bpp (o : BltOp) : Nat := bits o.ctl 4 2
/-- B, the bytes of a pixel (R257). -/
def BltOp.bytes (o : BltOp) : Nat := 2 ^ o.bpp
def BltOp.w (o : BltOp) : Nat := bits o.size 0 13 + 1
def BltOp.h (o : BltOp) : Nat := bits o.size 16 13 + 1
def BltOp.spitch (o : BltOp) : Nat := bits o.pitch 0 24
def BltOp.dpitch (o : BltOp) : Nat := bits o.pitch 32 24
/-- n, the bytes of a row (R260). -/
def BltOp.row (o : BltOp) : Nat := o.w * o.bytes

/-- The window that holds `n` bytes at `a` whole, of those a source may lie in (R259). -/
def bltWindow (titleLen a n : Nat) : Option Window :=
  match windowOf a with
  | .work => if a + n ≤ 0x14000000 then some .work else none
  | .video => if a + n ≤ 0x24000000 then some .video else none
  | .title => if a + n ≤ 0x40000000 + titleLen then some .title else none
  | .near | .regs | .outside => none
/-- Whether every row from `a` with pitch `p` lies in one window, of `ok` ones (R259). -/
def bltRowsOk (titleLen a p n h : Nat) (ok : Window → Bool) : Bool :=
  match bltWindow titleLen a n with
  | none => false
  | some w => ok w && (List.range h).all (fun r => decide (bltWindow titleLen (a + r * p) n = some w))
/-- The error code of an operation (R259). -/
def BltOp.check (o : BltOp) (titleLen : Nat) : Nat :=
  let b := o.bytes
  let fill := decide (o.op = 1)
  if o.op = 3 ∨ o.bpp = 3 then 1
  else if o.dst % b ≠ 0 ∨ o.dpitch % b ≠ 0 ∨ (fill = false ∧ (o.src % b ≠ 0 ∨ o.spitch % b ≠ 0)) then 2
  else if fill = false ∧ bltRowsOk titleLen o.src o.spitch o.row o.h (fun _ => true) = false then 3
  else if bltRowsOk titleLen o.dst o.dpitch o.row o.h (fun w => decide (w = .work) || decide (w = .video)) = false then 4
  else 0

/-- The 64-byte lines that row `r` of the destination touches (R260). -/
def BltOp.rowLines (o : BltOp) (r : Nat) : Nat :=
  let d0 := o.dst + r * o.dpitch
  (d0 + o.row - 1) / 64 + 1 - d0 / 64
/-- G (R262). -/
def BltOp.count (o : BltOp) : Nat := (List.range o.h).foldl (fun g r => g + o.rowLines r) 0

/-- The group of index `k` in the order of R260: its row, and the first byte j and the number of bytes of J. -/
def BltOp.find (o : BltOp) : Nat → List Nat → Option (Nat × Nat × Nat)
  | _, [] => none
  | k, r :: rest =>
    let n := o.rowLines r
    if k < n then
      let d0 := o.dst + r * o.dpitch
      let line := d0 / 64 + (if bit o.ctl 6 then n - 1 - k else k)
      let lo := max d0 (64 * line)
      let hi := min (d0 + o.row) (64 * line + 64)
      some (r, lo - d0, hi - lo)
    else o.find (k - n) rest
def BltOp.group (o : BltOp) (k : Nat) : Option (Nat × Nat × Nat) :=
  o.find k (if bit o.ctl 7 then (List.range o.h).reverse else List.range o.h)

/-- ROP on `b` bits (R258). -/
def bltRop (rop : Nat) : Nat → Nat → Nat → Nat
  | 0, _, _ => 0
  | n + 1, s, d => (rop.testBit (2 * (s % 2) + d % 2)).toNat + 2 * bltRop rop n (s / 2) (d / 2)

/-- The bytes that one pixel writes, from its source and destination bytes (R257): none for a keyed pixel. -/
def BltOp.pixel (o : BltOp) (src dst : Bytes) : Option Bytes :=
  let b := o.bytes
  let n := 8 * b
  let s := if o.op = 1 then bits o.fill 0 n else leNat src
  if o.op = 2 ∧ s = bits o.key 0 n then none
  else some (leBytes b (bltRop (bits o.ctl 8 4) n s (leNat dst)))

/-- The writes of group `k`, pixel by pixel, where `rd` reads a byte of the lane as the operation sees it (R260). -/
def BltOp.run (o : BltOp) (rd : Nat → Byte) (k : Nat) : List (Nat × Bytes) :=
  match o.group k with
  | none => []
  | some (r, j0, n) =>
    let b := o.bytes
    let get (a : Nat) : Bytes := (List.range b).map (fun i => rd (a + i))
    (List.range (n / b)).filterMap (fun p =>
      let j := j0 + p * b
      let d := o.dst + r * o.dpitch + j
      (o.pixel (get (o.src + r * o.spitch + j)) (get d)).map (fun x => (d, x)))

/-- A byte under the writes of a list, the later ones last. -/
def overWrites (ws : List (Nat × Bytes)) (a : Nat) (b : Byte) : Byte :=
  ws.foldl (fun b w => if w.1 ≤ a ∧ a < w.1 + w.2.length then w.2.getD (a - w.1) 0 else b) b

/-- The operation that a START at VT `s` makes from the registers (R255, R259, R262). -/
def LaneUnit.newBlt (u : LaneUnit) (s cpudiv titleLen : Nat) : BltOp :=
  let o : BltOp := { ctl := u.reg 0x33000, src := bits (u.reg 0x33008) 0 40, dst := bits (u.reg 0x33010) 0 40, size := u.reg 0x33018,
                     pitch := u.reg 0x33020, fill := u.reg 0x33028, key := u.reg 0x3302C, s := s, e := s, groups := 0,
                     next := 0, err := 0, writes := [] }
  let k := o.check titleLen
  if k = 0 then { o with groups := o.count, e := s + cpudiv * (32 + 2 * o.count) } else { o with err := k }

/-- Whether an operation's groups have all run: in normal mode it is then over (R266). -/
def BltOp.done (o : BltOp) : Bool := decide (o.groups ≤ o.next)

end Sys2Proof.Machine
end

