-- ==== Sys2Proof/Machine/BeamRegs.lean ====
section
/-! DEFINITION. The registers of the beam-side windows: what a write does at its dot and what a read returns there
(R6, R42 to R44, R51, R66, R153, R155, R161, R202, R225, R236, R238, R253, R256, R273, R288). -/
namespace Sys2Proof.Machine

/-- The event VT of a Beam-derived source whose dot lies at VT `d` (R154). -/
def Lane.beamEvent (L : Lane) (d : Nat) : Nat := L.tm.milVt (L.tm.milIndex d) + (L.runahead + 1) * L.tm.ll
/-- A Beam-derived source arises for VT `d`; in normal mode it reaches the controller now (R156). -/
def Lane.raiseBeam (L : Lane) (n d : Nat) : Lane :=
  { L with unit := { L.unit with lic := L.unit.lic.raise n (if L.det then L.beamEvent d else L.bvt) } }
/-- A source arises with event VT `e`. -/
def Lane.raiseAt (L : Lane) (n e : Nat) : Lane :=
  { L with unit := { L.unit with lic := L.unit.lic.raise n (if L.det then e else L.bvt) } }

/-- The pass whose raster and compositor registers a thread observes: the tailrace pass of a late frame, else the beam
(R56). -/
def Lane.exactRas (L : Lane) : Ras := L.tail.getD L.unit.ras
/-- The exact pass replaced. -/
def Lane.setExact (L : Lane) (r : Ras) : Lane :=
  match L.tail with
  | some _ => { L with tail := some r }
  | none => { L with unit := { L.unit with ras := r } }

/-- COMMIT_LEAD (R254), and VC of the boundary that follows VT `d` (R236). -/
def Ras.lead (r : Ras) : Nat := bits (r.reg 0x10020) 8 8
def Ras.windowClose (r : Ras) (tm : Timing) (d : Nat) : Nat := tm.nextBoundary d - r.lead * tm.ll
/-- A commit request at VT `d` (R236, R238): the pass, and whether it is late. -/
def Ras.request (r : Ras) (tm : Timing) (d : Nat) : Ras × Bool :=
  let late := decide (r.windowClose tm d ≤ d)
  let v := putBit (r.reg 0x10020) 0 true
  ({ r.setReg 0x10020 (if late then putBit v 1 true else v) with reqs := r.reqs ++ [d] }, late)

/-- The results of lane-side windows whose dot lies at or below `d` shown in CPS_SIG_RES and MISMATCH (R229, R253). -/
def Ras.showSigs (r : Ras) (d : Nat) : Ras :=
  (r.sigs.filter (fun s => decide (s.1 ≤ d))).foldl (fun r s =>
    let q := r.setReg (0x10070 + 4 * s.2.1) (w64 s.2.2.1)
    if s.2.2.2 then q.setReg 0x10080 (putBit (q.reg 0x10080) s.2.1 true) else q)
    { r with sigs := r.sigs.filter (fun s => !decide (s.1 ≤ d)) }
/-- A write of the raster or lane-side compositor window at VT `d` (R6): the pass, and whether a late request was made. A window's result that
shows at that dot comes after the write, and bits that a group set at it stay 1 (R7, R227). -/
def Ras.store (r : Ras) (tm : Timing) (d off v : Nat) : Ras × Bool :=
  let r := if off = 0x10080 then r.showSigs (d - 1) else r
  match findReg (rasterMap ++ compositorMap) off with
  | some (k, _) =>
    let w := k.write (r.reg off) (w64 v)
    let q := r.setReg off (if off = 0x328 ∧ d = r.llAt then w ||| r.llBits else w)
    if off = 0x10020 ∧ v.testBit 0 then q.request tm d else (q, false)
  | none => (r, false)

/-- A write of RAS_OPQ[j] marks every tile of its region pending (R202). -/
def Lane.markRegion (L : Lane) (j v : Nat) : Lane :=
  let n := bits (w64 v) 32 16 + 1
  { L with opqPend := L.opqPend.filter (fun p => decide (p / 65536 ≠ j)) ++ (List.range n).map (· + 65536 * j) }

/-- A raster or compositor write (R42, R54, R56): in a late frame the lane unit holds it at once and the tailrace pass
still applies it at its dot. -/
def Lane.storeRas (L : Lane) (e : BeamEntry) (d : Nat) : Lane :=
  let r := L.unit.ras.store L.tm d e.off e.data
  let A := { L with unit := { L.unit with ras := r.1 } }
  let A := if 0x200 ≤ e.off ∧ e.off < 0x210 then A.markRegion ((e.off - 0x200) / 8) e.data else A
  match L.tail with
  | some _ => { A with tailWr := A.tailWr ++ [e] }
  | none => if r.2 then A.raiseBeam 32 d else A

/-- A write of the sound window (R281, R288, R291). -/
def LaneUnit.storeSnd (u : LaneUnit) (d off v : Nat) : LaneUnit :=
  let g := u.reg 0x21008
  let m := w64 v &&& 0x0000FFFFFFFFFFFF
  if off = 0x21050 then u.setReg 0x21008 (g ||| m)
  else if off = 0x21058 then u.setReg 0x21008 (g &&& ~~~ m)
  else match findReg soundMap off with
    | none => u
    | some (k, _) =>
      let old := u.reg off
      let new := k.write old (w64 v)
      let u := u.setReg off new
      if off = 0x21040 ∧ (bits old 6 20 ≠ bits new 6 20 ∨ bits old 32 16 ≠ bits new 32 16) then
        { u with snd := { u.snd with w := 0, dL := 0, dR := 0 } }
      else if off = 0x21010 then
        { u with snd := { u.snd with retrig := (d, if u.snd.retrig.1 = d then u.snd.retrig.2 ||| w64 v else w64 v) } }
      else u

/-- SND_STAT shows the cut of a line (R278). -/
def LaneUnit.showCut (u : LaneUnit) (line : Nat) : LaneUnit :=
  u.setReg 0x210C8 (putBits (putBit (u.reg 0x210C8) 0 true) 16 13 line)
/-- The cuts of the lines whose milestone lies below `d` shown in SND_STAT. -/
def Lane.showCuts (L : Lane) (d : Nat) : Lane :=
  let due (x : SndLine) : Bool := !x.shown && decide (x.mil < d)
  let u := (L.unit.snd.lines.filter due).foldl (fun u x => if x.cut ≠ 0 then u.showCut (L.tm.lineAt x.mil) else u) L.unit
  { L with unit := { u with snd := { u.snd with lines := u.snd.lines.map (fun x => if due x then { x with shown := true } else x) } } }

/-- The VT whose state the need of the sound fetch of the line at milestone `m` is taken from (R176, R277, R278): DEDUCED, the 16 LCLK
periods into the line before it from which R176 lets the fetch start, so that the cut is the same on every run. -/
def Lane.planPoint (L : Lane) (m : Nat) : Nat :=
  let k := L.tm.milIndex m
  if k = 0 then 0 else L.tm.milVt (k - 1) + 16
/-- The next line's need and cut fixed from the present state. -/
def Lane.planLine (L : Lane) : Lane :=
  let s := L.unit.snd
  let m := s.nextPlan
  let c := soundCut L.unit.reg (ceilDiv L.tm.ll (bits (L.unit.reg 0x21000) 0 17)) (bits (L.unit.reg 0x210C0) 0 16) s.voices
  { L with unit := { L.unit with snd := { s with plans := s.plans ++ [{ mil := m, cut := c.1, need := c.2 }],
                                                 nextPlan := L.milVt (L.tm.milIndex m + 1) } } }
/-- The lines whose state is about to pass planned: before a write at VT `v`, or before a tick there. In normal mode the state is that
at the start of the fetch itself. -/
def Lane.planTo (L : Lane) (v : Nat) (tick : Bool) : Lane :=
  if !L.det then L else
  (List.range (L.tm.milIndex v + 2 - L.tm.milIndex L.unit.snd.nextPlan)).foldl (fun A _ =>
    let p := A.planPoint A.unit.snd.nextPlan
    if p < v ∨ (tick = true ∧ p = v) then A.planLine else A) L

/-- Whether more than one thread of a deterministic lane is active (R155). -/
def Lane.several (L : Lane) : Bool := L.det && decide (2 ≤ (L.threads.filter (·.active)).length)
/-- The VT from which the other threads' deliveries see an LIC write stamped `s` that applies at `d` (R155, R156). -/
def Lane.otherFrom (L : Lane) (s d : Nat) : Nat := if L.several then L.milVt (L.tm.milIndex s + 2) else d
/-- The writer whose own deliveries see it earlier. -/
def Lane.licWriter (L : Lane) (t : Nat) : Option Nat := if L.several then some t else none
/-- The VT up to which no delivery looks back any more. -/
def Lane.licOld (L : Lane) : Nat := L.floor - 70 * L.cpu
def Lane.setLic (L : Lane) (c : Lic) : Lane := { L with unit := { L.unit with lic := c } }

/-- A write of LIC_PEND_SET (R51, R154): a source whose target is another thread waits for its milestone. -/
def Lane.pendSet (L : Lane) (t s d v : Nat) : Lane :=
  ((List.range 8).map (· + 48)).foldl (fun A n =>
    if !v.testBit n then A
    else if A.det && decide (A.unit.lic.reg.target n ≠ t) then
      { A with cross := A.cross ++ [{ mil := A.tm.milIndex s + 2, start := none, source := some n }] }
    else A.raiseAt n d) L

/-- A write of the LIC window by thread `t` (R146, R147, R153, R155). -/
def Lane.storeLic (L : Lane) (t s d off v : Nat) : Lane :=
  let c := (L.unit.lic.mark d).trim L.licOld
  let w := L.licWriter t
  let o := L.otherFrom s d
  match licOpOf off v with
  | some op => L.setLic (c.change op w d o L.licOld)
  | none =>
    if off = 0x118 then
      let k := c.clearPend (w64 v) w (if L.det then d else d + 1) o
      L.setLic (if L.det then k else { k with lagPend := c.lagPend })
    else if off = 0x120 then L.pendSet t s d v
    else if off = 0x150 then L.setLic (c.eoi (v % 64) w d o)
    else L

/-- A write of the timer window (R158 to R169). -/
def Lane.storeTim (L : Lane) (d off v : Nat) : Lane :=
  { L with unit := { L.unit with tim := L.unit.tim.write off v d } }

/-- A request to start thread `k` (R51, R66): it takes effect at the second milestone after the stamp. -/
def Lane.askStart (L : Lane) (w k s : Nat) : Lane :=
  if w = k then L else { L with cross := L.cross ++ [{ mil := L.tm.milIndex s + 2, start := some k, source := none }] }
/-- The end of thread `k` by its own EXIT (R66). -/
def Lane.endThread (L : Lane) (w k : Nat) : Lane :=
  if w = k ∧ k ≠ 0 then L.setThread k { L.thread k with active := false, waiting := false } else L
/-- A write of LSYS_THR_CTL[k] by thread `w`; its EXIT has acted as it issued (R66). -/
def Lane.storeThr (L : Lane) (w k s v : Nat) : Lane :=
  if v.testBit 0 then L.askStart w k s else L

/-- Whether an input of the lane sets the CHANGE bit at a pad-window offset at VT `d` itself: a write of 1 there leaves it at 1 (R7,
R308, R363, R380). -/
def Lane.changedAt (L : Lane) (off d : Nat) : Bool :=
  L.inputs.any (fun i => i.applied && decide (i.vt = d) &&
    ((decide (i.kind = 1) && decide (off = 0x32010 + 0x20 * i.slot)) || (decide (i.kind = 2) && decide (off = 0x32100 + 4 * i.slot)) ||
     (decide (i.kind = 3) && decide (off = 0x32110))))
/-- The end of an operation (R268): DONE, BLT_VEND and source 34. -/
def Lane.bltFinish (L : Lane) (o : BltOp) : Lane :=
  let st := L.unit.reg 0x33030
  let u := (L.unit.setReg 0x33030 (putBits st 32 16 (bits st 32 16 + 1))).setReg 0x33038 (w64 o.e)
  { L with unit := { u with blt := none, bltWas := if o.s < o.e then (o.s, o.e) else u.bltWas } }.raiseBeam 34 o.e
/-- A START that applies at VT `d` (R255, R256, R259): refused while an operation runs; one that fails its checks ends at once. -/
def Lane.bltStart (L : Lane) (d : Nat) : Lane :=
  let A := match L.unit.blt with
    | some o => if !L.det && o.done then L.bltFinish o else L
    | none => L
  if A.unit.blt.isSome then { A with unit := A.unit.setReg 0x33030 (putBit (A.unit.reg 0x33030) 1 true) }
  else
    let o := A.unit.newBlt d A.cpu A.titleLen
    let u := A.unit.setReg 0x33030 (putBits (putBits (A.unit.reg 0x33030) 4 3 o.err) 8 24 (satBits 24 o.groups))
    if o.err ≠ 0 then { A with unit := u }.bltFinish o else { A with unit := { u with blt := some o } }
/-- A write of the blitter, pads and lane-system windows (R66, R255, R268, R308, R381). -/
def Lane.storeSmall (L : Lane) (t s d off v : Nat) : Lane :=
  if 0x340C0 ≤ off ∧ off < 0x340E0 then L.storeThr t ((off - 0x340C0) / 8) s v
  else match findReg smallMap off with
    | none => L
    | some (k, _) =>
      let w := if L.changedAt off d then w64 v &&& ~~~ k.w1c else w64 v
      let A : Lane := { L with unit := L.unit.setReg off (k.write (L.unit.reg off) w) }
      if off = 0x33000 ∧ v.testBit 0 then A.bltStart d else A

/-- The effect of an entry of the beam-write queue that is a write, at VT `d` (R42). -/
def Lane.store (L : Lane) (e : BeamEntry) (d : Nat) : Lane :=
  let o := e.off
  if o < 0x20000 then L.storeRas e d
  else if o < 0x30000 then let A := (L.showCuts d).planTo d false; { A with unit := A.unit.storeSnd d o e.data }
  else if o < 0x31000 then (if e.applied then L else L.storeTim d (o - 0x30000) e.data)
  else if o < 0x32000 then (if e.applied then L else L.storeLic e.thread e.stamp d (o - 0x31000) e.data)
  else L.storeSmall e.thread e.stamp d o e.data

/-- An EXIT of thread `t` that has not applied: its ACTIVE still reads 1 (R66). -/
def Lane.exiting (L : Lane) (t : Nat) : Bool :=
  L.queue.any (fun e => decide (e.thread = t) && !e.read && decide (e.off = 0x340C0 + 8 * t) && e.data.testBit 1) ||
    (L.thread t).sb.any (fun e => decide (e.addr = 0xF00340C0 + 8 * t) && (leNat e.data).testBit 1)
/-- Whether the next instruction of a context holds for a load or an unanswered read (R66, R76, R88, R93). -/
def Thread.loadHeld (x : Thread) : Bool :=
  match x.word.bind ndecode with
  | some i => i.regs.any (fun r => r.live && (x.loads.map (·.dest)).contains r) || (match i with
    | .load _ _ _ _ => decide (4 ≤ x.loads.length)
    | .mbar => !x.loads.isEmpty
    | _ => false)
  | none => false
/-- Whether the next instruction of thread `t` holds for the store buffer or for a full beam-write queue (R32, R66, R76). -/
def Lane.storeHeld (L : Lane) (t : Nat) : Bool :=
  let x := L.thread t
  match x.word.bind ndecode with
  | some (.store _ _ base off) => decide (8 ≤ x.sb.length) ||
      (decide (windowOf (effAddr (x.gReg base) off).toNat = .regs) && decide (64 ≤ L.queue.length))
  | some .mbar | some .isync | some (.amo _ _ _ _ _ _) => !x.sb.isEmpty
  | _ => false
/-- LSYS_THR_CTL.STATE (R66): a state of its own for each hold that keeps the thread from issuing; in a slack hold the beam keeps a
thread at its run-ahead. -/
def Lane.threadState (L : Lane) (t : Nat) : Nat :=
  let x := L.thread t
  if !x.active then 0
  else if x.waiting then 2
  else if decide (L.phase = .paused) && (!L.det || decide (L.bvt ≤ x.vt)) then 7
  else if decide (L.hold = .vblank) && (!L.det || decide (L.bvt ≤ x.vt)) && !L.vtCanAt t x.vt then 7
  else if L.det && decide (L.bvt + L.runahead * L.tm.ll < x.vt) then (if L.hold = .slack then 8 else 3)
  else if L.det && !L.barrierOk t x.vt then 6
  else if L.storeHeld t then 5
  else if x.loadHeld then 4
  else 1
/-- LSYS_THR_CTL[t] at VT `d` (R66): a thread that has trapped was active up to the VT at which it did. -/
def Lane.thrCtl (L : Lane) (t d : Nat) : Nat :=
  let x := L.thread t
  (L.cross.any (fun c => decide (c.start = some t))).toNat +
    (x.active || L.exiting t || (L.det && x.trapped && decide (d ≤ x.vt))).toNat * 4 + x.admitted.toNat * 8 + x.slots * 16 + L.threadState t * 256
/-- LSYS_LEAD[t] (R66): 0 in normal mode, where a thread's VT is BVT (R61); a waiting thread counts at BVT. -/
def Lane.leadOf (L : Lane) (t : Nat) : Nat :=
  let x := L.thread t
  if x.active && L.det then unsigned 64 (((if x.waiting then max x.vt L.bvt else x.vt : Nat) : Int) - L.bvt) else 0

/-- LSYS_CTRL (R66). -/
def Lane.sysCtrl (L : Lane) : Nat :=
  L.det.toNat + (decide (L.phase ≠ .stopped) && decide (L.phase ≠ .starting)).toNat * 2 + (decide (L.phase = .paused)).toNat * 4 +
    L.hold.counted.toNat * 8 + (L.unit.reg 0x34000).toNat / 16 * 16

/-- Of a deterministic lane the plans of the lines with a milestone at or before VT `d` whose fetch has not begun: a read at the milestone does not
wait for the fetch (R273). -/
def Lane.planned (L : Lane) (d : Nat) : List SndPlan :=
  let A := if L.planPoint L.unit.snd.nextPlan ≤ L.unit.snd.tick then L.planTo (d + 1) false else L
  A.unit.snd.plans.filter (fun p => L.det && decide (L.unit.snd.nextFetch ≤ p.mil) && decide (p.mil ≤ d))
/-- SND_FETCH at VT `d` (R291): NEED of the latest line whose milestone lies at or before it. -/
def Lane.sndFetch (L : Lane) (d : Nat) : Nat :=
  let w := L.unit.reg 0x210C0
  match ((L.unit.snd.lines.filter (fun x => decide (x.mil ≤ d))).map (·.need) ++ (L.planned d).map (·.need)).getLast? with
  | some n => (putBits w 16 16 (satBits 16 n)).toNat
  | none => w.toNat
/-- SND_STAT at VT `d`: with the cuts of the lines whose milestone lies at or before it. -/
def Lane.sndStat (L : Lane) (d : Nat) : Nat :=
  let u := (L.showCuts (d + 1)).unit
  (((L.planned d).foldl (fun u p => if p.cut ≠ 0 then u.showCut (L.tm.lineAt p.mil) else u) u).reg 0x210C8).toNat
/-- RAS_WIN_STAT at VT `d` (R221). -/
def Ras.winStat (r : Ras) (tm : Timing) (d : Nat) : Nat :=
  let x := tm.dotAt d
  let l := tm.lineAt d
  (List.range 4).foldl (fun a w => a + (winHolds r.reg w x l).toNat * 2 ^ w) 0 +
    (decide (x < tm.hact) && decide (l < tm.vact)).toNat * 16
/-- BLT_STAT for a read of stamp `s` (R262, R266). -/
def Lane.bltStat (L : Lane) (s : Nat) : Nat :=
  let was := L.unit.bltWas
  let busy := (L.det && decide (was.1 ≤ s) && decide (s < was.2)) || (match L.unit.blt with
    | some o => if L.det then decide (o.s ≤ s) && decide (s < o.e) else !o.done
    | none => false)
  (putBit (L.unit.reg 0x33030) 0 busy).toNat
/-- LSYS_BEAM at VT `d` (R36, R66). -/
def Timing.beamWord (t : Timing) (d : Nat) : Nat := t.dotAt d + t.lineAt d * 2 ^ 16 + t.frameAt d % 2 ^ 32 * 2 ^ 32

/-- LSYS_WAKE at VT `d` (R63, R157): CAUSE is that of the latest wake whose input has applied there. -/
def Lane.sysWake (L : Lane) (d : Nat) : Word :=
  (L.inputs.filter (fun i => decide (i.kind = 4) && !i.applied && decide (i.vt ≤ d))).foldl
    (fun w i => putBits w 16 3 (leAt i.data 0 1)) (L.unit.reg 0x34030)

/-- The lane-system and blitter registers for a read of stamp `s` at VT `d`. -/
def Lane.loadSys (L : Lane) (s d off : Nat) : Nat :=
  if off = 0x33000 then (L.unit.reg 0x33000).toNat / 2 * 2 + L.bltStat s % 2
  else if off = 0x33030 then L.bltStat s
  else if off = 0x34000 then L.sysCtrl
  else if off = 0x34010 then s
  else if off = 0x34018 then L.tm.milCount d
  else if off = 0x34020 then L.tm.beamWord d
  else if off = 0x34028 then (putBit (L.unit.reg 0x34028) 0 L.late).toNat
  else if off = 0x34030 then (L.sysWake d).toNat
  else if 0x34040 ≤ off ∧ off < 0x34060 then
    L.leadOf ((off - 0x34040) / 8)
  else if 0x340C0 ≤ off ∧ off < 0x340E0 then L.thrCtl ((off - 0x340C0) / 8) d
  else (L.unit.reg off).toNat

/-- The register at `off` as a read of stamp `s` at VT `d` finds it, live fields included (R44). -/
def Lane.loadReg (L : Lane) (s d off : Nat) : Nat :=
  if off < 0x20000 then
    if off = 0x378 then L.exactRas.winStat L.tm d
    else if off = 0x210 then satBits 17 L.opqPend.length
    else if off = 0x10 ∨ off = 0x18 then
      let live : Word := if off = 0x10 then 0x0000FFFF00000000 else 0xFFFFFFFF00000000
      ((L.exactRas.reg off &&& ~~~ live) ||| (L.unit.ras.reg off &&& live)).toNat
    else ((L.exactRas.showSigs d).reg off).toNat
  else if off < 0x30000 then
    if off = 0x21050 ∨ off = 0x21058 then (L.unit.reg 0x21008).toNat
    else if off = 0x210C0 then L.sndFetch d
    else if off = 0x210C8 then L.sndStat d
    else if off < 0x20C00 ∧ off % 0x40 = 0x28 then voiceStat (Sparse.get voiceReset L.unit.snd.voices ((off - 0x20000) / 0x40))
    else (L.unit.reg off).toNat
  else if off < 0x31000 then (L.unit.tim.read (off - 0x30000)).getD 0
  else if off < 0x32000 then (L.unit.lic.read (off - 0x31000) (if L.det then d else d + 1)).getD 0
  else L.loadSys s d off

/-- What thread `t`'s read of the register at `off` returns: live fields read 0 in deterministic mode (R66, R171); an
offset without a register reads 0 (R65). -/
def Lane.loadThread (L : Lane) (s d off : Nat) : Nat :=
  match findReg threadMap off with
  | none => 0
  | some (k, _) => if L.det then (w64 (L.loadReg s d off) &&& ~~~ k.live).toNat else L.loadReg s d off

/-- The side effects of a thread's read (R167, R168). -/
def Lane.readEffect (L : Lane) (off : Nat) : Lane :=
  let n := (off - 0x30000) / 0x20
  if 0x30000 ≤ off ∧ off < 0x30100 then
    match (off - 0x30000) % 0x20 with
    | 0x04 => { L with unit := { L.unit with tim := L.unit.tim.readCnt n } }
    | 0x10 => { L with unit := { L.unit with tim := L.unit.tim.readCap n } }
    | _ => L
  else L

end Sys2Proof.Machine
end

