-- ==== Sys2Proof/Machine/BeamOps.lean ====
section
/-! DEFINITION. The order in which the lane unit serves its beam-write queue (R42 to R45, R54, R61, R182, R273), the
line-list groups and captures at milestones (R206 to R211, R236), and the tailrace pass's catching up (R56). -/
namespace Sys2Proof.Machine

/-- The order of R43 among accesses: dot, stamp, thread. -/
def Lane.precedes (L : Lane) (a b : BeamEntry) : Bool :=
  decide (L.dotOf a < L.dotOf b) || (decide (L.dotOf a = L.dotOf b) &&
    (decide (a.stamp < b.stamp) || (decide (a.stamp = b.stamp) && decide (a.thread < b.thread))))

/-- Offsets of the evaluation results (R182, R204, R254) and of RAS_STAT and RAS_FETCH. -/
def isEval (off : Nat) : Bool :=
  [0x10, 0x18, 0x308, 0x310, 0x318, 0x328, 0x378, 0x10070, 0x10074, 0x10078, 0x1007C, 0x10080].contains off
/-- The VT of the next dot a pass composes. -/
def Ras.nextVt (r : Ras) (tm : Timing) : Nat := tm.dotVt r.cf r.cl r.cx
/-- Whether a read waits until its dot has been composed (R182). -/
def Lane.evalHeld (L : Lane) (e : BeamEntry) : Bool :=
  L.det && e.read && isEval e.off && !decide (L.dotOf e < L.exactRas.nextVt L.tm)

/-- The entry of a list that comes first, with its place. -/
def Lane.firstEntry (L : Lane) : List (BeamEntry × Nat) → Option (BeamEntry × Nat)
  | [] => none
  | p :: t => match L.firstEntry t with
    | none => some p
    | some q => if L.precedes q.1 p.1 then some q else some p
/-- The entry that the lane unit serves next (R43, R61): the oldest in normal mode; in deterministic mode the first in
order, past reads that wait for the evaluation of the same dot. -/
def Lane.front (L : Lane) : Option (BeamEntry × Nat) :=
  if !L.det then L.queue.head?.map (fun e => (e, 0))
  else match L.firstEntry (L.queue.zipIdx.filter (fun p => !L.evalHeld p.1)) with
    | none => none
    | some p => if L.queue.any (fun e => L.evalHeld e && decide (L.dotOf e < L.dotOf p.1)) then none else some p

/-- Whether nothing that R43 orders before an entry is still to come. -/
def Lane.turn (L : Lane) (e : BeamEntry) : Bool :=
  L.coming.all (fun c => !L.precedes c e) && L.silent (fun u => decide (e.thread ≤ u)) (e.stamp + 1) &&
    L.silent (fun _ => false) e.stamp
/-- Whether the timers stand right before the accesses of VT `d`: its ticks have come, and step 4 of every earlier
period (R160). -/
def Lane.timersAt (L : Lane) (d : Nat) : Bool :=
  let x := L.unit.tim
  (match x.firstTick with | some e => decide (d < e) | none => true) && (!x.owed || decide (x.now = d)) && decide (x.now ≤ d)
/-- LSYS_THR_CTL (R66). -/
def isThrCtl (off : Nat) : Bool := decide (0x340C0 ≤ off) && decide (off < 0x340E0)
/-- Whether the unit that an entry addresses has evaluated everything that comes before it at VT `d`. -/
def Lane.unitAt (L : Lane) (e : BeamEntry) (d : Nat) : Bool :=
  if e.off < 0x20000 then (match L.tail with
    | some r => e.read && (!isEval e.off || decide (d < r.nextVt L.tm)) &&
        L.queue.all (fun q => q.read || decide (0x20000 ≤ q.off) || !L.precedes q e)
    | none => decide (d ≤ L.unit.ras.nextVt L.tm))
  else if e.off < 0x30000 then decide (d ≤ L.unit.snd.tick) && decide (d ≤ L.unit.snd.nextFetch)
  else if clocked e.off then e.applied ||
    (L.fixed d && L.timersAt d && L.vectorsPast (fun u => e.read && decide (u = e.thread)) (min d (e.stamp + 7 * L.cpu)))
  else if e.off < 0x33000 then L.inputs.all (fun i => i.applied || decide (i.kind = 5) || decide (i.kind = 6) || decide (d < i.vt))
  else if e.off < 0x34000 then (match L.unit.blt with
    | some o => decide (d < o.e)
    | none => true)
  else !isThrCtl e.off || L.cross.all (fun c => decide (d < L.milVt c.mil))
/-- The VT at which an entry is served: its dot, or BVT in normal mode; an access to the timers, the LIC or a line compare that comes after the
captures and the compares of that period have begun belongs to the next (R61, R160, R173; DEDUCED, log 133). -/
def Lane.serveVt (L : Lane) (e : BeamEntry) : Nat :=
  if L.det then L.dotOf e
  else if clocked e.off || decide (e.off = 8) || decide (e.off = 0xC) then max L.bvt L.unit.tim.closed else L.bvt
/-- Whether the lane unit can serve an entry: a read waits for a slot of the beam-reply queue (R29, R31). -/
def Lane.canServe (L : Lane) (e : BeamEntry) : Bool :=
  (!e.read || decide (L.replies.length < 8)) && if !L.det then L.beamReach (L.serveVt e) && (!clocked e.off || L.timersAt (L.serveVt e)) && (!isThrCtl e.off || L.cross.all (fun c => decide (L.bvt < L.milVt c.mil))) else (L.turn e && decide (L.dotOf e ≤ L.tm.milVt L.unit.lic.milestones) && L.beamReach (L.dotOf e) && L.unitAt e (L.dotOf e))
/-- Whether an answer is that of an outstanding load. -/
def LoadPend.answers (p : LoadPend) (r : BeamReply) : Bool :=
  p.beam && p.sent && decide (p.stamp = r.stamp) && decide (p.addr - 0xF0000000 = r.off)

/-- In a late frame the beam applies a raster or compositor write at its dot, or, where that has passed, at the first dot after its
arrival, whatever the threads still have to do (R54): the first such entry in the order of R43 whose dot the beam has reached. -/
def Lane.lateWrite (L : Lane) : Option (BeamEntry × Nat) :=
  if L.tail.isNone then none
  else match L.firstEntry (L.queue.zipIdx.filter (fun p => !p.1.read && decide (p.1.off < 0x20000))) with
    | none => none
    | some p =>
      let d := L.dotOf p.1
      if decide (d < L.tm.nextBoundary L.lateAt) && decide (d ≤ L.unit.ras.nextVt L.tm) && L.beamReach d then some p else none

/-- Reads that wait for the evaluation of their dot keep what a later W1C write of the same register, applied to the exact pass `r`,
clears. -/
def Lane.keepCleared (L : Lane) (r : Ras) (e : BeamEntry) : Lane :=
  match findReg (rasterMap ++ compositorMap) e.off with
  | none => L
  | some (k, _) =>
    let lost := ((r.showSigs (L.dotOf e - 1)).reg e.off &&& k.w1c &&& w64 e.data).toNat
    { L with queue := L.queue.map (fun q => if L.evalHeld q && decide (q.off = e.off) && L.precedes q e then
        { q with data := q.data ||| lost } else q) }

/-- The shadowed registers (R254). -/
def shadowed : List Nat :=
  [0x10000, 0x10008, 0x10010, 0x10018, 0x10040, 0x10048, 0x10050, 0x10058, 0x10060, 0x10064, 0x10068, 0x1006C]
/-- The capture at a milestone at VT `m`, if it closes the window and a request is unserved (R236). -/
def Ras.closeWindow (r : Ras) (tm : Timing) (m : Nat) : Ras :=
  if r.lead ≠ 0 ∧ tm.lineAt m + r.lead = tm.vtot ∧ r.reqs.any (fun d => decide (d < m)) = true then
    { r with capture := some { bound := tm.nextBoundary m, vals := shadowed.map (fun o => (o, r.reg o)) },
             reqs := r.reqs.filter (fun d => decide (m ≤ d)) }
  else r

/-- A bit of RAS_LL_STAT that the group at VT `m` sets (R209). -/
def Ras.llSet (r : Ras) (m b : Nat) : Ras :=
  { r.setReg 0x328 (putBit (r.reg 0x328) b true) with llAt := m, llBits := putBit (if r.llAt = m then r.llBits else 0) b true }
/-- What a group leaves: the pass, how often source 30 arises, and the opacity regions it wrote (R209). -/
structure GroupOut where
  ras : Ras
  irqs : Nat
  marks : List (Nat × Nat)

/-- One entry of a line-list group at VT `m` (R205, R208, R209). -/
def GroupOut.entry (g : GroupOut) (tm : Timing) (m : Nat) (e : LlEntry) : GroupOut :=
  let g := { g with irqs := g.irqs + e.irq.toNat }
  let st (b : Nat) : Ras := g.ras.llSet m b
  match e.kind with
  | 0 => { g with ras := st 34 }
  | 3 => g
  | k =>
    let w := if k = 1 then 4 else 8
    let v := if k = 1 then e.data % 2 ^ 32 else e.data
    match findReg rasterMap e.off with
    | some (d, _) =>
      if d.width = w then
        { g with ras := (g.ras.store tm m e.off v).1,
                 marks := if 0x200 ≤ e.off ∧ e.off < 0x210 then g.marks ++ [((e.off - 0x200) / 8, v)] else g.marks }
      else { g with ras := st 33 }
    | none => if touchesReg rasterMap e.off w then { g with ras := st 33 } else g
/-- The group of milestone index `k` executes (R209): its writes, PTR and TRUNC. -/
def Ras.execGroup (r : Ras) (tm : Timing) (m : Nat) (q : LlGroup) : GroupOut :=
  let g : GroupOut := q.entries.foldl (fun g e => GroupOut.entry g tm m e) { ras := r, irqs := 0, marks := [] }
  let r := g.ras.setReg 0x328 (putBits (g.ras.reg 0x328) 4 22 (q.next / 16))
  { g with ras := if q.trunc then r.llSet m 32 else r }

/-- The fields cleared at a frame boundary (R203, R208): TRAIL, PEAK, RAS_COLL_LINE.VALID, ENDED. -/
def Ras.newFrame (r : Ras) : Ras :=
  (((r.setReg 0x10 (putBits (r.reg 0x10) 32 16 0)).setReg 0x18 (putBits (r.reg 0x18) 48 16 0)).setReg 0x318
    (putBit (r.reg 0x318) 31 false)).setReg 0x328 (putBit (r.reg 0x328) 34 false)
/-- What a pass does at the milestone at VT `m`, of index `k`: the fields of a frame clear in line 0, the window may
close, the group executes (R208, R209, R236). DESIGN CHOICE: a group that a SKIP empties (one without entries) does not execute, so RAS_LL_STAT.PTR
keeps the pointer after the latest group that did, also where the SKIP reaches over line 0; R208 does not say whether it counts as executed. -/
def Ras.atMilestone (r : Ras) (tm : Timing) (k m : Nat) : GroupOut :=
  let r := if tm.lineAt m = 0 then r.newFrame else r
  let r := r.closeWindow tm m
  match r.groups.find? (fun q => decide (q.mil = k)) with
  | some q =>
    let g : GroupOut := if q.entries.isEmpty then { ras := r, irqs := 0, marks := [] } else r.execGroup tm m q
    { g with ras := { g.ras with groups := g.ras.groups.filter (fun q => decide (q.mil ≠ k)) } }
  | none => { ras := r, irqs := 0, marks := [] }

/-- Entries in the order of R43; `n` bounds their number. -/
def Lane.inOrderOf (L : Lane) : Nat → List (BeamEntry × Nat) → List BeamEntry
  | 0, _ => []
  | n + 1, l => match L.firstEntry l with
    | none => []
    | some p => p.1 :: L.inOrderOf n (l.filter (fun q => decide (q.2 ≠ p.2)))

/-- The tailrace pass takes the writes that are due, in the order of R43 (R56). -/
def Lane.tailWrites (L : Lane) (r : Ras) (due : BeamEntry → Bool) : Lane × Ras :=
  (L.inOrderOf L.tailWr.length (L.tailWr.filter due).zipIdx).foldl (fun (a : Lane × Ras) e =>
      let q := a.2.store L.tm (L.dotOf e) e.off e.data
      let A := a.1.keepCleared a.2 e
      (if q.2 then A.raiseBeam 32 (L.dotOf e) else A, q.1))
    ({ L with tailWr := L.tailWr.filter (fun e => !due e) }, r)
/-- One milestone of the tailrace pass. -/
def Lane.tailMilestone (L : Lane) (r : Ras) (k : Nat) : Lane × Ras :=
  let m := L.tm.milVt k
  let a := L.tailWrites r (fun e => decide (L.dotOf e < m))
  let g := a.2.atMilestone L.tm k m
  ((List.range g.irqs).foldl (fun A _ => A.raiseBeam 30 m) a.1, g.ras)
/-- The tailrace pass caught up to VT `v` (R56): the milestones at or below it and the writes below it, in their order, and of the
writes at `v` those of `here`. -/
def Lane.syncTailBy (L : Lane) (v : Nat) (here : BeamEntry → Bool) : Lane :=
  match L.tail with
  | none => L
  | some r =>
    if v < r.pos then L
    else
      let k0 := L.tm.milIndex r.pos + 1
      let ks := (List.range (L.tm.milIndex v + 1 - k0)).map (· + k0)
      let a := ks.foldl (fun (a : Lane × Ras) k => a.1.tailMilestone a.2 k) (L, r)
      let b := a.1.tailWrites a.2 (fun e => decide (L.dotOf e < v) || (decide (L.dotOf e = v) && here e))
      { b.1 with tail := some { b.2 with pos := v } }
/-- The tailrace pass caught up to VT `v`, with every write there. -/
def Lane.syncTail (L : Lane) (v : Nat) : Lane := L.syncTailBy v (fun _ => true)

/-- The raster and compositor registers of the exact pass at VT `m`, before the milestones and the writes up to there
have been reached: its own, then in order the groups and every write that applies at or before `m` (R175, R227). -/
def Lane.rasAt (L : Lane) (r : Ras) (m : Nat) : Ras :=
  let ws := (L.tailWr ++ L.queue.filter (fun e => !e.read && decide (e.off < 0x20000))).filter (fun e => decide (L.dotOf e ≤ m))
  let es := L.inOrderOf ws.length ws.zipIdx
  let gs := r.groups.filter (fun q => decide (L.tm.milVt q.mil ≤ m))
  let apply (r : Ras) (es : List BeamEntry) : Ras := es.foldl (fun r e => (r.store L.tm (L.dotOf e) e.off e.data).1) r
  let a := gs.foldl (fun (a : Ras × List BeamEntry) q =>
      let v := L.tm.milVt q.mil
      let now := a.2.filter (fun e => decide (L.dotOf e < v))
      ((((apply a.1 now).execGroup L.tm v q).ras), a.2.filter (fun e => !decide (L.dotOf e < v)))) (r, es)
  apply a.1 a.2

end Sys2Proof.Machine
end

