-- ==== Sys2Proof/Machine/Ahead.lean ====
section
/-! DEFINITION. What a period of virtual time brings beside the writes: milestones, inputs, effects across threads, captures, wraps and
compares (R43, R51, R145, R160, R169, R173, R308, R363, R380), and what of it is known before the threads have passed the period
(R99, R161). -/
namespace Sys2Proof.Machine
open Sys2Proof

/-- Whether the line-list group of the milestone at VT `m` is known: the line before it has been fetched, or no list is
in force or on its way (R207). -/
def Lane.groupKnown (L : Lane) (r : Ras) (m : Nat) : Bool :=
  decide (m ≤ L.tm.lineVt r.ff r.fl) || (!bit (r.reg 0x320) 0 && r.groups.isEmpty &&
    (L.queue ++ L.coming ++ L.tailWr).all (fun e => e.read || decide (e.off ≠ 0x320)))
/-- The sources and captures of milestone `k` (R145, R169, R173): line compares, vblank, frame. -/
def Lane.project (L : Lane) (k : Nat) : Lane :=
  let m := L.tm.milVt k
  let ln := L.tm.lineAt m
  let r := if L.det then L.rasAt L.exactRas m else L.unit.ras
  let hit (j : Nat) : Bool := let v := r.reg (0x8 + 4 * j); bit v 31 && decide (bits v 0 13 = ln)
  let sels := [2] ++ (if ln = 0 then [3] else []) ++ (if hit 0 then [8] else []) ++ (if hit 1 then [9] else [])
  let srcs := (if hit 0 then [24] else []) ++ (if hit 1 then [25] else []) ++ (if ln = L.tm.vact then [26] else []) ++
    (if ln = 0 then [27] else [])
  let c := sels.foldl (fun (a : Timers × List (Nat × Nat)) q => let z := a.1.captureSel q m; (z.1, a.2 ++ z.2)) (L.unit.tim.mark m, [])
  let A := { L with unit := { L.unit with tim := { c.1 with closed := max c.1.closed (m + 1) }, lic := { L.unit.lic with milestones := k + 1 } } }
  (srcs.map (fun n => (n, m)) ++ c.2).foldl (fun A p => A.raiseAt p.1 p.2) A

/-- Thread `k` started at the milestone at VT `m` (R105, R66). What the thread before it has stored is still on its way (R49), and its
outstanding loads return to no register. DESIGN CHOICE: bits [1:0] of LSYS_THR_ENTRY.ENTRY are ignored, as those of a vector entry are; R66
and R105 do not say what they do. -/
def Lane.startThread (L : Lane) (k m : Nat) : Lane :=
  let x := L.thread k
  let v := roundUp m L.cpu
  L.setThread k { Thread.init with pc := w64 (bits (L.unit.reg (0x34080 + 8 * k)) 2 38 * 4), vt := v, sb := x.sb,
                                   loads := x.loads.map (fun p => { p with dest := .g 0 }), admitted := x.admitted,
                                   slots := x.slots, active := true,
                                   capVt := if m = L.tm.boundary m then m - 1 else L.tm.boundary m }

/-- One effect across threads at the VT of its milestone (R51): a start is ignored for a thread that is active or not
admitted. -/
def Lane.crossEffect (L : Lane) (c : CrossEffect) : Lane :=
  let m := L.milVt c.mil
  let A := match c.start with
    | some k => if (L.thread k).admitted && !(L.thread k).active then L.startThread k m else L
    | none => L
  match c.source with
  | some n => A.raiseAt n m
  | none => A

/-- What the timers raise at step 3 or 4 of their period, which closes it to further writes and reads (R160). -/
def Lane.timersRaise (L : Lane) (r : Timers × List (Nat × Nat)) : Lane :=
  r.2.foldl (fun A p => A.raiseAt p.1 p.2) { L with unit := { L.unit with tim := { r.1 with closed := max r.1.closed (r.1.now + 1) } } }
/-- A register of the small windows replaced. -/
def Lane.setReg (L : Lane) (off : Nat) (v : Word) : Lane := { L with unit := L.unit.setReg off v }

/-- A pad input (R380, R381): its registers change, and its captures wait for step 3 of its period (R160, R169). -/
def Lane.applyPad (L : Lane) (i : LaneInput) : Lane :=
  let p := i.slot
  let o := 0x32000 + 0x20 * p
  let A := (((L.setReg o (w64 (leAt i.data 0 3))).setReg (o + 4) (w64 (leAt i.data 12 4))).setReg (o + 8) (w64 (leAt i.data 4 8))).setReg
    (o + 0x10) 1
  { A with unit := { A.unit with tim := A.unit.tim.trigger (4 + p) 255 i.vt } }.raiseAt (38 + p) i.vt
/-- PAD_ACC after an accessory input (R308): new state, then old state, of R351. -/
def accWord (w : Word) (d : Bytes) : Word :=
  let was := leAt d 8 1 % 2
  let now := leAt d 0 1 % 2
  let ty := leAt d 1 1 % 4
  let w := if was = 0 ∧ now = 1 then putBits (putBit w 0 true) 1 2 ty
    else if was = 1 ∧ now = 0 then putBits (putBit w 0 false) 1 2 0
    else if leAt d 9 1 % 4 ≠ ty then putBits w 1 2 ty else w
  let add (w : Word) (lo o : Nat) : Word := putBits w lo 4 (bits w lo 4 + (leAt d o 2 + 65536 - leAt d (8 + o) 2) % 65536)
  putBit (add (add (add w 4 2) 8 4) 12 6) 16 true
def Lane.applyAcc (L : Lane) (i : LaneInput) : Lane :=
  let o := 0x32100 + 4 * i.slot
  (L.setReg o (accWord (L.unit.reg o) i.data)).raiseAt (42 + i.slot) i.vt
/-- A change of viewers (R363): a slot that has left has its pad registers cleared. -/
def Lane.applyViewers (L : Lane) (i : LaneInput) : Lane :=
  let clear (A : Lane) (p : Nat) : Lane :=
    if (leAt i.data 2 1).testBit p then
      let o := 0x32000 + 0x20 * p
      ((A.setReg o 0).setReg (o + 4) 0).setReg (o + 8) 0
    else A
  let A := (List.range 4).foldl clear L
  (A.setReg 0x32110 (w64 (leAt i.data 0 1 % 16 + leAt i.data 1 1 % 64 * 2 ^ 8 + 2 ^ 16))).raiseAt 46 i.vt
def Lane.applyNotify (L : Lane) (i : LaneInput) : Lane := (L.setReg 0x32118 (w64 (leAt i.data 0 8))).raiseAt 47 i.vt

/-- An input applies to the registers (R379). -/
def Lane.applyInput (L : Lane) (i : LaneInput) : Lane :=
  match i.kind with
  | 1 => L.applyPad i
  | 2 => L.applyAcc i
  | 3 => L.applyViewers i
  | 7 => L.applyNotify i
  | _ => L
/-- The inputs that apply at dots of their own, not at a frame boundary. -/
def LaneInput.timed (i : LaneInput) : Bool := decide (i.kind = 1) || decide (i.kind = 2) || decide (i.kind = 3) || decide (i.kind = 7)

/-- Steps 3 and 4 of R160 for the period that the timers have reached. -/
def Lane.endPeriod (L : Lane) : Lane :=
  let A := L.timersRaise L.unit.tim.captures
  let B := (List.range 8).foldl (fun A n => A.timersRaise (A.unit.tim.raiseWrap n)) A
  (List.range 8).foldl (fun A n => A.timersRaise (A.unit.tim.compare n)) B
/-- Every condition whose event VT lies at or below `p` sets PEND. -/
def Lane.takeEvents (L : Lane) (p : Nat) : Lane :=
  L.setLic ((L.unit.lic.events.filter (fun e => decide (e.2 ≤ p))).foldl (fun c e => c.setPend e.1 e.2) L.unit.lic)
/-- The lane with every event of VT `p` that is known before an instruction issues there (R99, R161): the milestone, the effects across
threads, the inputs, and the captures, wraps and compares of the period. Those that a write of that instruction changes come later, so
nothing of it is kept. -/
def Lane.ahead (L : Lane) (p : Nat) : Lane :=
  let k := L.unit.lic.milestones
  let A := if L.tm.milVt k = p then L.project k else L
  let A := A.cross.foldl (fun A c => match c.source with
    | some n => if L.milVt c.mil = p then A.raiseAt n p else A
    | none => A) A
  let A := (A.inputs.filter (fun i => i.timed && !i.applied && decide (i.vt = p))).foldl Lane.applyInput A
  let A := if A.unit.tim.now = p then A.endPeriod else A
  A.takeEvents p
/-- Whether an interrupt is due for thread `t` of a deterministic lane at VT `p`, as far as it is known there (R99, R147, R148). -/
def Lane.dueAhead (L : Lane) (t p : Nat) : Bool :=
  (L.thread t).ie && ((L.ahead p).unit.lic.take t p (2 * L.cpu) (L.thread t).level).isSome
/-- Whether thread `t` stands at VT `p` and takes an interrupt before its instruction there, or reads a vector at it (R137). -/
def Lane.leaves (L : Lane) (t p : Nat) : Bool :=
  let y := L.thread t
  match y.entering with
  | some q => decide (q.read = p)
  | none => !y.waiting && y.divide.isNone && decide (y.vt = p) && L.dueAhead t p
/-- Whether no thread can still issue at or below VT `p`, so that step 2 of that period is complete (R160). -/
def Lane.pastPeriod (L : Lane) (p : Nat) : Bool := L.silent (fun u => L.leaves u p) (p + 1)
/-- Whether every event for thread `t` at or below VT `v` is known (R99), but those that the instruction at `v` causes: everything below
`v` has come about, and so have the ticks and the writes of the period `v`. DESIGN CHOICE: of threads that stand at one VT, the one of
the lower index issues first, as R43 orders their writes. -/
def Lane.licFixed (L : Lane) (t v : Nat) : Bool :=
  L.fixed v && L.timersAt v && (L.queue ++ L.coming).all (fun e => e.applied || !clocked e.off || decide (v < L.dotOf e)) &&
    L.silent (fun u => decide (t ≤ u) || L.leaves u v) (v + 1) && L.silent (fun u => decide (u ≤ t)) v

/-- Whether the events of milestone `k` can be fixed (R99, R161): no thread has anything left to do below it, its line
compares are known, and the timers stand before their captures. -/
def Lane.canProject (L : Lane) (k : Nat) : Bool :=
  let m := L.tm.milVt k
  decide (L.phase = .running) && L.timersAt m && (L.det || L.inputs.all (fun i => i.applied || !i.timed || decide (m < i.vt))) && (!L.det || (L.pastPeriod m && L.arrived (m + 1) &&
    L.groupKnown L.exactRas m && (L.queue ++ L.coming).all (fun e => e.applied || !clocked e.off || decide (m < L.dotOf e)) &&
    (match L.newTiming with | some (f, _) => decide (m ≤ f) | none => true)))

end Sys2Proof.Machine
end

