-- ==== Sys2Proof/Machine/Beam.lean ====
section
/-! DEFINITION. The beam of a lane: its write queue, milestones, lateness and holds, and effects across threads (R36, R42
to R57, R66, R154, R169, R173). -/
namespace Sys2Proof.Machine
open Sys2Proof

/-- An entry of the queue that is a write takes effect at its dot and frees its slot (R32, R42). -/
def Lane.serveWrite (L : Lane) (p : BeamEntry × Nat) : Lane :=
  let d := L.serveVt p.1
  let A := if L.det && decide (p.1.off < 0x20000) && L.tail.isNone then L.keepCleared L.unit.ras p.1 else L
  ({ A with queue := A.queue.eraseIdx p.2 }.beamTo d).store p.1 d

/-- The write that takes effect next: in a late frame the beam's own (R54), else that of the front of the queue. -/
def Lane.nextWrite (L : Lane) : Option (BeamEntry × Nat) :=
  match L.lateWrite with
  | some p => some p
  | none => match L.front with
    | some p => if !p.1.read && L.canServe p.1 then some p else none
    | none => none
/-- BEAM_WRITE_APPLY (R42, R54, R61). -/
def execBeamWriteApply (l : Nat) (s : State) : Res :=
  s.onLane l (fun L => L.nextWrite.map (fun p => (L.serveWrite p, 0)))

/-- A read of the queue is answered at its dot (R44, R273): in a late frame the tailrace pass is brought to it, with the writes there
that come before the read, or, for an evaluation result, with the dot. The answer enters the beam-reply queue (R31); one to a load of a thread
that has been started anew since is dropped. -/
def Lane.serveRead (L : Lane) (p : BeamEntry × Nat) : Lane :=
  let e := p.1
  let d := L.serveVt e
  let A := { L with queue := L.queue.eraseIdx p.2 }.beamTo d
  let A := if e.off < 0x20000 then (if isEval e.off then A.syncTail d else A.syncTailBy d (fun q => L.precedes q e)) else A
  let v := A.loadThread (if L.det then e.stamp else L.bvt) d e.off ||| e.data
  let B := { A with unit := { A.unit with tim := if clocked e.off then A.unit.tim.mark d else A.unit.tim } }.readEffect e.off
  let r : BeamReply := { thread := e.thread, stamp := e.stamp, off := e.off, value := v }
  { B with replies := if (B.thread e.thread).loads.any (·.answers r) then B.replies ++ [r] else B.replies }

/-- STAMPED_READ_RELEASE (R44, R61, R182, R273). -/
def execStampedReadRelease (l t : Nat) (s : State) : Res :=
  s.onLane l (fun L => match L.front with
    | some p => if p.1.read && decide (p.1.thread = t) && L.canServe p.1 then some (L.serveRead p, 0) else none
    | none => none)

/-- Whether the beam can reach its next milestone (R36): every dot before it is composed and, in deterministic mode, every
access before it served and its group read. -/
def Lane.canReach (L : Lane) : Bool :=
  let m := L.nextMil
  L.beamCan m && decide (m ≤ L.unit.ras.nextVt L.tm) && (L.late || decide (L.mil ≤ L.unit.lic.milestones)) &&
    (!L.det || (L.late && L.queue.all (fun e => e.read || decide (0x20000 ≤ e.off) || decide (m ≤ L.dotOf e))) || (!L.late && L.queue.all (fun e => decide (m ≤ L.dotOf e)) && decide (m ≤ L.tm.lineVt L.unit.ras.ff L.unit.ras.fl)))
/-- The same, in normal mode with the timers brought to it. -/
def Lane.canArrive (L : Lane) : Bool := L.canReach && (L.det || L.timersAt L.nextMil)
/-- What happens in the raster unit at the milestone (R36, R43): the close of the commit window and its line-list group. In a late frame
the tailrace pass raises what the group raises. The events of the milestone come after the writes there (R160, R173), in deterministic mode
once the threads have passed it; what the timers and the LIC were before periods that are over goes. -/
def Lane.arrive (L : Lane) : Lane :=
  let m := L.nextMil
  let g := L.unit.ras.atMilestone L.tm L.mil m
  let tim : Timers := { L.unit.tim with past := L.unit.tim.past.filter (fun p => decide (m ≤ p.vt)) }
  let lic : Lic := { L.unit.lic with past := L.unit.lic.past.filter (fun p => decide (m ≤ p.vt)) }
  let B := { L with unit := { L.unit with ras := { g.ras with pos := m }, tim := tim, lic := lic }, bvt := m, mil := L.mil + 1 }
  let C := g.marks.foldl (fun B p => B.markRegion p.1 p.2) B
  if L.tail.isSome then C else (List.range g.irqs).foldl (fun C _ => C.raiseBeam 30 m) C

/-- The events of the next milestone of the frame are fixed, ahead of the beam where the threads of a deterministic lane lead it (R99, R161), in
normal mode once the beam stands there. -/
def Lane.lookAhead (L : Lane) : Option (Lane × Nat) :=
  let k := L.unit.lic.milestones
  if (if L.det then decide (L.tm.milVt k < L.frameEnd) else decide (L.tm.milVt k ≤ L.bvt)) && L.canProject k then some (L.project k, 0) else none
/-- MILESTONE (R36): the beam reaches dot 0 of a line other than line 0; where it cannot yet, the events of the next
milestone are fixed (R99, R161). -/
def execMilestone (l : Nat) (s : State) : Res :=
  s.onLane l (fun L =>
    if L.canArrive && decide (L.tm.lineAt L.nextMil ≠ 0) then some (L.arrive, 0) else L.lookAhead)

/-- LATE_COUNT advanced (R53). -/
def Lane.countLate (L : Lane) : Lane :=
  let w := L.unit.reg 0x34028
  { L with unit := L.unit.setReg 0x34028 (putBits w 8 24 (satBits 24 (bits w 8 24 + 1))) }

/-- Whether BVT can come to stand at `v` within the frame: it stands there, or goes there from the VT before, a milestone of the frame
included. -/
def Lane.nextWithin (L : Lane) (v : Nat) : Bool :=
  decide (v ≤ L.bvt) || (L.beamReach (v - 1) && (decide (v < L.nextMil) || (decide (v = L.nextMil) && decide (L.tm.lineAt v ≠ 0))))
/-- Whether a frame becomes late at `v` (R53): BVT exceeds the lane floor within the frame, where a waiting thread counts at BVT. -/
def Lane.turnsLate (L : Lane) (v : Nat) : Bool :=
  L.det && decide (L.phase = .running) && !L.late && decide (L.hold = .none) && decide (L.lowest = some (v - 1)) && decide (1 ≤ v) &&
    decide (L.bvt ≤ v) && L.nextWithin v
/-- The frame marked late at `v` (R53, R56): the tailrace pass begins with the register state. -/
def Lane.markLate (L : Lane) (v : Nat) : Lane :=
  let tap := L.op.tap.map (fun (p : TapFrame) => if p.frame = L.tm.frameAt v then { p with flags := p.flags ||| 1 } else p)
  let op : Operator := { L.op with tap := tap }
  let r : Ras := { L.unit.ras with pos := L.bvt }
  let A : Lane := { L with late := true, lateAt := v, bvt := v, tail := some r, tailWr := [], tailAt := none, op := op }
  A.countLate
/-- FRAME_LATE (R53, R56, R484). -/
def execFrameLate (l v : Nat) (s : State) : Res :=
  if 256 ≤ l then noUnit
  else if (s.lane l).turnsLate v then .next ((s.putLane l ((s.lane l).markLate v)).lifeAdd (halfOf l) 0x48 8 1)
  else stay s

/-- SLACK_HOLD (R57): a thread lags BVT `v` by more than SLACK lines. -/
def execSlackHold (l v tm : Nat) (s : State) : Res :=
  (s.at tm).onLane l (fun L =>
    if L.det && decide (L.phase = .running) && L.late && decide (L.hold = .none) && decide (L.slack < L.tm.vtot) &&
        (match L.lowest with | some w => decide (w + L.slack * L.tm.ll < v) | none => false) && decide (L.bvt ≤ v) && L.nextWithin v then
      some ({ L with bvt := v, hold := .slack, holdAt := (s.at tm).time }, 0)
    else none)

/-- HOLD_LAST for a hold that ends now (R66): always-on periods of 40 ns, saturating. -/
def Lane.endHold (L : Lane) (time : Nat) : Lane :=
  let w := L.unit.reg 0x34028
  { L with hold := .none, unit := L.unit.setReg 0x34028 (putBits w 32 32 (satBits 32 ((time - L.holdAt) / 40))) }

/-- SLACK_HOLD_END (R57). -/
def execSlackHoldEnd (l tm : Nat) (s : State) : Res :=
  (s.at tm).onLane l (fun L =>
    if decide (L.hold = .slack) && decide (L.bvt ≤ L.floor) then some (L.endHold (s.at tm).time, 0) else none)

/-- CROSS_THREAD_EFFECT (R51): the first waiting effect comes at its milestone, once the reads of LSYS_THR_CTL of earlier dots have been
answered (R45). -/
def execCrossThreadEffect (l : Nat) (s : State) : Res :=
  s.onLane l (fun L => match L.cross with
    | [] => none
    | c :: rest =>
      let m := L.milVt c.mil
      if decide (L.phase = .running) && (if L.det then L.silent (fun _ => false) m &&
          (L.queue ++ L.coming).all (fun e => !e.read || !isThrCtl e.off || decide (m ≤ L.dotOf e)) else decide (m ≤ L.bvt)) then
        some ({ L with cross := rest }.crossEffect c, 0)
      else none)

/-- A command that stands for one register access: the matching entry of the queue is served if it stands first and can
be; with no such entry the access acts by itself. -/
def Lane.viaQueue (L : Lane) (p : BeamEntry → Bool) (plain : Lane → Lane) : Option (Lane × Nat) :=
  if decide (L.phase = .stopped) then none
  else match L.queue.find? p with
    | none => some (plain L, 0)
    | some _ => match L.front with
      | some q => if p q.1 && L.canServe q.1 then some (if q.1.read then L.serveRead q else L.serveWrite q, 0) else none
      | none => none

/-- THR_CTL_START (R51, R66): thread `w` asks for the start of thread `t`. -/
def execThrCtlStart (l w t stamp : Nat) (s : State) : Res :=
  if 4 ≤ w ∨ 4 ≤ t then noUnit
  else s.onLane l (fun L => L.viaQueue (fun e => !e.read && decide (e.off = 0x340C0 + 8 * t) && decide (e.thread = w) &&
    decide (e.stamp = stamp) && e.data.testBit 0) (fun A => A.askStart w t stamp))

/-- THR_CTL_EXIT (R66): thread `t` has written its own EXIT. -/
def execThrCtlExit (l w t stamp : Nat) (s : State) : Res :=
  if 4 ≤ w ∨ 4 ≤ t then noUnit
  else s.onLane l (fun L => L.viaQueue (fun e => !e.read && decide (e.off = 0x340C0 + 8 * t) && decide (e.thread = w) &&
    decide (e.stamp = stamp) && e.data.testBit 1) (fun A => A.endThread w t))

end Sys2Proof.Machine
end

