-- ==== Sys2Proof/Machine/Pixel.lean ====
section
/-! DEFINITION. The pixel path of the compositor: colour matrix, overlay planes, reduction, the bytes of a pixel and the
tap's layout (R228, R231 to R234, R242, R243, R245, R250). -/
namespace Sys2Proof.Machine

/-- Three channels. -/
structure Rgb where
  r : Nat
  g : Nat
  b : Nat
  deriving DecidableEq, Repr

/-- One row of a matrix: three signed 3.12 coefficients and an offset. -/
structure MatRow where
  c0 : Int
  c1 : Int
  c2 : Int
  off : Int
  deriving DecidableEq, Repr

/-- Whether a colour space code is BT.2020; 3 acts as 0 (R254). -/
def isWide (cs : Nat) : Bool := cs == 2

/-- The rows chosen with MMODE 0 (R242). -/
def autoMatrix (lcs scs : Nat) : List MatRow :=
  if isWide lcs = isWide scs then [⟨4096, 0, 0, 0⟩, ⟨0, 4096, 0, 0⟩, ⟨0, 0, 4096, 0⟩]
  else if isWide scs then [⟨2570, 1349, 177, 0⟩, ⟨283, 3766, 47, 0⟩, ⟨67, 360, 3669, 0⟩]
  else [⟨6801, -2407, -298, 0⟩, ⟨-510, 4640, -34, 0⟩, ⟨-75, -412, 4583, 0⟩]

/-- A row of CPS_MATRIX (R254). -/
def matRowOf (w : Word) : MatRow :=
  ⟨signed 16 (bits w 0 16), signed 16 (bits w 16 16), signed 16 (bits w 32 16), signed 11 (bits w 48 11)⟩

/-- The rows in force: `A` reads the active copies of the shadowed registers, `scs` is CPS_OUT.SCS (R242). -/
def matrixRows (A : Nat → Word) (scs : Nat) : List MatRow :=
  let c := A 0x10800
  if bit c 2 then [matRowOf (A 0x10808), matRowOf (A 0x10810), matRowOf (A 0x10818)] else autoMatrix (bits c 0 2) scs

/-- One output channel (R243). -/
def matChannel (m : MatRow) (p : Rgb) : Nat :=
  (clamp 0 1023 ((m.c0 * p.r + m.c1 * p.g + m.c2 * p.b + 2048) / 4096 + m.off)).toNat

/-- The matrix (R243). -/
def convert (rows : List MatRow) (p : Rgb) : Rgb :=
  { r := matChannel (rows.getD 0 ⟨4096, 0, 0, 0⟩) p, g := matChannel (rows.getD 1 ⟨0, 4096, 0, 0⟩) p,
    b := matChannel (rows.getD 2 ⟨0, 0, 4096, 0⟩) p }

/-- mlen of a meter rectangle (R233): `w` is its image width, `v` the value latched for it. -/
def meterLen (w v vmax : Nat) : Nat := if vmax = 0 then 0 else w * min v vmax / vmax

/-- The overlay pixel that rectangle `k` of plane `p` supplies at (x, L), as its index into the palette with OPQ
(R231). `O` reads the operator registers, `D` the display copy of the overlay store, `m0` and `m1` the meter values
latched for MSRC 0 and 1. -/
def ovRect (O : Nat → Word) (D : Nat → Byte) (m0 m1 p k x l : Nat) : Option (Nat × Bool) :=
  let a := O (0x18100 + 0x100 * p + 16 * k)
  let b := O (0x18108 + 0x100 * p + 16 * k)
  let s := match bits b 33 2 with
    | 1 => 2
    | 2 => 4
    | _ => 1
  let x0 := bits a 0 13
  let y0 := bits a 16 13
  let w := bits a 32 12 + 1
  let h := bits a 48 12 + 1
  if !bit a 63 || decide (x < x0) || decide (x0 + s * w ≤ x) || decide (l < y0) || decide (y0 + s * h ≤ l) then none
  else
    let c := (x - x0) / s
    let r := (l - y0) / s
    if bit b 36 && decide (meterLen w (if bit b 37 then m1 else m0) (bits b 48 16) ≤ c) then none
    else
      let row := bits b 0 17 + r * bits b 20 12
      let i := if bit b 32 then (D ((row + c) % 131072)).toNat
        else (D ((row + c / 2) % 131072)).toNat / 2 ^ (4 * (c % 2)) % 16
      some (i, bit b 35)

/-- The overlay pixel of plane `p`: the rectangle of highest k that supplies one wins (R231). -/
def ovPixel (O : Nat → Word) (D : Nat → Byte) (m0 m1 p x l : Nat) : Option (Nat × Bool) :=
  (List.range 16).foldl (fun acc k => match ovRect O D m0 m1 p k x l with
    | some q => some q
    | none => acc) none

/-- One channel of an overlay laid over `b` (R232). -/
def ovChannel (o a b : Nat) : Nat := (c10 o * a + b * (256 - a) + 128) / 256

/-- Plane `p` laid over a pixel (R232). -/
def ovPlane (O : Nat → Word) (D : Nat → Byte) (m0 m1 p x l : Nat) (q : Rgb) : Rgb :=
  let c := O (0x18010 + 4 * p)
  if !bit c 0 then q
  else match ovPixel O D m0 m1 p x l with
    | none => q
    | some (i, opq) =>
      let e := O (0x19000 + 0x400 * p + 4 * i)
      let al := if opq then 255 else bits e 24 8
      let pa := bits c 8 8
      let a := (al + al / 128) * (pa + pa / 128) / 256
      { r := ovChannel (bits e 0 8) a q.r, g := ovChannel (bits e 8 8) a q.g, b := ovChannel (bits e 16 8) a q.b }

/-- The reduction to the stream depth (R243). -/
def reduce (depth10 : Bool) (p : Rgb) : Rgb :=
  if depth10 then p
  else { r := min 255 ((p.r + 2) / 4), g := min 255 ((p.g + 2) / 4), b := min 255 ((p.b + 2) / 4) }

/-- The whole path from the game pixel to point A (R228). -/
def pointA (A O : Nat → Word) (D : Nat → Byte) (m0 m1 x l : Nat) (p : Rgb) : Rgb :=
  let out := O 0x18000
  let q := convert (matrixRows A (bits out 0 2)) p
  reduce (bit out 2) (ovPlane O D m0 m1 1 x l (ovPlane O D m0 m1 0 x l q))

/-- The picture word of a pixel (R245). -/
def pixelWord (depth10 : Bool) (p : Rgb) : Nat :=
  if depth10 then p.r + p.g * 2 ^ 10 + p.b * 2 ^ 20 else p.r + p.g * 2 ^ 8 + p.b * 2 ^ 16
/-- The pixel of a picture word. -/
def wordPixel (depth10 : Bool) (w : Nat) : Rgb :=
  if depth10 then { r := w % 1024, g := w / 2 ^ 10 % 1024, b := w / 2 ^ 20 % 1024 }
  else { r := w % 256, g := w / 2 ^ 8 % 256, b := w / 2 ^ 16 % 256 }
/-- The bytes of a pixel that a signature takes (R250), from its picture word. -/
def pixelBytes (depth10 : Bool) (w : Nat) : List Nat :=
  if depth10 then [w % 256, w / 2 ^ 8 % 256, w / 2 ^ 16 % 256, w / 2 ^ 24 % 256]
  else [w % 256, w / 2 ^ 8 % 256, w / 2 ^ 16 % 256]
/-- A pixel into a running CRC. -/
def crcPixel (depth10 : Bool) (c w : Nat) : Nat := (pixelBytes depth10 w).foldl crc32Byte c

/-- Whether a signature window's register covers (x, L) (R250). -/
def sigCovers (v : Word) (x l : Nat) : Bool :=
  bit v 63 && decide (bits v 0 13 ≤ x) && decide (x < bits v 16 13) && decide (bits v 32 13 ≤ l) && decide (l < bits v 48 13)
/-- The last covered pixel of a window in an active area: none where it covers no pixel (R250). -/
def sigLast (v : Word) (hact vact : Nat) : Option (Nat × Nat) :=
  let x1 := min (bits v 16 13) hact
  let y1 := min (bits v 48 13) vact
  if bits v 0 13 < x1 ∧ bits v 32 13 < y1 then some (x1 - 1, y1 - 1) else none

/-- STRIDE of the tap (R245). -/
def tapStride (hact : Nat) : Nat := 64 * ceilDiv (hact * 4) 64
/-- The slot size in 4 KiB pages (R245). -/
def tapPages (hact vact : Nat) : Nat := ceilDiv (0x3000 + tapStride hact * vact) 4096

end Sys2Proof.Machine
end

