-- ==== Sys2Proof/Machine/Spans.lean ====
section
/-! DEFINITION. Covering pixels, hidden spans and the requests of a line's fetch (R193, R199 to R201, R210, R217, R234). `R` reads the
fetch-class registers of the line, `V` the video RAM its fetch sees. -/
namespace Sys2Proof.Machine

/-- What covers a line besides its own registers: the opacity bits by region and tile, a pending tile counting as not opaque (R201, R202), and
the overlay pixels that cover by dot (R234). -/
structure Cover where
  opaqueTile : Nat → Nat → Bool
  overlay : Nat → Bool

/-- Whether the tile of map entry `e` in layer `n` is known to be opaque: by its hint, or by an opacity region that the layer uses (R199,
R201). -/
def Cover.tile (c : Cover) (R : Nat → Word) (n e : Nat) : Bool :=
  e.testBit 31 || [0, 1].any (fun j =>
    let w := R (0x200 + 8 * j)
    bit w 63 && decide (bits w 10 16 * 1024 = bgBase R n) && decide ((if bit w 48 then 16 else 8) = bgTile R n) && decide (bits w 49 3 = bgFmt R n) &&
      decide (e % 2 ^ 20 ≤ bits w 32 16) && c.opaqueTile j (e % 2 ^ 20))
/-- PRIO of the pixel that layer `n` could supply at (x, L), by its map entry; none where it supplies none. -/
def bgPrio (R : Nat → Word) (V : Nat → Byte) (n x l : Nat) : Option Nat := (bgCell R n x l).map (fun c => vword V c.at_ / 2 ^ 28 % 4)
/-- Whether priority `p` of a pixel that comes before layer `n` (`first`) or after it at equal PRIO ranks above every pixel that the layer could
supply (R199, R222). -/
def ranksAbove (p : Nat) (first : Bool) (q : Option Nat) : Bool :=
  match q with
  | none => true
  | some q => decide (q < p) || (decide (q = p) && first)
/-- Whether a covering pixel lies over layer `n` at (x, L) (R199). `cut` tells the layers cut for the line, `sel` are its sprites. -/
def Cover.covers (c : Cover) (R : Nat → Word) (V : Nat → Byte) (cut : Nat) (sel : List SprSel) (n x l : Nat) : Bool :=
  let m := winMask R x l
  let q := bgPrio R V n x l
  let tile (k : Nat) : Bool :=
    decide (k ≠ n) && !cut.testBit k && bit m k && (match bgCell R k x l with
      | some p =>
        let e := vword V p.at_
        c.tile R k e && !e.testBit 30 && ranksAbove (e / 2 ^ 28 % 4) (decide (k < n)) q
      | none => false)
  let sprite : Bool := bit m 4 && (match topSprite (sel.filterMap (fun s => (sprPixel R V s x l).map (fun p => (s, p)))) with
    | some p => !p.blend && ranksAbove p.prio true q
    | none => false)
  c.overlay x || sprite || [0, 1, 2, 3].any tile
/-- Whether span `j` of layer `n` is hidden on line `l` (R199). -/
def Cover.hides (c : Cover) (R : Nat → Word) (V : Nat → Byte) (cut : Nat) (sel : List SprSel) (n j l : Nat) : Bool :=
  (List.range 8).all (fun i => c.covers R V cut sel n (8 * j + i) l)

/-- The tile row, or the affine tile, that a place of layer `n` is read from: the address in video RAM. -/
def bgRow (R : Nat → Word) (V : Nat → Byte) (n : Nat) (p : TileCell) : Bool × Nat :=
  let e := vword V p.at_
  let f := bgFmt R n
  let w := bgTile R n
  let tile := bgBase R n + e % 2 ^ 20 * tileSize f w
  if bgAffine R n then (true, tile % 2 ^ 26)
  else (false, (tile + (if e.testBit 27 then w - 1 - p.row else p.row) * tileRow f w) % 2 ^ 26)
/-- Phase 2 of a line's requests (R217): the row of each regular sprite, the tiles on the path of each affine one. DESIGN CHOICE: an affine sprite
makes requests only for the dots of its box in the active area; R217 does not say whether the path outside it counts. -/
def sprRequests (R : Nat → Word) (hact l : Nat) (s : SprSel) : Nat :=
  if sprAffine s.a then (((List.range hact).filterMap (fun x => (sprPoint R s x l).map (sprTile s))).eraseDups).length
  else
    let y : Int := if bit s.a 46 then (mosaicPoint R 4 0 l).2 else (l : Int)
    if sprY s.a ≤ y ∧ y < sprY s.a + sprBH s.a s.b then sprReq s.a s.b else 0
/-- The layers a line fetches. -/
def lineLayers (cut : Nat) : List Nat := [0, 1, 2, 3].filter (fun n => !cut.testBit n)
/-- Phase 3: the 64-byte lines of the maps, each once. -/
def mapRequests (R : Nat → Word) (cut hact l : Nat) : Nat :=
  (((lineLayers cut).flatMap (fun n => (List.range hact).filterMap (fun x => (bgCell R n x l).map (fun p => p.at_ % 2 ^ 26 / 64)))).eraseDups).length
/-- Phase 4: the tile rows and affine tiles, each once, but for those that only hidden spans would show (R200). -/
def tileRequests (c : Cover) (R : Nat → Word) (V : Nat → Byte) (cut : Nat) (sel : List SprSel) (hact l : Nat) : Nat :=
  (((lineLayers cut).flatMap (fun n =>
    let shown := (List.range (hact / 8 + 1)).filter (fun j => !c.hides R V cut sel n j l)
    (List.range hact).filterMap (fun x => if shown.contains (x / 8) then (bgCell R n x l).map (bgRow R V n) else none))).eraseDups).length
/-- The requests issued for the fetch of line `l` (R193, R200): the line list's lines (R210), and for an active line sprites, maps and tiles. -/
def lineRequests (c : Cover) (R : Nat → Word) (V : Nat → Byte) (active : Bool) (cut : Nat) (sel : List SprSel) (hact l : Nat) : Nat :=
  llNeed R + (if active then
    (sel.map (sprRequests R hact l)).sum + mapRequests R cut hact l + tileRequests c R V cut sel hact l else 0)

/-- Whether the overlay pixel of plane `p` at (x, L) is a covering pixel, sprites apart (R234). `O` reads the operator registers, `D` the display
copy, `m0` and `m1` the meters. -/
def ovCovers (O : Nat → Word) (D : Nat → Byte) (m0 m1 p x l : Nat) : Bool :=
  let c := O (0x18010 + 4 * p)
  bit c 0 && decide (bits c 8 8 = 255) && (match (List.range 16).reverse.find? (fun k => (ovRect O D m0 m1 p k x l).isSome) with
    | some k => let b := O (0x18108 + 0x100 * p + 16 * k); bit b 35 && !bit b 36
    | none => false)

end Sys2Proof.Machine
end

