-- ==== Sys2Proof/Machine/Fetch.lean ====
section
/-! DEFINITION. Line fetches, line-list reads and opacity rescans of the raster engine (R175 to R180, R193 to R216). -/
namespace Sys2Proof.Machine
open Sys2Proof

/-- The video RAM of a memory, by offset in it. -/
def videoPart (m : Mem) : Mem :=
  (m.filter (fun p => decide (0x20000000 ≤ p.1) && decide (p.1 < 0x24000000))).map (fun p => (p.1 - 0x20000000, p.2))
/-- The video RAM that the fetch of the line at milestone `m` sees (R175, R177, R178). -/
def Lane.fetchView (L : Lane) (p : Pass) (m : Nat) : Mem :=
  videoPart (if !L.det then L.mem else match p with
    | .beam => if L.late then L.memLate else L.memAt m
    | .tailrace => L.memAt m)

/-- The line list as fetched with line `k` for the milestone after it (R206 to R208): the group, the empty groups of a
SKIP, PTR and the end of the list. -/
def Ras.readList (r : Ras) (R : Nat → Word) (V : Nat → Byte) (k next : Nat) : Ras :=
  let c := R 0x320
  let base := bits c 6 20 * 64
  if !bit c 0 then { r with ptr := 2 ^ 26, ended := r.ended && decide (next ≠ 0) }
  else if r.groups.any (fun g => decide (g.mil = k + 1)) then (if next = 0 then { r with ptr := base, ended := false } else r)
  else
    let ptr := if next = 0 ∨ r.ptr = 2 ^ 26 then base else r.ptr
    if r.ended && decide (next ≠ 0) then { r with ptr := ptr }
    else
      let g := llGroup V (k + 1) ptr (bits c 1 3 + 1)
      let skips := match g.entries.getLast? with
        | some e => if e.kind = 3 then (List.range e.count).map (fun j =>
            ({ mil := k + 2 + j, entries := [], trunc := false, next := g.next } : LlGroup)) else []
        | none => []
      { r with ptr := g.next, ended := g.entries.any (fun e => decide (e.kind = 0)), groups := r.groups ++ [g] ++ skips }

/-- The group read with line `f`, as its requests found video RAM (R177, R207). -/
def Ras.readGroup (r : Ras) (tm : Timing) (f : LineFetch) : Ras :=
  r.readList (fun o => Sparse.get laneReset f.regs o) f.view.read (tm.milIndex (tm.lineVt f.frame f.line)) ((f.line + 1) % tm.vtot)

/-- The operator registers in force. -/
def Operator.reg (o : Operator) (off : Nat) : Word := Sparse.get laneReset o.act off
def Operator.setReg (o : Operator) (off : Nat) (v : Word) : Operator := { o with act := Sparse.set laneReset o.act off v }
/-- Whether an overlay pixel of the lane at (x, L) is a covering pixel (R234): no selected sprite takes part in collision. -/
def Operator.covers (o : Operator) (sel : List SprSel) (x l : Nat) : Bool :=
  !sel.any (fun s => bit s.a 55) && [0, 1].any (fun p => ovCovers o.reg o.display.read o.meter0 o.meter1 p x l)

/-- The fetch of the next line of a pass (R175, R193, R195, R198, R207, R215, R234): `st` holds the fetch-class state, `view` the
video RAM. A pass that is `exact` sees the video RAM of the line's milestone and has its group at once; any other reads the group as the fetch
goes on (R177, R211). -/
def Ras.fetchLine (r : Ras) (tm : Timing) (op : Operator) (st : Sparse Word) (view : Mem) (exact : Bool) : Ras :=
  let R (o : Nat) : Word := Sparse.get laneReset st o
  let active := decide (r.fl < tm.vact)
  let c := lineCut R tm.hact (bits (r.reg 0x18) 0 16)
  let ev := sprEval R r.fl tm.hact (List.range 1024)
  let f : LineFetch := { frame := r.ff, line := r.fl, regs := st, cut := if active then c.1 else 0, sel := if active then ev.sel else [],
                         view := view, taken := [], need := if active then c.2 else llNeed R,
                         covered := if active then (List.range tm.hact).filter (fun x => op.covers ev.sel x r.fl) else [], listed := exact, complete := false }
  let next := (r.fl + 1) % tm.vtot
  let q := if exact then r.readGroup tm f else r
  { q with lines := q.lines ++ [f], ff := if next = 0 then r.ff + 1 else r.ff, fl := next }

/-- The pass that a command names. -/
def Lane.pass (L : Lane) : Pass → Option Ras
  | .beam => some L.unit.ras
  | .tailrace => L.tail
/-- The pass replaced. -/
def Lane.setPass (L : Lane) (p : Pass) (r : Ras) : Lane :=
  match p with
  | .beam => { L with unit := { L.unit with ras := r } }
  | .tailrace => { L with tail := some r }
/-- Whether a pass follows the threads exactly: the tailrace pass, and the beam of a deterministic frame on time. -/
def Lane.exact (L : Lane) : Pass → Bool
  | .beam => L.det && !L.late
  | .tailrace => true

/-- The VT from which the beam allows the fetch of the line at milestone `m` (R176): 16 periods into the line before it;
past `m` where a waiting thread counts at BVT. -/
def Lane.fetchFrom (L : Lane) (m : Nat) (strict : Bool) : Nat :=
  let k := L.tm.milIndex m
  let x := if k = 0 then 0 else L.tm.milVt (k - 1) + 16
  if strict && (L.running.length < (L.threads.filter (·.active)).length || L.running.isEmpty) then max x (m + 1) else x
/-- Whether the fetch of a line may start (R176 to R178). -/
def Lane.canFetch (L : Lane) (p : Pass) (r : Ras) : Bool :=
  let m := L.tm.lineVt r.ff r.fl
  r.lines.all (·.complete) && L.beamReach (L.fetchFrom m (L.exact p)) &&
    (match p with | .beam => true | .tailrace => decide (m < L.tm.nextBoundary L.lateAt)) &&
    (!L.exact p || (L.running.all (fun v => decide (m < v)) && L.arrived (m + 1) && L.silent (fun _ => false) (m + 1) &&
      !L.log.any (fun e => e.gated && decide (e.stamp < m)) && decide (m ≤ L.unit.snd.tick) && L.unitsPast m))

/-- The start of a line's fetch. -/
def Lane.startFetch (L : Lane) (p : Pass) (r : Ras) : Lane :=
  let m := L.tm.lineVt r.ff r.fl
  let st := if L.exact p then (L.rasAt r m).regs else r.regs
  let q := r.fetchLine L.tm L.op st (L.fetchView p m) (L.exact p)
  (L.beamTo (L.fetchFrom m (L.exact p))).setPass p q

/-- LINE_FETCH_START (R175 to R178, R193, R207, R215). -/
def execLineFetchStart (l : Nat) (p : Pass) (s : State) : Res :=
  s.onLane l (fun L => match L.pass p with
    | none => none
    | some r => if L.canFetch p r then some (L.startFetch p r, 0) else none)

/-- The groups that were read after their milestone take effect (R211). -/
def Lane.lateGroups (L : Lane) : Lane :=
  let r := L.unit.ras
  let old := r.groups.filter (fun g => decide (g.mil < L.mil) && !g.entries.isEmpty)
  let A := { L with unit := { L.unit with ras := { r with groups := r.groups.filter (fun g => decide (L.mil ≤ g.mil)) } } }
  old.foldl (fun A g =>
    let o := A.unit.ras.execGroup A.tm L.bvt g
    let B := { A with unit := { A.unit with ras := o.ras } }
    let C := o.marks.foldl (fun B p => B.markRegion p.1 p.2) B
    if L.tail.isSome then C else (List.range o.irqs).foldl (fun C _ => C.raiseBeam 30 L.bvt) C) A

/-- RAS_FETCH.ISSUED and PEAK once a line of the beam has been fetched (R200). DESIGN CHOICE: the opacity bits are those at the end of the
fetch, in which its last phase falls; the overlay is that of its beginning (R234). -/
def Lane.countRequests (L : Lane) (f : LineFetch) : Lane :=
  let c : Cover := { opaqueTile := fun j t => let k := t + 65536 * j; Sparse.get (fun _ => false) L.opqBits k && !L.opqPend.contains k,
                     overlay := fun x => f.covered.contains x }
  let i := satBits 16 (lineRequests c (fun o => Sparse.get laneReset f.regs o) f.view.read (decide (f.line < L.tm.vact)) f.cut f.sel L.tm.hact f.line)
  let w := putBits (L.unit.ras.reg 0x18) 32 16 i
  { L with unit := { L.unit with ras := L.unit.ras.setReg 0x18 (putBits w 48 16 (max (bits w 48 16) i)) } }
/-- LINE_FETCH_COMPLETE (R177, R193, R200, R211): the line can be composed; a blank line is done with. -/
def execLineFetchComplete (l : Nat) (p : Pass) (s : State) : Res :=
  s.onLane l (fun L => match L.pass p with
    | none => none
    | some r =>
      match r.lines.find? (fun f => !f.complete) with
      | none => none
      | some f =>
        let r := if f.listed then r else r.readGroup L.tm f
        let q := { r with lines := (r.lines.map (fun f => { f with complete := true })).filter (fun f => decide (f.line < L.tm.vact)) }
        let A := L.setPass p q
        some (match p with | .beam => (A.countRequests f).lateGroups | .tailrace => A, 0))

/-- Whether every pixel of tile `t` of opacity region `j` is opaque (R188, R201), in video RAM with every store that has landed. -/
def Lane.tileOpaque (L : Lane) (j t : Nat) : Bool :=
  let w := L.unit.ras.reg (0x200 + 8 * j)
  let side := if bit w 48 then 16 else 8
  let f := bits w 49 3
  let M := L.memLate
  let V (a : Nat) : Byte := M.read (0x20000000 + a)
  decide (f < 5) && (List.range side).all (fun r => (List.range side).all (fun c =>
    (texelColour f 0 (texel V f (bits w 10 16 * 1024 + t * tileSize f side + r * tileRow f side) c) false).isSome))

/-- OPACITY_RESCAN (R202): one pending tile is scanned. -/
def execOpacityRescan (l : Nat) (s : State) : Res :=
  s.onLane l (fun L => match L.opqPend with
    | [] => none
    | k :: rest => some ({ L with opqPend := rest, opqBits := Sparse.set (fun _ => false) L.opqBits k (L.tileOpaque (k / 65536) (k % 65536)) }, 0))

/-- RAS_OPQ_WRITE (R202): a write of RAS_OPQ[j] marks every tile of the region pending. -/
def execRasOpqWrite (l j : Nat) (v : BitVec 64) (s : State) : Res :=
  if 2 ≤ j then noUnit
  else s.onLane l (fun L => L.viaQueue (fun e => !e.read && decide (e.off = 0x200 + 8 * j) && decide (e.data = v.toNat)) (fun A =>
    A.storeRas { thread := 0, stamp := A.bvt, off := 0x200 + 8 * j, width := 8, data := v.toNat, read := false, applied := false } A.bvt))

end Sys2Proof.Machine
end

