-- ==== Sys2Proof/Machine/Compose.lean ====
section
/-! DEFINITION. Composition of dots, line status, signatures at point A, the frame tap, and the commit registers (R181,
R182, R202, R218, R225, R226, R228 to R254). -/
namespace Sys2Proof.Machine
open Sys2Proof

/-- What waits for an access of a later dot: no queued raster write applies at or before `v`, and no read below it. -/
def Lane.rasterServed (L : Lane) (v : Nat) : Bool :=
  L.queue.all (fun e => decide (0x20000 ≤ e.off) || decide (if e.read then v ≤ L.dotOf e else v < L.dotOf e))

/-- Whether a pass can compose the dot at VT `v` (R56, R57, R181): the beam once BVT has reached it and every write that applies there has reached
the lane unit. -/
def Lane.canCompose (L : Lane) (p : Pass) (r : Ras) (v : Nat) : Bool :=
  match p with
  | .beam => if L.exact .beam then decide (v < L.nextMil) && L.beamReach v && L.silent (fun _ => false) (v + 1) && L.arrived (v + 1) && L.rasterServed v
             else L.beamReach v && (!L.late || L.queue.all (fun e => e.read || decide (0x20000 ≤ e.off) || decide (v < L.dotOf e)))
  | .tailrace => decide (r.cf ≤ L.tm.frameAt L.lateAt) && L.silent (fun _ => false) (v + 1) && L.arrived (v + 1) &&
      L.queue.all (fun e => decide (0x20000 ≤ e.off) || decide (if e.read && isEval e.off then v ≤ L.dotOf e else v < L.dotOf e))

/-- The status of an active line as its first dot is composed (R198, R202, R218). DESIGN CHOICE: RAS_FETCH.NEED is set here only, so it does not
follow the fetch of a blank line, of which R207 makes phase 1 alone; the manual does not say whether it would. -/
def Ras.lineStatus (r : Ras) (tm : Timing) (f : LineFetch) : Ras × Bool :=
  let ev := sprEval (fun o => Sparse.get laneReset f.regs o) f.line tm.hact (List.range 1024)
  let st := r.reg 0x10
  let st := if f.cut = 0 then st else putBits (w64 (st.toNat ||| f.cut % 16)) 16 13 f.line
  let sp := putBits (putBits (r.reg 0x308) 0 8 ev.sel.length) 48 10 ev.req
  let sp := if ev.drop = 0 then sp else putBits (putBits (putBit sp 8 true) 16 13 f.line) 32 11 ev.drop
  (((r.setReg 0x10 st).setReg 0x18 (putBits (r.reg 0x18) 16 16 (satBits 16 f.need))).setReg 0x308 sp, decide (ev.drop ≠ 0))

/-- The collisions of a pixel of line `l` (R225, R226): the pass, and whether source 29 arises. -/
def Ras.collide (r : Ras) (l coll : Nat) : Ras × Bool :=
  let old := (r.reg 0x310).toNat
  let line := r.reg 0x318
  let q := r.setReg 0x310 (w64 (old ||| coll))
  let q := if coll ≠ 0 ∧ bit line 31 = false then q.setReg 0x318 (w64 (l + 2 ^ 31)) else q
  (q, decide ((coll &&& (r.reg 0x314).toNat) ||| old ≠ old))

/-- The register of signature window `w` (active copy), its expected value and its result (R250). -/
def sigReg (w : Nat) : Nat := if w < 4 then 0x10840 + 8 * w else 0x18400 + 8 * (w - 4)
def sigExp (w : Nat) : Nat := if w < 4 then 0x10860 + 4 * w else 0x18420 + 4 * (w - 4)
/-- Whether window `w` with register `v` is complete once pixel (x, l) has passed (R250). -/
def sigDone (tm : Timing) (v : Word) (x l : Nat) : Bool :=
  bit v 63 && (match sigLast v tm.hact tm.vact with
    | some p => decide (p = (x, l))
    | none => decide (x + 1 = tm.hact) && decide (l + 1 = tm.vact))
/-- A running CRC of a window after a pixel. -/
def sigStep (reg : Word) (d10 : Bool) (x l w : Nat) (c : Nat) : Nat := if sigCovers reg x l then crcPixel d10 c w else c

/-- A lane-side window at point A of the exact pass for the dot at VT `v` (R229, R253, R254): the pass, and whether source 33 arises. Point A has the
pixel at the start of the next dot, which shows the result. -/
def Ras.signature (r : Ras) (tm : Timing) (d10 : Bool) (v x l pw w : Nat) : Ras × Bool :=
  let g := r.reg (sigReg w)
  let c := sigStep g d10 x l pw (Sparse.get crcReset r.crc w)
  let q := { r with crc := Sparse.set crcReset r.crc w c }
  if sigDone tm g x l then
    let res := crc32Final c
    let bad := bit g 62 && decide (res ≠ (r.reg (sigExp w)).toNat)
    ({ q with sigs := q.sigs ++ [(v + tm.dotdiv, w, res, bad)] }, bad)
  else (q, false)

def Operator.display10 (o : Operator) : Bool := bit (o.reg 0x18000) 2
/-- The point-A picture word of a pixel (R228, R245). -/
def Lane.pointAWord (L : Lane) (r : Ras) (x l : Nat) (d : DotResult) : Nat :=
  pixelWord L.op.display10 (pointA r.reg L.op.reg L.op.display.read L.op.meter0 L.op.meter1 x l { r := d.r, g := d.g, b := d.b })

/-- What the exact pass evaluates at a dot: line status, collisions, lane-side windows (R182, R218, R226, R253). -/
def Lane.evaluate (L : Lane) (p : Pass) (r : Ras) (f : LineFetch) (v x pw coll : Nat) : Lane :=
  let m := L.tm.lineVt f.frame f.line
  let r := r.showSigs v
  let r := if x = 0 ∧ f.line = 0 then { r with crc := [] } else r
  let a : Ras × Bool := if x = 0 then r.lineStatus L.tm f else (r, false)
  let b := a.1.collide f.line coll
  let c := [0, 1, 2, 3].foldl (fun (s : Ras × Bool) w =>
    let q := s.1.signature L.tm L.op.display10 v x f.line pw w
    (q.1, s.2 || q.2)) (b.1, false)
  let A := L.setPass p c.1
  let A := if a.2 then A.raiseBeam 28 m else A
  let A := if b.2 then A.raiseBeam 29 m else A
  if c.2 then A.raiseBeam 33 m else A

/-- Where the tap's ring begins in HBM and how many bytes its slots take (R245). -/
def Operator.ringBase (o : Operator) : Nat := bits (o.reg 0x18800) 12 36 * 4096
def Operator.ringBytes (o : Operator) : Nat := (bits (o.reg 0x18800) 4 4 + 1) * (bits (o.reg 0x18800) 48 16 * 4096)
/-- The slot of frame `index` of the tap (R245). -/
def Operator.tapSlot (o : Operator) (index : Nat) : Nat :=
  let c := o.reg 0x18800
  o.ringBase + index % (bits c 4 4 + 1) * (bits c 48 16 * 4096)
def Operator.tapWrite (o : Operator) (a : Nat) (b : Bytes) : Operator := { o with tapRing := o.tapRing.writeBytes a b }

/-- The tap at a frame's first pixel (R246 to R248): the audio of the frame before ends, and the frame is tapped or dropped. DESIGN CHOICE: the
frame 0 of a lane, which has none before it, carries no GAP. -/
def Lane.tapBegin (L : Lane) (frame : Nat) : Lane :=
  let o := L.op
  let o : Operator := match o.tap with
    | some t => { o with tap := none, tapDone := some { t with audio := L.audio.tapMix }, tapLast := t.frame + 1 }
    | none => o
  let A : Lane := { L with audio := { L.audio with tapMix := [] } }
  let c := o.reg 0x18800
  let ix := o.reg 0x18808
  let st := o.reg 0x18810
  let full := decide (bits c 4 4 + 1 ≤ (bits ix 0 32 + 2 ^ 32 - bits ix 32 32) % 2 ^ 32)
  let replay := match L.roll with | some r => decide (frame < r.d) | none => false
  if !bit c 0 || replay then { A with op := o }
  else if full && bit c 1 then
    { A with op := o.setReg 0x18810 (putBits st 16 16 (satBits 16 (bits st 16 16 + 1))) }
  else
    let slot := o.tapSlot (o.tapCount + o.tapDone.isSome.toNat)
    let out := o.reg 0x18000
    let size := leBytes 2 L.tm.hact ++ leBytes 2 L.tm.vact ++ leBytes 1 (if bit out 2 then 10 else 8) ++ leBytes 1 (bits out 0 2)
    let flags := L.late.toNat + 2 * (decide (frame = L.tm.n0) && decide (L.tm.k0 ≠ 0)).toNat + 4 * (decide (o.tapLast ≠ frame)).toNat
    let t : TapFrame := { slot := slot, size := size, stride := tapStride L.tm.hact, frame := frame, vt := L.tm.lineVt frame 0, flags := flags, sigs := [], audio := [] }
    let o := if full then o.setReg 0x18810 (putBits st 0 16 (satBits 16 (bits st 0 16 + 1))) else o
    { A with op := { o.tapWrite slot (List.replicate 8 0xFF) with tap := some t } }

/-- A picture word to the tap. Whether the fabric accepts it in time is not given: a free choice for each word (R249). -/
def Lane.tapPixel (l : Nat) (L : Lane) (x y pw : Nat) : Lane :=
  match L.op.tap with
  | none => L
  | some t =>
    let A : Lane := { L with draws := L.draws + 1 }
    if Config.freeBool (laneDraw l L) then { A with op := { L.op with tap := some { t with flags := t.flags ||| 8 } } }
    else { A with op := L.op.tapWrite (t.slot + 0x3000 + t.stride * y + 4 * x) (leBytes 4 pw) }

/-- The encoder's line store and the running CRCs of the slice and the windows at point A (R244, R250, R252). -/
def Lane.encodePixel (L : Lane) (r : Ras) (x l pw : Nat) : Lane :=
  let e := L.enc
  let d10 := L.op.display10
  let s := l / 16
  let c0 := if x = 0 ∧ l % 16 = 0 then crc32Init else Sparse.get crcReset e.crcA s
  let win := if x = 0 ∧ l = 0 then [] else e.winA
  let reg (w : Nat) : Word := if w < 4 then r.reg (sigReg w) else L.op.reg (sigReg w)
  let win := (List.range 8).foldl (fun m w => Sparse.set crcReset m w (sigStep (reg w) d10 x l pw (Sparse.get crcReset m w))) win
  { L with enc := { e with store := Sparse.set zeroNat e.store (2048 * l + x) pw, crcA := Sparse.set crcReset e.crcA s (crcPixel d10 c0 pw),
                           winA := win } }
/-- The operator-side windows that are complete at point A (R253): the lane, and the windows that mismatched. -/
def Lane.operatorWindows (L : Lane) (x l : Nat) : Lane × List Nat :=
  [4, 5, 6, 7].foldl (fun (a : Lane × List Nat) w =>
    let o := a.1.op
    let v := o.reg (sigReg w)
    if sigDone L.tm v x l then
      let res := crc32Final (Sparse.get crcReset a.1.enc.winA w)
      let bad := bit v 62 && decide (res ≠ (o.reg (sigExp w)).toNat)
      let o := (o.setReg (0x18430 + 4 * (w - 4)) (w64 res)).setReg 0x18440 (putBit (o.reg 0x18440) w bad)
      ({ a.1 with op := o }, if bad then a.2 ++ [w] else a.2)
    else a) (L, [])
/-- The tap keeps the CRCs of the windows when the last pixel has passed (R246). -/
def Lane.tapSigs (L : Lane) (r : Ras) : Lane :=
  let sig (w : Nat) : Nat :=
    let v := if w < 4 then r.reg (sigReg w) else L.op.reg (sigReg w)
    if bit v 63 then crc32Final (Sparse.get crcReset L.enc.winA w) else 0
  { L with op := { L.op with tap := L.op.tap.map (fun (t : TapFrame) => { t with sigs := (List.range 8).map sig }) } }
/-- The scroll registers a slice's first line was fetched with, for COPY (R332): 0 for a layer that is not a regular one
in use, else scroll, map width and map height in pixels. -/
def Lane.keepScroll (L : Lane) (f : LineFetch) : Lane :=
  let R (o : Nat) : Word := Sparse.get laneReset f.regs o
  let one (m : Sparse Nat) (n : Nat) : Sparse Nat :=
    let v := if bgOn R n && !bgAffine R n then
        1 + 2 * (R (0x10C + 0x40 * n)).toNat + 2 ^ 30 * (bgMapW R n * bgTile R n) + 2 ^ 45 * (bgMapH R n * bgTile R n) else 0
    Sparse.set zeroNat m (4 * f.line + n) v
  { L with enc := { L.enc with scrCur := [0, 1, 2, 3].foldl one L.enc.scrCur } }

/-- What the beam's dot does beyond evaluation: point A, the operator side, the tap and TRAIL (R202, R228, R244). -/
def Lane.beamPixel (l : Nat) (L : Lane) (r : Ras) (f : LineFetch) (x v pw : Nat) : Lane × List Nat :=
  let A := if x = 0 ∧ f.line = 0 then L.tapBegin f.frame else L
  let A := if x = 0 ∧ f.line % 16 = 0 then A.keepScroll f else A
  let A := (A.tapPixel l x f.line pw).encodePixel r x f.line pw
  let B := A.operatorWindows x f.line
  let C := if x + 1 = L.tm.hact ∧ f.line + 1 = L.tm.vact then B.1.tapSigs r else B.1
  let q := C.unit.ras
  let st := q.reg 0x10
  let q := q.setReg 0x10 (putBits st 32 16 (max (bits st 32 16) (satBits 16 (L.bvt - v))))
  ({ C with unit := { C.unit with ras := q } }, B.2)

/-- The next active dot, the line done with after its last one. -/
def Ras.advance (r : Ras) (tm : Timing) : Ras :=
  if r.cx + 1 < tm.hact then { r with cx := r.cx + 1 }
  else
    let q := { r with cx := 0, lines := r.lines.filter (fun f => !(decide (f.frame = r.cf) && decide (f.line = r.cl))) }
    if r.cl + 1 < tm.vact then { q with cl := r.cl + 1 } else { q with cf := r.cf + 1, cl := 0 }

/-- Whether the encoder and the tap are done with the frame before, at a frame's first dot. -/
def Lane.frameFree (L : Lane) (p : Pass) (r : Ras) : Bool :=
  match p with
  | .beam => decide (r.cx ≠ 0) || decide (r.cl ≠ 0) || (decide (L.enc.bf = r.cf) && decide (L.enc.sf = r.cf) &&
      (L.op.tap.isNone || L.op.tapDone.isNone))
  | .tailrace => true

/-- One dot of a pass: the lane, and the operator-side windows that mismatched. -/
def Lane.compose (l : Nat) (L : Lane) (p : Pass) (r0 : Ras) (f : LineFetch) : Lane × List Nat :=
  let x := r0.cx
  let v := r0.nextVt L.tm
  let A := match p with
    | .beam => L.beamTo v
    | .tailrace => L.syncTail v
  let r := (A.pass p).getD r0
  let d := composeDot (fun o => Sparse.get laneReset f.regs o) r.reg f.view.read f.cut f.sel x f.line
  let pw := A.pointAWord r x f.line d
  let B := if decide (p = .tailrace) || L.tail.isNone then A.evaluate p r f v x pw d.coll else A
  let C : Lane × List Nat := match p with
    | .beam => B.beamPixel l r f x v pw
    | .tailrace => (B, [])
  match C.1.pass p with
  | some q => (C.1.setPass p (q.advance L.tm), C.2)
  | none => C

/-- SIG_MISMATCH for each window (R253, R430). -/
def State.mismatch (s : State) (l : Nat) (ws : List Nat) : State :=
  ws.foldl (fun s w => s.event (halfOf l) 0x0002 l (s.lane l).frameNow (2 ^ w)) s

/-- DOT_COMPOSE (R181, R228). -/
def execDotCompose (l : Nat) (p : Pass) (s : State) : Res :=
  if 256 ≤ l then noUnit
  else
    let L := s.lane l
    match L.pass p with
    | none => stay s
    | some r =>
      match r.lines.find? (fun f => f.complete && decide (f.frame = r.cf) && decide (f.line = r.cl)) with
      | none => stay s
      | some f =>
        if L.canCompose p r (r.nextVt L.tm) && L.frameFree p r then
          let q := L.compose l p r f
          .next ((s.putLane l q.1).mismatch l q.2)
        else stay s

/-- The header of a tapped frame, without FRAME (R246). -/
def TapFrame.header (t : TapFrame) : Bytes :=
  leBytes 8 t.vt ++ t.size ++ leBytes 2 t.flags ++ leBytes 4 t.stride ++ leBytes 2 (min 2048 t.audio.length) ++ [0, 0] ++
    (List.range 8).flatMap (fun w => leBytes 4 (t.sigs.getD w 0)) ++ List.replicate 192 0
/-- The audio of a slot (R245). -/
def tapAudio (a : List (Int × Int)) : Bytes :=
  (a.take 2048).flatMap (fun p => leBytes 2 (unsigned 16 p.1) ++ leBytes 2 (unsigned 16 p.2))

/-- TAP_FRAME_END (R247): audio, header, FRAME last; WR counts the frame. -/
def execTapFrameEnd (l : Nat) (s : State) : Res :=
  s.onLane l (fun L => match L.op.tapDone with
    | none => none
    | some t =>
      let a := t.slot
      let o := ((L.op.tapWrite (a + 0x100) (tapAudio t.audio)).tapWrite (a + 8) t.header).tapWrite a (leBytes 8 t.frame)
      let ix := o.reg 0x18808
      some ({ L with op := { o.setReg 0x18808 (putBits ix 0 32 (bits ix 0 32 + 1)) with tapDone := none, tapCount := o.tapCount + 1 } }, 0))

/-- OVERLAY_COPY (R230): the new display copy has been copied into staging. -/
def execOverlayCopy (l : Nat) (s : State) : Res :=
  s.onLane l (fun L => if L.op.copying then some ({ L with op := { L.op with staging := L.op.display, copying := false } }, 0) else none)

/-- CPS_COMMIT_REQ (R236, R238): a write of CPS_COMMIT. -/
def execCpsCommitReq (l : Nat) (v : BitVec 32) (vt : Nat) (s : State) : Res :=
  s.onLane l (fun L => L.viaQueue (fun e => !e.read && decide (e.off = 0x10020) && decide (e.data = v.toNat) && decide (L.serveVt e = vt))
    (fun A => A.storeRas { thread := 0, stamp := vt, off := 0x10020, width := 4, data := v.toNat, read := false, applied := false } vt))

/-- CPS_TAP_IDX_WRITE (R248): the host writes RD. -/
def execCpsTapIdxWrite (l : Nat) (v : BitVec 64) (s : State) : Res :=
  s.onLane l (fun L => if L.phase = .stopped then none
    else some ({ L with op := L.op.setReg 0x18808 (putBits (L.op.reg 0x18808) 32 32 (bits v 32 32)) }, 0))

end Sys2Proof.Machine
end

