-- ==== Sys2Proof/Machine/Checkpoint.lean ====
section
/-! DEFINITION. Checkpoints and rollback (R394 to R405). -/
namespace Sys2Proof.Machine
open Sys2Proof

/-- The newest checkpoint replaced. -/
def Lane.setCkpt (L : Lane) (c : Checkpoint) : Lane := { L with ckpts := L.ckpts.dropLast ++ [c] }
/-- Whether every write stamped below `f` is known (R396). -/
def Lane.knownBelow (L : Lane) (f : Nat) : Bool := L.allCaptured f && (!L.det || (L.ticked f && L.bltPast f))
/-- Whether near SRAM is copied for boundary `f` (R398). -/
def Lane.nearDone (L : Lane) (f : Nat) : Bool := decide (f + 1 < L.nearAt) || (decide (L.nearAt = f + 1) && decide (64 ≤ L.near))
/-- The newest checkpoint brought as far as it goes (R395, R396, R398, R399): its memory once every write below F is known, and
the device time at which its capture is complete. -/
def Lane.sealCkpt (L : Lane) (time : Nat) : Lane :=
  match L.lastCkpt with
  | none => L
  | some c =>
    let c := if c.mem.isNone && L.knownBelow c.vt then { c with mem := some (if L.det then L.memAt c.vt else L.mem), hidden := if L.det then L.hiddenAt c.vt else [] } else c
    let done := L.allCaptured c.vt && L.nearDone c.vt && c.recorded
    L.setCkpt (if c.completeAt.isNone && done then { c with completeAt := some time } else c)

/-- The context that is captured at `f`: a divide that spans `f` and is abandoned at or after it has not executed (R86, R395). -/
def Lane.atCapture (L : Lane) (t f : Nat) : Thread :=
  let x := L.thread t
  match x.divide with
  | some (i, _) =>
    match L.abandonPoint t i (x.vt + 1) with
    | some p => if L.det && decide (f ≤ p) && L.fixed (p + 1) && L.silent (fun u => decide (u = t)) (p + 1) then x.abandon p else x
    | none => x
  | none => x
/-- Whether thread `t` stands at the boundary that its next capture is for (R394, R395); an entry in progress is captured as it is where its
vector read lies at or above the boundary. -/
def Lane.captureAt (L : Lane) (t : Nat) : Option Nat :=
  let f := if (L.thread t).capVt < L.tm.v0 then L.tm.v0 else L.tm.nextBoundary (L.thread t).capVt
  let x := L.atCapture t f
  let there := if L.det then (if x.waiting then decide (f ≤ L.bvt) && (L.wakePoint t (f - 1)).isNone else decide (f ≤ (match x.entering with | some q => q.read | none => x.vt))) else decide (f ≤ L.bvt)
  let clean := x.sb.isEmpty && x.loads.isEmpty && x.units.isEmpty
  if x.active && there && clean then some f else none
/-- A thread's context is captured at `f`: into the checkpoint, or kept until the lane unit's state at `f` is latched. -/
def Lane.capture (L : Lane) (t f : Nat) : Lane :=
  let x := { L.atCapture t f with capVt := f }
  let A := L.setThread t x
  match A.lastCkpt with
  | some c =>
    if c.vt = f then A.setCkpt { c with threads := Sparse.set threadInit c.threads t x, captured := c.captured ++ [t] }
    else { A with early := A.early ++ [(f, t, x)] }
  | none => { A with early := A.early ++ [(f, t, x)] }

/-- CONTEXT_CAPTURE (R394, R395). -/
def execContextCapture (l t : Nat) (s : State) : Res :=
  if 4 ≤ t then noUnit
  else s.onLane l (fun L => match L.captureAt t with
    | none => none
    | some f => if L.phase = .stopped ∨ L.phase = .rolling then none else some ((L.capture t f).sealCkpt s.time, 0))

/-- Whether a lane's checkpoints go on: not while it is stopped, starting or rolling back (R399, R402). -/
def Lane.captures (L : Lane) : Bool := decide (L.phase = .running) || decide (L.phase = .paused)
/-- The boundary whose next page of near SRAM is copied (R398): that of the copy in progress, or the next at which every thread has been
captured. -/
def Lane.nearNext (L : Lane) : Option Nat :=
  if L.near < 64 then some (L.nearAt - 1)
  else
    let f := if L.tm.boundary L.nearAt = L.nearAt then L.nearAt else L.tm.nextBoundary L.nearAt
    if L.allCaptured f && (decide (f ≤ L.bvt) || L.threads.any (·.active)) then some f else none
/-- NEAR_SRAM_PAGE_COPY (R398): the next page, once every thread is captured. -/
def execNearSramPageCopy (l : Nat) (s : State) : Res :=
  s.onLane l (fun L => match L.nearNext with
    | none => none
    | some f =>
      if L.captures then some (({ L with near := if L.near < 64 then L.near + 1 else 1, nearAt := f + 1 } : Lane).sealCkpt s.time, 0) else none)

/-- LANE_UNIT_STATE_RECORD (R395). -/
def execLaneUnitStateRecord (l : Nat) (s : State) : Res :=
  s.onLane l (fun L => match L.lastCkpt with
    | none => none
    | some c => if c.recorded || !L.captures then none else some ((L.setCkpt { c with recorded := true }).sealCkpt s.time, 0))

/-- Whether a detected fault of the lane or of its half has been reported in the 20 µs from a device time on (R399); masked faults, of
ACTION 0 to 2 (R445, R456), are none. -/
def State.faultSince (s : State) (l t : Nat) : Bool :=
  (s.half (halfOf l)).sp.records.any (fun r =>
    decide (2 < r.action) && decide (t ≤ r.time) && decide (r.time < t + 20000) && (decide (r.lane = l) || decide (r.levee = 2)))
/-- Whether a checkpoint of lane `l` has become good (R399): 20 µs after its capture is complete, with no fault reported in them. -/
def State.ripe (s : State) (l : Nat) (c : Checkpoint) : Bool :=
  match c.completeAt with
  | none => false
  | some t => !(s.half (halfOf l)).sp.spRestart && decide (t + 20000 ≤ s.time) && c.mem.isSome && !s.faultSince l t
/-- The checkpoints of lane `l` that have become good. -/
def State.ripen (s : State) (l : Nat) : State :=
  let L := s.lane l
  if L.captures then s.putLane l { L with ckpts := L.ckpts.map (fun c => { c with good := c.good || s.ripe l c }) } else s
/-- CHECKPOINT_GOOD (R399): the newest checkpoint. -/
def execCheckpointGood (l tm : Nat) (s : State) : Res :=
  let s := s.at tm
  s.onLane l (fun L =>
    let A := L.sealCkpt s.time
    match A.lastCkpt with
    | none => none
    | some c => if A.captures && !c.good && s.ripe l c then some (A.setCkpt { c with good := true }, 0) else none)

/-- The newest good checkpoint. -/
def Lane.goodCkpt (L : Lane) : Option Checkpoint := (L.ckpts.filter (fun c => c.good && c.mem.isSome)).getLast?
/-- The checkpoint that a rollback in progress restores (R402, R403). -/
def Lane.targetCkpt (L : Lane) : Option Checkpoint :=
  match L.roll with
  | some r => L.ckpts.find? (fun c => decide (c.vt = r.target) && c.good && c.mem.isSome)
  | none => none

/-- The lane as its checkpoint holds it, its clock at F (R403 to R405). -/
def Lane.restore (L : Lane) (c : Checkpoint) (r : Rollback) : Lane :=
  let thread (t : Nat) : Thread := let x := Sparse.get threadInit c.threads t
    { x with admitted := (L.thread t).admitted, slots := (L.thread t).slots }
  let keep := [0x18808, 0x18810]
  let act := keep.foldl (fun m o => Sparse.set laneReset m o (L.op.reg o)) c.op.act
  let op : Operator := { c.op with act := act, stage := L.op.stage, staging := L.op.staging, copying := L.op.copying, tap := L.op.tap.filter (fun t => decide (t.frame < r.d)), tapDone := L.op.tapDone, tapLast := L.op.tapLast, tapCount := L.op.tapCount, tapRing := L.op.tapRing }
  let mine (o : Nat) : Bool := decide (0x38000 ≤ o) || decide (o = 0x34028)
  let regs := (L.unit.regs.filter (fun p => mine p.1)).foldl (fun m p => Sparse.set laneReset m p.1 p.2)
    (c.unit.regs.foldl (fun m p => if mine p.1 then m else Sparse.set laneReset m p.1 p.2) [])
  let base : LaneUnit := { c.unit with regs := regs }
  let unit := base.setReg 0x34008 (putBits (c.unit.reg 0x34008) 48 16 (bits (L.unit.reg 0x34008) 48 16))
  let enc : Encoder := { L.enc with bf := c.frame, bl := 0, bx := 0, sf := c.frame, sl := 0, store := [], crcA := [], crcB := [], winA := [], winB := [] }
  { L with phase := if r.pauseAfter then .paused else .running, unit := unit, tail := none, tailWr := [], op := op,
           th := (List.range 4).foldl (fun m t => Sparse.set threadInit m t (thread t)) [], mem := c.mem.getD L.mem, hidden := c.hidden, stopping := false, log := [], gate := [],
           near := 64, nearAt := c.vt + 1, bvt := c.vt, mil := c.unit.tm.milIndex c.vt, late := false, hold := .none, copied := false, queue := c.queue,
           cross := c.cross, inputs := L.inputs.map (fun i => if c.vt ≤ i.vt then { i with applied := false } else i),
           ckpts := L.ckpts.filter (fun k => decide (k.vt ≤ c.vt)), early := [], roll := some { r with restored := true },
           pages := L.pages.filter (fun p => decide (p.1 < c.vt)), rollbacks := satBits 32 (L.rollbacks + 1), audio := L.audio.restartWeir0, enc := enc, opqPend := [], opqBits := [],
           replies := [], tailAt := none }
/-- The opacity regions are scanned again. -/
def Lane.rescan (L : Lane) : Lane := [0, 1].foldl (fun A j => A.markRegion j (A.unit.ras.reg (0x200 + 8 * j)).toNat) L

/-- A lane restored while its half drains (R508, R513): a paused one whose image is still to be made, or is given up, counts as frozen; where
no image is kept a running one freezes at its next frame boundary. -/
def Lane.drainAgain (L : Lane) (given : Bool) : Lane :=
  if L.phase = .paused then
    (if given || L.snap.any (·.drain) then { L with pausedFor := { L.pausedFor with drain := true } } else L)
  else if given then { L with pauseDue := { L.pauseDue with drain := true } } else L
/-- RESTORE_COMPLETE (R375, R403, R405, R430). -/
def execRestoreComplete (l tm : Nat) (s : State) : Res :=
  if 256 ≤ l then noUnit
  else
    let s := s.at tm
    let L := s.lane l
    match L.roll, L.targetCkpt with
    | some r, some c =>
      if L.phase = .rolling ∧ r.restored = false ∧ (s.half (halfOf l)).sp.spRestart = false then
        let s := s.dropAllLines l
        let H := s.half (halfOf l)
        let s := s.putHalf (halfOf l) { H with sp := H.sp.moved l }
        let A := (L.restore c r).rescan
        let s := s.putLane l (if H.drain.lanes.contains l then A.drainAgain H.drain.buffersOver else A)
        let s := if r.pauseAfter then s.unlock l else s
        .next ((s.lifeAdd (halfOf l) 0x40 8 1).event (halfOf l) 0x0005 l (c.frame % 2 ^ 32) (c.frame % 2 ^ 32))
      else stay s
    | some _, none => stay s
    | none, _ => stay s

end Sys2Proof.Machine
end

