-- ==== Sys2Proof/Machine/Network.lean ====
section
/-! DEFINITION. Reception of datagrams, client messages, refresh lock, send pacing, repeats, idle viewers and port failover
(R313 to R323, R344 to R354, R358 to R385). -/
namespace Sys2Proof.Machine
open Sys2Proof

/-- A received discard, counted by its reason (NET_RXD). -/
def State.discard (s : State) (h : HalfId) (k : Nat) : State :=
  if !s.runs then s else
  let H := s.half h
  s.putHalf h { H with net := { H.net with rxd := Sparse.set zeroNat H.net.rxd k (satBits 64 (Sparse.get zeroNat H.net.rxd k + 1)) } }

/-- Whether an address is one of a sub-port's. -/
def SubPort.owns (p : SubPort) (family : Nat) (a : Bytes) : Bool := if family = 6 then p.ip6.contains a else p.ip4.contains a
/-- Whether the frame is addressed to the sub-port it arrives on, or to the one that it carries (R358, R383). -/
def State.addressed (s : State) (h : HalfId) (rx : Rx) : Bool :=
  let own := Sparse.get subPortReset (s.half h).net.subs rx.sub
  own.owns rx.family rx.dst || (own.carry && (Sparse.get subPortReset (s.half (HalfId.peer h)).net.subs rx.sub).owns rx.family rx.dst)
/-- Whether a frame passes R358, its VLAN tag apart. -/
def State.frameOk (s : State) (h : HalfId) (rx : Rx) : Bool :=
  decide (rx.tags.length ≤ 1) && rx.plain && (match rx.cksum with | some ok => ok | none => decide (rx.family = 4)) && s.addressed h rx
/-- The VID of a tag, 0 of none. -/
def vidOf : Option Nat → Nat
  | some v => v % 4096
  | none => 0
/-- Whether a frame carries the flow's VID; no tag counts as VID 0. -/
def Flow.vlanOk (f : Flow) (tags : List Nat) : Bool := decide (vidOf tags.head? = vidOf f.tag)

/-- The holder of a flow: a viewer of a half, or the half's control flow. -/
inductive Holder
  | viewer (v : Nat) (x : Viewer)
  | control (c : Control)
def Holder.flow : Holder → Flow
  | .viewer _ x => x.flow
  | .control c => c.flow
/-- The holder of a flow in one half. -/
def Half.holder (H : Half) (flow : Nat) : Option Holder :=
  match H.net.viewers.findSome? (fun p => match p.2 with | some x => if x.flow.id = flow then some (p.1, x) else none | none => none) with
  | some p => some (.viewer p.1 p.2)
  | none => match H.net.control with
    | some c => if c.flow.id = flow then some (.control c) else none
    | none => none
/-- The half that holds a flow named by a frame received in half `h` (R383). -/
def State.findHolder (s : State) (h : HalfId) (rx : Rx) (flow : Nat) : Option (HalfId × Holder) :=
  match (s.half h).holder flow with
  | some x => some (h, x)
  | none =>
    if (Sparse.get subPortReset (s.half h).net.subs rx.sub).carry then ((s.half (HalfId.peer h)).holder flow).map (fun x => (HalfId.peer h, x))
    else none

/-- The message types a client may send, and the orchestrator on a control flow (R322, R356). -/
def Holder.types : Holder → List Nat
  | .viewer _ _ => [0x81, 0x82, 0x83, 0x84, 0x85, 0x86, 0x87]
  | .control _ => [0x40]

/-- What comes of a frame: discarded for a reason, or a message of its holder. -/
inductive Received
  | bad (k : Nat)
  | msg (h : HalfId) (x : Holder) (hd : RxHead) (flow : Flow) (payload : Bytes)

/-- BX of a lane (R324). -/
def Lane.bx (L : Lane) : Nat := ceilDiv L.tm.hact 16
def Lane.nslice (L : Lane) : Nat := ceilDiv L.tm.vact 16

/-- A received frame checked (R316, R317, R320, R358): the flow of the message has its replay record advanced. -/
def State.receive (s : State) (h : HalfId) (rx : Rx) : Received :=
  let hd := rxHead rx.udp
  if !rx.fcsOk || decide (rx.size < 64) || decide (9216 < rx.size) then .bad 0
  else if !s.frameOk h rx then .bad 1
  else if decide (hd.ver ≠ 1) || decide (rx.udp.length ≠ 40 + hd.len) then .bad 2
  else match s.findHolder h rx hd.flow with
    | none => .bad 3
    | some (o, x) =>
      let f := x.flow
      if !f.vlanOk rx.tags then .bad 1
      else match f.keyFor hd.epoch s.time with
        | none => .bad 4
        | some (key, rep) =>
          match gcmOpen (keyOf f.cipher key) (runnelNonce f.id hd.seq 1 hd.epoch) (rx.udp.take 24) (rx.udp.drop 24) with
          | none => .bad 4
          | some p =>
            if !rep.ok hd.seq then .bad 5
            else if !x.types.contains hd.type then .bad 6
            else
              let bx := match x with | .viewer _ y => (s.lane y.lane).bx | .control _ => 0
              if !payloadOk hd.type bx p then .bad 2 else .msg o x hd (f.accept hd.epoch hd.seq) p

/-- Whether a message comes from the address its flow is bound to (R321). -/
def Flow.boundTo (f : Flow) (rx : Rx) : Bool := decide (f.bound = some (rx.src, rx.sport))

/-- A client message of type `type` (R316, R321, R361): discarded and counted, or given to `f` with the time of its receipt
noted; a frame of another type is not this event. -/
def State.client (s : State) (h : HalfId) (rx : Rx) (tm type : Nat) (f : State → HalfId → Nat → Viewer → Bytes → State) : Res :=
  let s := s.at tm
  match s.receive h rx with
  | .bad k => .next (s.discard h k)
  | .msg _ (.control _) _ _ _ => stay s
  | .msg o (.viewer v x) hd fl p =>
    if hd.type ≠ type then stay s
    else
      let x := { x with flow := fl }
      let s := s.putHalf o ((s.half o).putViewer v (some x))
      if decide (x.state = 3) || (decide (type ≠ 0x86) && !fl.boundTo rx) then .next (s.discard o 7)
      else
        let y := { x with lastRx := s.time }
        .next (if type = 0x86 then f s o v x p else f (s.putHalf o ((s.half o).putViewer v (some y))) o v y p)

/-- Whether frame `f` lies from `cur − n` to `cur` (R323, R338). -/
def frameWithin (f cur n : Nat) : Bool := decide ((cur + 2 ^ 32 - f) % 2 ^ 32 ≤ n)
/-- CHG of a block (R334). -/
def Lane.chg (L : Lane) (b : Nat) : Nat := Sparse.get zeroNat L.enc.chg b
/-- One ACK record (R338). -/
def Viewer.ackRecord (x : Viewer) (L : Lane) (r : Bytes) : Viewer :=
  let f := leAt r 0 4
  let sl := leAt r 4 1
  let nb := leAt r 5 1
  if !frameWithin f L.frameNow 15 || decide (L.nslice ≤ sl) then x
  else
    (List.range L.bx).foldl (fun x c =>
      let b := 128 * sl + c
      let st := Sparse.get blockFresh x.blocks b
      if (leAt r (8 + c / 8) 1).testBit (c % 8) && !st.none && decide (f % 256 = st.sent) && !serialBefore f (L.chg b % 2 ^ 32) then
        { x with blocks := Sparse.set blockFresh x.blocks b { st with dirty := false, coarse := (leAt r (8 + nb + c / 8) 1).testBit (c % 8) } }
      else x) x
/-- A round-trip sample (R366). -/
def Viewer.roundTrip (x : Viewer) (sample : Nat) : Viewer :=
  if 1000000000 < sample then x
  else match x.rtt with
    | none => { x with rtt := some sample }
    | some r => { x with rtt := some ((r : Int) + ((sample : Int) - r) / 8).toNat }
/-- An ACK (R338, R341, R347, R366). -/
def Viewer.acked (x : Viewer) (L : Lane) (time : Nat) (p : Bytes) : Viewer :=
  let y := x.roundTrip ((time + 2 * 2 ^ 32 - leAt p 4 4 - leAt p 8 4) % 2 ^ 32)
  if leAt p 0 4 ≠ x.keyref then y
  else
    let n := 8 + 2 * ceilDiv L.bx 8
    (List.range (leAt p 12 1)).foldl (fun y i => y.ackRecord L (slice p (16 + n * i) n)) { y with keyOpen := false }

/-- ACK (R338, R365, R366). -/
def execAck (h : HalfId) (rx : Rx) (tm : Nat) (s : State) : Res :=
  s.client h rx tm 0x81 (fun s o v x p => s.putHalf o ((s.half o).putViewer v (some (x.acked (s.lane x.lane) s.time p))))

/-- Reduction by whole periods into [−1/2, 1/2) (R374). -/
def halfPeriod (e : Rat) : Rat := e - (((e + 1 / 2).floor : Int) : Rat)
def ratClamp (b x : Rat) : Rat := if x < -b then -b else if b < x then b else x
def ratAbs (x : Rat) : Rat := if x < 0 then -x else x
/-- The loop of R374 and the counts of R375 for one accepted entry. -/
def Lock.step (k : Lock) (L : Lane) (lead : Int) (delta : Int) (rperiod time : Nat) : Lock :=
  let i0 := L.entryI0 rperiod
  let k := { k with rper := some rperiod, lastAt := time }
  if k.lock = 0 ∧ 5000 < ratAbs i0 then k
  else
    let k := { k with toZero := false }
    let k := if k.lock = 0 then { k with lock := 1, i := i0, good := 0, bad := 0 } else k
    let e := halfPeriod (((delta - 1000 * lead : Int) : Rat) / L.period)
    let i := ratClamp 5000 (k.i - 10 * e)
    let t := ratRound (4 * ratClamp 5000 (i - 5000 * e))
    let good := if ratAbs e < 1 / 100 then k.good + 1 else 0
    let bad := if 1 / 20 ≤ ratAbs e then k.bad + 1 else 0
    let k := { k with i := i, target := t, good := good, bad := bad }
    if k.lock = 1 ∧ 60 ≤ good then { k with lock := 2, good := 0, bad := 0 }
    else if k.lock = 2 ∧ 8 ≤ bad then { k with lock := 1, good := 0, bad := 0 } else k

/-- Whether an entry of REFRESH is accepted (R373), its RFLAGS apart. -/
def Viewer.entryOk (x : Viewer) (L : Lane) (e : Bytes) : Bool :=
  let f := leAt e 0 4
  let d := signed 32 (leAt e 4 4)
  let rp := leAt e 8 4
  x.sent.contains f && frameWithin f L.frameNow 16 && !x.accepted.contains f &&
    decide (((d.natAbs : Nat) : Rat) ≤ 4 * L.period) && decide (16000000000 ≤ 240 * rp) && decide (23976 * rp ≤ 16000000000000)
/-- One entry of the pacing viewer's REFRESH (R373, R374). -/
def State.refreshEntry (s : State) (h : HalfId) (v l : Nat) (e : Bytes) : State :=
  match (s.half h).viewer v with
  | none => s
  | some x =>
    let L := s.lane l
    let n := s.netLane l
    if (leAt e 12 4).testBit 0 then s.setLock l { n.lock with lock := 0, good := 0, bad := 0, toZero := true }
    else if !x.entryOk L e then s
    else
      let y := { x with accepted := (leAt e 0 4 :: x.accepted).take 32 }
      (s.putHalf h ((s.half h).putViewer v (some y))).setLock l (n.lock.step L n.lead (signed 32 (leAt e 4 4)) (leAt e 8 4) s.time)

/-- REFRESH (R372 to R375): the pacing viewer's entries steer the lane; another viewer's message is discarded. -/
def execRefresh (h : HalfId) (rx : Rx) (tm : Nat) (s : State) : Res :=
  s.client h rx tm 0x82 (fun s o v x p =>
    let n := s.netLane x.lane
    if n.pen && decide (n.pacer = v) && decide (x.state = 1) then
      (List.range (leAt p 0 1)).foldl (fun s i => s.refreshEntry o v x.lane (slice p (4 + 16 * i) 16)) s
    else s)

/-- Whether the engine accepts an input message of a viewer (R350, R378). -/
def Viewer.mayInput (x : Viewer) : Bool := x.player && decide (x.state = 1) && x.slotJoined
/-- The pad state of an INPUT (R350, R381): the reserved buttons are stored 0. -/
def padState (p : Bytes) : Bytes := slice p 0 3 ++ [0] ++ slice p 4 12

/-- INPUT (R350, R378, R380). -/
def execInput (h : HalfId) (rx : Rx) (tm : Nat) (s : State) : Res :=
  s.client h rx tm 0x83 (fun s o v x p =>
    if !x.mayInput then s.discard o 7
    else
      let s := s.putHalf o ((s.half o).putViewer v (some { x with shown := leAt p 16 4 }))
      let L := s.lane x.lane
      if padState p = Sparse.get padZero L.lastPads x.slot then s
      else
        let A := { L with lastPads := Sparse.set padZero L.lastPads x.slot (padState p) }
        s.logInput x.lane (A.edge true false true) L.inputVt 1 x.slot (padState p) none)

def accZero (_ : Nat) : Bytes := List.replicate 8 0
/-- Whether a slot is muted once an accepted message `p` has followed `old` (R309, R351): a removal leaves TYPE 0, an insertion or a type
report sets TYPE. -/
def accMute (was : Bool) (old p : Bytes) : Bool :=
  if leAt old 0 1 % 2 = 1 ∧ leAt p 0 1 % 2 = 0 then true
  else if leAt old 0 1 % 2 ≠ leAt p 0 1 % 2 ∨ leAt old 1 1 % 4 ≠ leAt p 1 1 % 4 then decide (leAt p 1 1 % 4 < 2) else was
/-- ACCESSORY (R307, R309, R351): the differences from the last message become an input; muting acts at once. -/
def execAccessory (h : HalfId) (rx : Rx) (tm : Nat) (s : State) : Res :=
  s.client h rx tm 0x84 (fun s o v x p =>
    if !x.mayInput then s.discard o 7
    else
      let L := s.lane x.lane
      let old := Sparse.get accZero L.lastAcc v
      if p = old then s
      else
        let a := L.audio.setMute x.slot (accMute (L.audio.muted.getD x.slot true) old p) (fun o => L.unit.reg (0x38000 + 8 * o))
        let A := { L with lastAcc := Sparse.set accZero L.lastAcc v p, audio := a }
        s.logInput x.lane (A.edge false true false) L.inputVt 2 x.slot (p ++ old) none)

/-- VOICE (R309, R310, R352): a packet of a slot that is not muted enters its store; one sent under the epoch before a rekey comes before
those of the present one. -/
def execVoice (h : HalfId) (rx : Rx) (tm : Nat) (s : State) : Res :=
  let hd := rxHead rx.udp
  s.client h rx tm 0x85 (fun s o _ x p =>
    if !x.mayInput then s.discard o 7
    else
      let L := s.lane x.lane
      if L.audio.muted.getD x.slot true then s
      else
        let seq : Int := if hd.epoch = x.flow.epoch then (hd.seq : Int) else (hd.seq : Int) - 2 ^ 32
        s.putLane x.lane (L.mapVoice x.slot (·.receive { seq := seq, hi := decide (leAt p 0 1 = 1), data := slice p 4 (leAt p 2 2) })))

/-- Records into datagrams, none beyond `cap` bytes of records (R337). -/
def packRecords (cap : Nat) : List Bytes → List Bytes → List (List Bytes)
  | [], cur => [cur]
  | r :: t, cur => if (cur.map List.length).sum + r.length ≤ cap then packRecords cap t (cur ++ [r])
                   else if cur.isEmpty then packRecords cap t [r] else cur :: packRecords cap t [r]
/-- A REGION payload, TX_TIME filled in as it is sent (R325). -/
def regionPayload (keyref h : Nat) (rs : List Bytes) : Bytes :=
  leBytes 4 0 ++ leBytes 4 keyref ++ leBytes 1 rs.length ++ leBytes 1 h ++ [0, 0] ++ rs.flatten
/-- The first `n` block records of some bytes (R326). -/
def splitRecords : Nat → Bytes → List Bytes
  | 0, _ => []
  | n + 1, b => let k := 4 + leAt b 2 2; b.take k :: splitRecords n (b.drop k)
/-- FLAGS of datagram `i` of the `n` that carry what one with FLAGS `flags` did (R337): FIRST on the first, LAST and FEND on the last. -/
def cutFlags (flags n i : Nat) : Nat := (if i = 0 then flags % 2 else 0) + (if i + 1 = n then flags / 2 * 2 else 0)
/-- A built datagram cut for a lowered PMAX (R314); only REGION can be longer than the least PMAX. -/
def TxItem.cut (i : TxItem) (pmax : Nat) : List TxItem :=
  if i.type ≠ 1 ∨ 40 + i.payload.length ≤ pmax then [i]
  else
    let ds := packRecords (pmax - 52) (splitRecords (leAt i.payload 8 1) (i.payload.drop 12)) []
    ds.zipIdx.map (fun p => { i with flags := cutFlags i.flags ds.length p.2, payload := regionPayload (leAt i.payload 4 4) (leAt i.payload 9 1) p.1 })
/-- The datagrams of a viewer that wait, cut for the PMAX of its flow; the budget counts what the cut adds (R367; DEDUCED). -/
def Viewer.recut (x : Viewer) : Viewer :=
  let items := x.items.flatMap (·.cut x.flow.pmax)
  { x with items := items, t := x.t - ((52 * (items.length - x.items.length) : Nat) : Int) }

/-- JOIN (R314, R321, R336, R353, R361, R363): it binds the flow, sets PMAX, starts a key frame and sends TIMING; a viewer that joins within a
frame receives the later slices of that frame. One that fails only the 250 ms rule is discarded, under none of the reasons that NET_RXD counts. -/
def execJoin (h : HalfId) (rx : Rx) (tm : Nat) (s : State) : Res :=
  s.client h rx tm 0x86 (fun s o v x p =>
    if (match x.joinAt with | some t => decide (s.time < t + 250000000) | none => false) then s
    else
      let pm := leAt p 2 2
      let f := { x.flow with bound := some (rx.src, rx.sport), pmax := if pm = 0 then x.flow.pmaxCmd else max 1024 (min x.flow.pmaxCmd pm) }
      let fresh := if x.player then !x.slotJoined else decide (x.state ≠ 1)
      let y := { x with flow := f, state := 1, joinAt := some s.time, lastRx := s.time, keyDue := x.keyDue ++ [0],
                        slotJoined := x.player || x.slotJoined, selects := if x.state = 1 then x.selects else true }.recut
      let s := (s.putHalf o ((s.half o).putViewer v (some y))).reportTiming o v y
      if fresh then s.viewerChange x.lane none else s)

/-- PROBE (R344, R354): answered with TIMING of KIND 1 on a joined flow. -/
def execProbe (h : HalfId) (rx : Rx) (tm : Nat) (s : State) : Res :=
  s.client h rx tm 0x87 (fun s o v x p =>
    if x.state ≠ 1 then s
    else
      let t := s.timingPayload x.lane 1 (leAt p 0 4) (leAt p 4 8) s.time
      s.putHalf o ((s.half o).putViewer v (some (x.build s.time 4 0 (s.lane x.lane).frameNow 0xFFFF t))))

/-- ARP_REQUEST (R358, R383): answered for the sub-port's addresses, and for those of the sub-port it carries. -/
def execArpRequest (h : HalfId) (k : Nat) (ip : BitVec 32) (mac : BitVec 48) (s : State) : Res :=
  if 4 ≤ k then noUnit
  else
    let p := Sparse.get subPortReset (s.half h).net.subs k
    let a := beBytes 4 ip.toNat
    if (!p.failed && p.ip4.contains a) || (p.carry && (Sparse.get subPortReset (s.half (HalfId.peer h)).net.subs k).ip4.contains a) then
      .next (s.emit (.arpReply h k ip.toNat (beNat p.mac) mac.toNat))
    else stay s
/-- NEIGHBOUR_SOLICITATION (R358, R383). -/
def execNeighbourSolicitation (h : HalfId) (k : Nat) (ip : BitVec 128) (mac : BitVec 48) (s : State) : Res :=
  if 4 ≤ k then noUnit
  else
    let p := Sparse.get subPortReset (s.half h).net.subs k
    let a := beBytes 16 ip.toNat
    if (!p.failed && p.ip6.contains a) || (p.carry && (Sparse.get subPortReset (s.half (HalfId.peer h)).net.subs k).ip6.contains a) then
      .next (s.emit (.neighbourAdvert h k ip.toNat (beNat p.mac) mac.toNat))
    else stay s

/-- The times of its handing over filled into a datagram: TX_TIME of REGION (R325), TXTIME of TIMING (R344). -/
def TxItem.stamped (i : TxItem) (tm : Nat) : Bytes :=
  match i.type with
  | 1 => leBytes 4 tm ++ i.payload.drop 4
  | 4 => i.payload.take 0x30 ++ leBytes 8 tm
  | _ => i.payload
/-- Whether a datagram has been held for longer than a frame period (R371). -/
def TxItem.stale (i : TxItem) (L : Lane) (tm : Nat) : Bool := decide (L.period < ((tm - i.builtAt : Nat) : Rat))

/-- Whether no viewer of a half's port remains, and the PORT_DRAIN commands that then complete (R443). -/
def Half.noViewers (H : Half) : Bool := H.net.viewers.all (fun p => p.2.isNone)
def State.portEmpty (s : State) (h : HalfId) : State :=
  let H := s.half h
  if !H.noViewers then s
  else H.net.drainCmds.foldl (fun s id => s.finish id stOk 0 []) (s.putHalf h { H with net := { H.net with drainCmds := [] } })
/-- The flow of viewer `v` ends (R346). -/
def State.endFlow (s : State) (h : HalfId) (v : Nat) : State := (s.putHalf h ((s.half h).putViewer v none)).portEmpty h
/-- A LEAVE that the send bucket held goes out, or is discarded: the second follows 1 ms later, or the flow ends (R346, R371). -/
def State.leftBy (s : State) (h : HalfId) (v : Nat) (r : Sent) : State :=
  match r.view.rep with
  | .leave reason left _ =>
    if left = 0 then (s.sentBy h v r).endFlow h v
    else s.sentBy h v { r with view := { r.view with rep := .leave reason 1 s.time } }
  | .none | .move _ _ => s.sentBy h v r

/-- DATAGRAM_TRANSMIT (R319, R371): the viewer's first datagram, once the bucket holds its frame bytes. -/
def execDatagramTransmit (h : HalfId) (v tm : Nat) (s : State) : Res :=
  if 2048 ≤ v then noUnit
  else
    let s := s.at tm
    match (s.half h).viewer v with
    | none => stay s
    | some x => match x.items with
      | [] => stay s
      | i :: rest =>
        if x.pace ≠ 0 ∧ i.stale (s.lane x.lane) s.time = true then stay s
        else if x.exhausted ∧ x.state ≠ 3 then .next (s.sentBy h v (x.leave h s.time (s.lane x.lane).frameNow 3))
        else match x.pays s.time i.payload.length with
          | none => stay s
          | some y => .next (s.leftBy h v ({ y with items := rest }.push h i.type i.flags i.frame i.slice (i.stamped s.time)))

/-- LATE_TX_DISCARD (R371): a datagram held for longer than a frame period is discarded and counted. -/
def execLateTxDiscard (h : HalfId) (v tm : Nat) (s : State) : Res :=
  if 2048 ≤ v then noUnit
  else
    let s := s.at tm
    match (s.half h).viewer v with
    | none => stay s
    | some x => match x.items with
      | [] => stay s
      | i :: rest =>
        if x.pace ≠ 0 ∧ i.stale (s.lane x.lane) s.time = true then
          let H := s.half h
          let s := s.putHalf h { H with net := { H.net with lateTx := satBits 32 (H.net.lateTx + 1) } }
          .next (s.leftBy h v { view := { x with items := rest }, outs := [], high := none })
        else stay s

/-- TIMING_REPORT (R344): a report to a joined viewer. -/
def execTimingReport (h : HalfId) (v tm : Nat) (s : State) : Res :=
  if 2048 ≤ v then noUnit
  else
    let s := s.at tm
    match (s.half h).viewer v with
    | some x => if x.state = 1 then .next (s.reportTiming h v x) else stay s
    | none => stay s

/-- MOVE_REPEAT (R345): MOVE again, 5 ms after the last. -/
def execMoveRepeat (h : HalfId) (v tm : Nat) (s : State) : Res :=
  if 2048 ≤ v then noUnit
  else
    let s := s.at tm
    match (s.half h).viewer v with
    | some x => match x.rep with
      | .move p last =>
        if last + 5000000 ≤ s.time ∧ x.state = 1 then
          let now := (s.lane x.lane).frameNow
          .next (s.sentBy h v ({ x with rep := .move p s.time }.send h s.time now 5 0 now 0xFFFF p))
        else stay s
      | .none | .leave _ _ _ => stay s
    | none => stay s

/-- LEAVE_REPEAT (R319, R346, R371): the second LEAVE, 1 ms after the first; the flow ends with it. The send bucket may hold it. One that would take
SEQ 0xFFFF_FFFE makes way for the two of reason 3. -/
def execLeaveRepeat (h : HalfId) (v tm : Nat) (s : State) : Res :=
  if 2048 ≤ v then noUnit
  else
    let s := s.at tm
    match (s.half h).viewer v with
    | some x => match x.rep with
      | .leave reason left last =>
        if last + 1000000 ≤ s.time ∧ left = 1 then
          let now := (s.lane x.lane).frameNow
          if x.exhausted ∧ reason ≠ 3 then .next (s.sentBy h v ({ x with state := 0 }.leave h s.time now 3))
          else match x.pays s.time 4 with
          | some y => .next ((s.sentBy h v (y.push h 6 0 now 0xFFFF (leavePayload reason))).endFlow h v)
          | none =>
            let y := { x with rep := .leave reason 0 last }.build s.time 6 0 now 0xFFFF (leavePayload reason)
            .next (s.putHalf h ((s.half h).putViewer v (some y)))
        else stay s
      | .none | .move _ _ => stay s
    | none => stay s

/-- Whether a viewer has been sent MOVE, which keeps it in state 1 (R510). -/
def Repeat.moving : Repeat → Bool
  | .move _ _ => true
  | .none | .leave _ _ _ => false
/-- VIEWER_IDLE (R361, R363, R375, R430, R510). -/
def execViewerIdle (h : HalfId) (v tm : Nat) (s : State) : Res :=
  if 2048 ≤ v then noUnit
  else
    let s := s.at tm
    match (s.half h).viewer v with
    | some x =>
      if x.state = 1 ∧ x.rep.moving = false ∧ x.lastRx + (s.half h).net.idle * 1000000000 ≤ s.time then
        let y := { x with state := 2, items := [], selects := false, slotJoined := false }
        let s := (s.putHalf h ((s.half h).putViewer v (some y))).viewerLeft v x y
        .next (s.event h 0x0003 x.lane (s.lane x.lane).frameNow (v + 2048 * halfNo h))
      else stay s
    | none => stay s

/-- LOCK_TIMEOUT (R375): no accepted entry for 1 s. -/
def execLockTimeout (l tm : Nat) (s : State) : Res :=
  if 256 ≤ l then noUnit
  else
    let s := s.at tm
    let k := (s.netLane l).lock
    if k.lock ≠ 0 ∧ k.lastAt + 1000000000 ≤ s.time then .next (s.unlock l) else stay s

/-- A sub-port of a half replaced. -/
def Half.putSub (H : Half) (k : Nat) (p : SubPort) : Half :=
  { H with net := { H.net with subs := Sparse.set subPortReset H.net.subs k p } }
def Half.sub (H : Half) (k : Nat) : SubPort := Sparse.get subPortReset H.net.subs k
/-- The sub-ports of a port in a mode (R357); 3 acts as 0. -/
def subPorts (mode : Nat) : Nat := match mode with | 1 => 2 | 2 => 4 | _ => 1

/-- Whether sub-port `k` of half `g` carries that of the other half (R382, R385): it works where that one has failed, and both ports
allow it. -/
def State.mayCarry (s : State) (g : HalfId) (k : Nat) : Bool :=
  let G := s.half g
  let P := s.half (HalfId.peer g)
  decide (subPorts G.net.mode = subPorts P.net.mode) && G.net.foEn && P.net.foEn && decide (k < subPorts G.net.mode) &&
    (P.sub k).failed && !(G.sub k).failed
/-- Sub-port `k` of half `g` begins or ceases to carry the other's, as `mayCarry` says (R383, R385, R443). -/
def State.settleSub (s : State) (g : HalfId) (k : Nat) : State :=
  let q := (s.half g).sub k
  let on := s.mayCarry g k
  if on = q.carry then s
  else
    let s := s.putHalf g ((s.half g).putSub k { q with carry := on, announce := if on then 3 else 0 })
    if on then s.event (HalfId.peer g) 0x000D 0xFFFF 0 (k + 256) else s
/-- The same of every sub-port, after a change of a port's settings. -/
def State.settlePorts (s : State) : State :=
  (List.range 4).foldl (fun s k => (s.settleSub .east k).settleSub .west k) s

/-- Sub-port `k` of a half fails (R382, R383): its work goes to the other port where both allow it. Whether its link is lost with it is
free; a failed sub-port that errs again counts its time for FAILBACK anew. -/
def State.failSub (s : State) (h : HalfId) (k : Nat) : State :=
  let H := s.half h
  let p := { H.sub k with up := (H.sub k).up && Config.freeBool s.draw, failed := true, back := 0, upSince := s.time }
  ((({ s with freeCtr := s.freeCtr + 1 } : State).putHalf h (H.putSub k p)).settleSub h k).settleSub (HalfId.peer h) k
/-- SUBPORT_FAIL (R382, R383). -/
def execSubportFail (h : HalfId) (k tm : Nat) (s : State) : Res :=
  if 4 ≤ k then noUnit else .next ((s.at tm).failSub h k)

/-- The addresses that sub-port `k` of a half has still to announce: those that it carries, and its own that it has taken back. -/
def State.announced (s : State) (h : HalfId) (k : Nat) : List Bytes :=
  let p := (s.half h).sub k
  let o := (s.half (HalfId.peer h)).sub k
  (if 0 < p.announce then o.ip4 ++ o.ip6 else []) ++ (if 0 < p.back then p.ip4 ++ p.ip6 else [])
/-- GRATUITOUS_ARP (R383, R385): one announcement of each address that the sub-port has taken over or taken back. -/
def execGratuitousArp (h : HalfId) (k : Nat) (s : State) : Res :=
  if 4 ≤ k then noUnit
  else
    let p := (s.half h).sub k
    if p.announce = 0 ∧ p.back = 0 then stay s
    else
      .next ((s.announced h k).foldl (fun s a => s.emit (.announce h k a))
        (s.putHalf h ((s.half h).putSub k { p with announce := p.announce - 1, back := p.back - 1 })))

/-- FAILBACK (R385): a failed sub-port that has stayed up without error for FB seconds takes its own work back, and the other's if that has
failed. -/
def execFailback (h : HalfId) (k tm : Nat) (s : State) : Res :=
  if 4 ≤ k then noUnit
  else
    let s := s.at tm
    let p := (s.half h).sub k
    if p.failed ∧ p.up ∧ p.upSince + (s.half h).net.fb * 1000000000 ≤ s.time then
      let s := (s.putHalf h ((s.half h).putSub k { p with failed := false, back := 3 })).settleSub (HalfId.peer h) k
      .next ((s.event h 0x000D 0xFFFF 0 k).settleSub h k)
    else stay s

end Sys2Proof.Machine
end

