-- ==== Sys2Proof/Machine/Faults.lean ====
section
/-! DEFINITION. What follows the detection of a fault: its record and count, rollback, spares, retirement, failover, restart of a
service processor, half recovery (R388, R389, R402, R444 to R457, R567). -/
namespace Sys2Proof.Machine
open Sys2Proof

/-- 24 h in ns (R454). -/
def dayNs : Nat := 86400000000000
/-- The first physical lane unit of a half (R16). -/
def luBase (h : HalfId) : Nat := if h = .east then 0 else 132
/-- The unit of R454 that a fault lies in, by class and block number. -/
def faultUnit (f : FaultInfo) : Option (UnitKind × Nat) :=
  match f.cls with
  | 0 => some (.core, f.unitNo)
  | 2 => some (.nearSram, f.unitNo)
  | 3 => some (.laneUnit, f.unitNo - luBase f.half)
  | 6 => some (.pseudoChannel, f.unitNo)
  | 7 => some (.fordWire, f.unitNo)
  | 8 => some (.serdes, f.unitNo)
  | 11 =>
    if f.unitNo < 264 then some (.laneUnit, f.unitNo - luBase f.half)
    else if 269 ≤ f.unitNo ∧ f.unitNo ≤ 276 then some (.serdes, f.unitNo - 269)
    else if 288 ≤ f.unitNo ∧ f.unitNo ≤ 295 then some (.serdes, f.unitNo - 288)
    else none
  | _ => none
/-- The detected faults of a unit in the last 24 h, the present moment included. -/
def Sparing.recent (p : Sparing) (u : UnitKind × Nat) (time : Nat) : Nat :=
  (p.faults.filter (fun x => decide (x.1 = u.1) && decide (x.2.1 = u.2) && decide (time < x.2.2 + dayNs))).length

/-- A count of class `k` in SVC_FAULT_CNT and the lifetime record (R457, R484). -/
def State.countFault (s : State) (h : HalfId) (k : Nat) (masked : Bool) : State :=
  let H := s.half h
  let p := H.sp
  let add (m : Sparse Nat) : Sparse Nat := Sparse.set zeroNat m k (satBits 32 (Sparse.get zeroNat m k + 1))
  let p : Sparing := if masked then { p with masked := add p.masked } else { p with detected := add p.detected }
  s.putHalf h ({ H with sp := p }.lifeAdd ((if masked then 0x140 else 0x1C0) + 8 * k) 8 1)
/-- A record of half `h` (R455), with its FAULT event (R457): its number is the LAST that follows. -/
def State.record (s : State) (h : HalfId) (r : FaultRecord) : State :=
  let H := s.half h
  let n := H.sp.last + 1
  let rs := H.sp.records ++ [{ r with number := n }]
  let s := s.putHalf h { H with sp := { H.sp with last := n, records := rs.drop (rs.length - 4096) } }
  s.event h 0x0009 r.lane r.frame n
/-- Whether an action masks (R456, SVC_FAULT_CNT). -/
def maskedAction (a : Nat) : Bool := decide (a ≤ 2)
/-- The detected faults of the last 24 h that half `h` has recorded of a unit of half `k` by class and number (R455). -/
def State.repeatsOf (s : State) (h : HalfId) (k cls unitNo : Nat) : Nat :=
  ((s.half h).sp.records.filter (fun r => decide (r.half = k) && decide (r.cls = cls) && decide (r.unitNo = unitNo) && !maskedAction r.action &&
    decide (s.time < r.time + dayNs))).length
/-- A record of a fault with its action, `more` of REPEATS beyond what is already noted (R455). -/
def State.recordFault (s : State) (f : FaultInfo) (action levee flags more : Nat) : State :=
  let reps := match faultUnit f with
    | some u => (s.half f.half).sp.recent u s.time
    | none => s.repeatsOf f.half (halfNo f.half) f.cls f.unitNo + more
  let fr := match f.lane with | some l => (s.lane l).frameNow | none => 0
  s.record f.half { number := 0, half := halfNo f.half, cls := f.cls, action := action, levee := levee, unitNo := f.unitNo,
                    lane := f.lane.getD 0xFFFF, frame := fr, time := s.time, syndrome := f.syndrome, repeats := reps % 65536, rflags := flags }
/-- A fault counted and recorded with its action (R455 to R457). -/
def State.report (s : State) (f : FaultInfo) (action levee flags : Nat) : State :=
  let s := s.countFault f.half f.cls (maskedAction action)
  let H := s.half f.half
  let det := !maskedAction action
  let p := match faultUnit f with
    | some u => if det then { H.sp with faults := H.sp.faults ++ [(u.1, u.2, s.time)] } else H.sp
    | none => H.sp
  (s.putHalf f.half { H with sp := p }).recordFault f action levee flags det.toNat
/-- A record that half `h` writes and counts of the other half, of its service processor or of its own role (R453, R457, R467, R468). -/
def State.recordOther (s : State) (h of : HalfId) (cls action levee : Nat) : State :=
  let s := s.countFault h cls (maskedAction action)
  s.record h { number := 0, half := halfNo of, cls := cls, action := action, levee := levee, unitNo := 0, lane := 0xFFFF, frame := 0, time := s.time,
               syndrome := 0, repeats := (s.repeatsOf h (halfNo of) cls 0 + (!maskedAction action).toNat) % 65536, rflags := 0 }

/-- A halt recorded and counted (R457, R461). -/
def State.noteHalt (s : State) (h : HalfId) (next : Nat) : State :=
  (s.countFault h 14 false).recordFault { half := h, cls := 14, unitNo := next, lane := none, kind := .detected, syndrome := 0 } 13 0 0 1
/-- Rotation halts when no spare is usable, bound for a hand-off or, freed from service, under test (R461), recorded with ACTION 13; it goes on once
one is. -/
def State.checkHalt (s : State) (h : HalfId) : State :=
  let H := s.half h
  let p := H.sp
  let lu := p.spares.isEmpty && p.handoff.isNone &&
    !p.tests.any (fun t => decide (t.kind = .laneUnit) && !t.retire && (H.indexOf h (luBase h + t.idx)).isNone)
  let co := p.spareCore.isNone && !p.tests.any (fun t => decide (t.kind = .core) && !t.retire && (H.logicalOf t.idx).isNone)
  let a := s.putHalf h { s.half h with sp := { p with luHalt := lu, coreHalt := co } }
  let b := if lu && !p.luHalt then a.noteHalt h p.luNext else a
  if co && !p.coreHalt then b.noteHalt h p.coreNext else b

/-- Where the lifetime record keeps the retired units of a kind (R484). -/
def retiredAt : UnitKind → Nat
  | .laneUnit => 0xF0
  | .core => 0x108
  | .serdes => 0x10C
  | .nearSram => 0x110
  | .pseudoChannel => 0x120
  | .fordWire => 0x128
/-- A unit retired (R454): it leaves the spares, and the lifetime record keeps it. -/
def State.retire (s : State) (h : HalfId) (u : UnitKind) (i : Nat) : State :=
  let H := s.half h
  if H.isRetired u i then s
  else
    let p := H.sp
    let spares := if u = .laneUnit then p.spares.filter (fun x => decide (x ≠ luBase h + i)) else p.spares
    let core := if u = .core ∧ p.spareCore = some i then none else p.spareCore
    let p : Sparing := { p with retired := p.retired ++ [(u, i)], spares := spares, spareCore := core }
    (s.putHalf h (({ H with sp := p }.lifeBit (retiredAt u) i).lifeDue)).checkHalt h
/-- A unit that has been freed goes under test (R458, R460), or is retired at its third detected fault (R454). -/
def State.freed (s : State) (h : HalfId) (u : UnitKind) (i : Nat) : State :=
  let H := s.half h
  if 3 ≤ H.sp.recent (u, i) s.time then s.retire h u i
  else if H.sp.tests.any (fun t => decide (t.kind = u) && decide (t.idx = i)) then s.checkHalt h
  else (s.putHalf h { H with sp := { H.sp with tests := H.sp.tests ++ [{ kind := u, idx := i, cmd := none, retire := false }] } }).checkHalt h

/-- The lane at the detection of its fault (R402): clock and issue stop, queue, gate and store buffers are discarded. -/
def Lane.beginRoll (L : Lane) (pause : Bool) : Lane :=
  let why := { L.pausedFor with drain := false, fault := L.pausedFor.fault || pause }
  let clear (m : Sparse Thread) (t : Nat) : Sparse Thread :=
    Sparse.set threadInit m t { L.thread t with sb := [], loads := [], units := [], prefetch := [], lineBuf := none, entering := none }
  let fresh : Rollback := { d := L.tm.frameAt L.bvt, h := L.bvt, target := (L.goodCkpt.map (·.vt)).getD 0, restored := false, pauseAfter := why.any }
  let r := match L.roll with
    | some r => if L.bvt ≤ r.h then { r with target := fresh.target, restored := false, pauseAfter := why.any } else fresh
    | none => fresh
  { L with phase := .rolling, hold := .none, queue := [], replies := [], gate := [], log := L.log.filter (fun e => !e.gated), th := [0, 1, 2, 3].foldl clear L.th,
           roll := some r, pausedFor := why, stopping := false }
/-- The snapshot work of a lane that rolls back (R513): a drain starts again from pre-copy, a command ends with FAULT. -/
def State.dropImage (s : State) (l rec : Nat) : State :=
  let L := s.lane l
  match L.snap with
  | none => s
  | some z =>
    let s := match z.cmd with | some id => s.finish id stFault rec [] | none => s
    s.putLane l { s.lane l with snap := if z.drain then some { z with cmd := none, rounds := 0, todo := 0, dirty := [], began := s.time, frozen := false, image := none } else none }
/-- Whether a drain has left lane `l` frozen with its entry written (R513). -/
def State.drained (s : State) (l : Nat) : Bool :=
  let H := s.half (halfOf l)
  decide (H.drain.state ≠ 0) && (s.lane l).pausedFor.drain && !H.drain.lanes.contains l
/-- Whether a fault of a lane acts on it. -/
def State.alive (s : State) (l : Nat) : Bool :=
  decide ((s.lane l).phase ≠ .stopped) && decide ((s.lane l).phase ≠ .starting) && !s.drained l
/-- The rollback of lane `l` begins (R402); without a good checkpoint the lane stops (R400). -/
def State.rollLane (s : State) (l : Nat) (pause : Bool) : State :=
  if !s.alive l then s
  else
    let s := (s.ripen l).dropImage l (s.half (halfOf l)).sp.last
    if (s.lane l).goodCkpt.isSome then s.putLane l ((s.lane l).beginRoll pause) else s.stopLane l none
/-- ACTION of a lane's fault: `a`, or 10 where the lane stops. -/
def State.laneAction (s : State) (l a : Nat) : Nat := if s.alive l && (s.lane l).goodCkpt.isNone then 10 else a

/-- A fault that the lane levee contains, without a spare (ACTION 3). -/
def State.laneFault (s : State) (f : FaultInfo) (flags : Nat) : State :=
  match f.lane with
  | some l => (s.report f (s.laneAction l 3) 1 flags).rollLane l false
  | none => s.report f 3 1 flags
/-- The lane index `n` of a half served by another unit. -/
def State.mapUnit (s : State) (h : HalfId) (n u : Nat) : State :=
  let H := s.half h
  s.putHalf h { H with sp := { H.sp with luMap := Sparse.set (luDefault h) H.sp.luMap n u, spares := H.sp.spares.filter (fun x => decide (x ≠ u)) } }
/-- A hand-off bound for lane `l` is given up (R459): its spare is usable again. -/
def State.dropHandoff (s : State) (l : Nat) : State :=
  let H := s.half (halfOf l)
  match H.sp.handoff with
  | some (k, u) => if k = l then s.putHalf (halfOf l) { H with sp := { H.sp with handoff := none, spares := H.sp.spares ++ [u] } } else s
  | none => s
/-- A lane-unit fault (R403, R451, R567): to a spare with ACTION 4; without one on the same unit with ACTION 3, or, at a second
within 24 h, retired with the lane paused. A spare unit at fault goes under test. -/
def State.unitFault (s : State) (f : FaultInfo) (flags : Nat) : State :=
  let h := f.half
  let i := f.unitNo - luBase h
  match (s.half h).indexOf h f.unitNo with
  | none =>
    let s := s.report f 4 1 flags
    let H := s.half h
    if H.sp.spares.contains f.unitNo then
      (s.putHalf h { H with sp := { H.sp with spares := H.sp.spares.filter (fun x => decide (x ≠ f.unitNo)) } }).freed h .laneUnit i
    else s
  | some n =>
    let l := laneNo h n
    let f := { f with lane := some l }
    let s := s.dropHandoff l
    match (s.half h).sp.spares with
    | u :: _ => (((s.report f (s.laneAction l 4) 1 flags).mapUnit h n u).freed h .laneUnit i).rollLane l false
    | [] =>
      let p := (s.half h).sp
      let again := p.again.any (fun x => decide (x.1 = i) && decide (s.time < x.2 + dayNs)) || decide (2 ≤ p.recent (.laneUnit, i) s.time)
      let act := s.laneAction l (if again then 11 else 3)
      let s := s.report f act 1 flags
      let s := if again then s.retire h .laneUnit i
        else if act = 3 ∧ s.alive l = true then
          s.putHalf h { s.half h with sp := { (s.half h).sp with again := (s.half h).sp.again ++ [(i, s.time)] } }
        else s
      s.rollLane l again

/-- A system thread as boot starts it (R72): at the start of its task. -/
def Thread.started : Thread := { Thread.init with admitted := true, active := true }
/-- The system threads of logical core `c` started again. -/
def Half.restartSystem (H : Half) (c : Nat) : Half :=
  { H with sys := [14, 15].foldl (fun m x => Sparse.set sysReset m (16 * c + x) Thread.started) H.sys }
/-- A lane of a core without a spare (R450): admitted to a core that has room, or paused at its restored checkpoint, with a record of the core's
fault `f` that is not counted again. -/
def State.readmit (s : State) (f : FaultInfo) (flags l : Nat) : State :=
  let h := halfOf l
  let H := (s.half h).release l
  let ks := (List.range (leAt (s.lane l).block 5 1)).map (fun t => ((s.lane l).thread t).slots)
  match H.seats ks with
  | some z => ((s.putHalf h (H.seat l z)).putLane l { s.lane l with core := z.core }).rollLane l false
  | none => ((s.putHalf h H).recordFault { f with lane := some l } 11 1 flags 0).rollLane l true
/-- A core leaves service (R450, R567): its lanes roll back and move to the spare core, or are re-admitted or paused. The migration ends
when the last of them is restored; SVC_CORE_MAP keeps the old core, with VALID 0, until then (R17). -/
def State.leaveCore (s : State) (f : FaultInfo) (flags : Nat) : State :=
  let h := f.half
  let p := f.unitNo
  let H := s.half h
  match H.logicalOf p with
  | none => s
  | some c =>
    let ls := (H.held.filter (fun q => decide (q.2.core = c))).map (fun q => laneNo h q.1)
    match H.sp.spareCore with
    | some q =>
      let back := ls.filter (fun l => s.alive l && (s.lane l).goodCkpt.isSome)
      let sp := { H.sp with coreMap := Sparse.set coreDefault H.sp.coreMap c q, spareCore := none }
      let sp := if back.isEmpty then sp else { sp with coreMove := sp.coreMove ++ [(c, p, back)] }
      ls.foldl (fun s l => s.rollLane l false) (s.putHalf h ({ H with sp := sp }.restartSystem c))
    | none => ls.foldl (fun s l => s.readmit f flags l) s
/-- A core fault (R450). -/
def State.coreFault (s : State) (f : FaultInfo) (flags : Nat) : State :=
  let spare := (s.half f.half).sp.spareCore
  let s := s.report f 5 2 flags
  if (s.half f.half).logicalOf f.unitNo = none then
    (if spare = some f.unitNo then
      let H := s.half f.half
      (s.putHalf f.half { H with sp := { H.sp with spareCore := none } }).freed f.half .core f.unitNo
     else s)
  else
    if spare.isSome then (s.leaveCore f flags).freed f.half .core f.unitNo else (s.freed f.half .core f.unitNo).leaveCore f flags

/-- Whether a rollback restores the word at `addr` (R388). -/
def Lane.restores (L : Lane) (addr : Nat) : Bool :=
  match L.goodCkpt with
  | none => false
  | some c => match windowOf addr with
    | .near => true
    | .work | .video => L.pages.any (fun p => decide (c.vt ≤ p.1) && decide (p.2 = addr / 4096))
    | .title | .regs | .outside => false
/-- An uncorrected error in lane memory (R388, R430). -/
def State.memoryFault (s : State) (f : FaultInfo) (addr flags : Nat) : State :=
  match f.lane with
  | none => s.report f 3 1 flags
  | some l =>
    let L := s.lane l
    if !s.alive l then s.report f 3 1 flags
    else if L.restores addr then
      let third := decide (f.cls = 2) && decide (2 ≤ (s.half f.half).sp.recent (.nearSram, f.unitNo) s.time)
      let s := s.report f (if third then 11 else 3) 1 flags
      let s := if third then s.retire f.half .nearSram f.unitNo else s
      s.rollLane l third
    else
      let fr := L.frameNow
      let s := s.report f 10 1 flags
      ((s.dropImage l (s.half f.half).sp.last).stopLane l none).event f.half 0x0006 l fr (addr % 2 ^ 40)
/-- An uncorrected error in a page of a title image (R388, R430): reloaded from the other half's copy, or asked of the host; the
lanes that have read the word roll back. Which lanes besides the one whose read found it have read it is a free choice among the half's lanes of
that title (DESIGN CHOICE: the model keeps no history of reads). -/
def State.titleFault (s : State) (f : FaultInfo) (id : Nat) (page : Nat) (flags : Nat) : State :=
  let own := match f.lane with | some l => [l] | none => []
  let others := (((s.half f.half).held.filter (fun p => decide (p.2.title = id))).map (fun p => laneNo f.half p.1)).filter (fun l => !own.contains l && s.alive l)
  let ls := own ++ others.filter (fun l => Config.freeNat (s.draw + 1024 * l) % 2 == 1)
  let s := { s with freeCtr := s.freeCtr + 256 }
  let s := match ls with
    | l :: _ => s.report { f with lane := some l } (s.laneAction l 3) 1 flags
    | [] => s.report f 2 1 flags
  let there := match Sparse.get noTitle (s.half (HalfId.peer f.half)).titles id with | some t => t.ready | none => false
  let s := if there then s
    else
      let H := s.half f.half
      let ts := match Sparse.get noTitle H.titles id with
        | some t => Sparse.set noTitle H.titles id (some { t with bad := t.bad ++ [page] })
        | none => H.titles
      (s.putHalf f.half { H with titles := ts }).event f.half 0x0007 0xFFFF 0 (id + page * 2 ^ 32)
  ls.foldl (fun s l => s.rollLane l false) s

/-- A port fault (R382, R453): the sub-port of a SerDes lane, or every sub-port. -/
def State.portFault (s : State) (f : FaultInfo) (flags : Nat) : State :=
  let s := s.report f 6 3 flags
  let n := subPorts (s.half f.half).net.mode
  match faultUnit f with
  | some (.serdes, i) => if i < 8 then s.failSub f.half (i * n / 8) else (List.range n).foldl (fun s k => s.failSub f.half k) s
  | _ => (List.range n).foldl (fun s k => s.failSub f.half k) s
/-- A lockstep mismatch (R452): the pair stops and restarts; it records its own fault afterwards. -/
def State.spStop (s : State) (f : FaultInfo) (flags : Nat) : State :=
  let H := s.half f.half
  s.putHalf f.half { H with sp := { H.sp with spRestart := true, spFault := some f, spTime := s.time, spFlags := flags }, auth := { H.auth with role := if H.auth.role = .isolated then .isolated else .starting, claiming := none } }
/-- Half recovery begins (R453): the lanes stop and roll back. -/
def State.recover (s : State) (f : FaultInfo) (flags : Nat) : State :=
  let s := s.report f 8 2 flags
  let H := s.half f.half
  let s := s.putHalf f.half { H with sp := { H.sp with recovering := true, spTime := s.time } }
  (H.held.map (fun p => laneNo f.half p.1)).foldl (fun s l => s.rollLane l false) s

/-- The domains of R25 by what their failure does (R453). -/
def domainPort (d : Nat) : Bool := (decide (268 ≤ d) && decide (d ≤ 276)) || (decide (287 ≤ d) && decide (d ≤ 295))
def domainRecovers (d : Nat) : Bool :=
  (decide (264 ≤ d) && decide (d ≤ 267)) || (decide (283 ≤ d) && decide (d ≤ 286)) || decide (d = 280) || decide (d = 299)
/-- A detected clock fault (R453). A lane-unit domain has its unit's number and is a class 3 fault, the PCIe domain a class 9 fault. The relock of a
stream-audio or Ford domain is masked, and only counted at its first attempt (R457). -/
def State.clockFault (s : State) (f : FaultInfo) (flags : Nat) : State :=
  let d := f.unitNo
  if d < 264 then s.unitFault { f with cls := 3 } flags
  else if domainPort d then s.portFault f flags
  else if d = 277 ∨ d = 296 then s.report { f with cls := 9 } 15 2 flags
  else if d = 279 ∨ d = 298 then s.spStop f flags
  else if domainRecovers d then s.recover f flags
  else s.countFault f.half f.cls true

/-- A third detected fault within 24 h retires a unit (R454). -/
def State.retireThird (s : State) (h : HalfId) (u : UnitKind) (i : Nat) : State :=
  if 3 ≤ (s.half h).sp.recent (u, i) s.time then s.retire h u i else s

/-- The action of a class's masking: 0 corrected, 1 retried, 2 moved (R449). -/
def maskAction (k : Nat) : Nat := if k = 12 then 2 else if k = 1 ∨ k = 5 ∨ k = 7 ∨ k = 9 ∨ k = 11 then 1 else 0
/-- The levee of a fault that no block's own action contains: the half's, for the fabric's CRC mismatches (R18). -/
def fabricLevee (k : Nat) : Nat := if k = 5 then 2 else 0
/-- A fault in an entry that no lane owns is one of the block that reads it (class 4, R449; that its record takes the class and number of that block is
DEDUCED). -/
def faultAsRead (f : FaultInfo) : FaultInfo :=
  match f.cls, f.lane, f.kind with
  | 4, none, .readBy k u => { f with cls := k, unitNo := u, kind := .detected }
  | _, _, _ => f
/-- A fault as detected (R449 to R453): masked and counted, or handled by its class and recorded. An error in one context that is the third
fault of its core within 24 h takes the core out of service (R454, R567). -/
def State.act (s : State) (g : FaultInfo) (flags : Nat) : State :=
  let f := faultAsRead g
  match f.kind with
  | .masked => if f.cls = 12 then s.report f 2 0 flags else s.countFault f.half f.cls true
  | .corrected => s.countFault f.half f.cls true
  | .retried => s.report f (maskAction f.cls) (fabricLevee f.cls) flags
  | .moved => s.report f 2 (fabricLevee f.cls) flags
  | .context => if f.cls = 0 ∧ 2 ≤ (s.half f.half).sp.recent (.core, f.unitNo) s.time then s.coreFault f flags else s.laneFault f flags
  | .memory a => s.memoryFault f a flags
  | .title id p => s.titleFault f id.toNat p flags
  | .domain => s.recover f flags
  | .readBy .. | .detected | .uncorrected => match f.cls with
    | 0 => s.coreFault f flags
    | 2 => s.memoryFault f 0 flags
    | 3 => s.unitFault f flags
    | 4 => s.laneFault f flags
    | 6 => if f.lane.isSome then s.laneFault f flags else s.recover f flags
    | 8 => s.portFault f flags
    | 9 => s.report f 15 2 flags
    | 10 => s.spStop f flags
    | 11 => s.clockFault f flags
    | 13 => s.recover f flags
    | 15 => s.laneFault f flags
    | k => s.report f (max 1 (maskAction k)) (fabricLevee k) flags

/-- A pseudo-channel that has failed (R388, R389): its copy to the stack's spare begins, with ACTION 2; with that spare in use it is a fault of the half levee. -/
def State.failPc (s : State) (f : FaultInfo) (flags : Nat) : State :=
  let H := s.half f.half
  let q := f.unitNo
  let g := { f with kind := .detected, lane := none }
  if (H.sp.pcFailing ++ H.sp.spared).contains q then s
  else if (H.sp.spared ++ H.sp.pcFailing).any (fun p => decide (p / 32 = q / 32)) then
    (if H.sp.recovering then s.report g 8 2 flags else s.recover g flags)
  else (s.putHalf f.half { H with sp := { H.sp with pcFailing := H.sp.pcFailing ++ [q] } }).report { f with kind := .moved, lane := none } 2 0 flags
/-- A corrected error in HBM row `row` (R388, R390): counted; at a second within 24 h the row is repaired, or, where no spare row is left, reported for
service: a record with ACTION 0 (DESIGN CHOICE: R390 does not say how). -/
def State.hbmCorrected (s : State) (f : FaultInfo) (row flags : Nat) : State :=
  let h := f.half
  let H := s.half h
  let errs := H.sp.rowErrs.filter (fun e => decide (s.time < e.2 + dayNs))
  let again := errs.any (fun e => decide (e.1 = row))
  let p := { H.sp with memCorr := H.sp.memCorr + 1 }
  if again && Config.spareRow row (H.sp.pendingRows.length) then
    let p := { p with repairs := p.repairs + 1, pendingRows := p.pendingRows ++ [row], rowErrs := errs.filter (fun e => decide (e.1 ≠ row)) }
    (s.putHalf h ({ H with sp := p }.lifeAdd 0x38 4 1)).report f 2 0 flags
  else
    let s := s.putHalf h { H with sp := { p with rowErrs := errs ++ [(row, s.time)] } }
    if again then s.report f 0 0 flags else s.countFault h 6 true
/-- An uncorrected HBM error, already handled by what it hit (R388, R454): counted; the eighth within 1 s fails the pseudo-channel, and a third
fault within 24 h retires it. -/
def State.hbmUncorrected (s : State) (f : FaultInfo) (flags : Nat) : State :=
  let h := f.half
  let H := s.half h
  let q := f.unitNo
  let errs := H.sp.pcErrs.filter (fun e => decide (s.time < e.2 + 1000000000)) ++ [(q, s.time)]
  let s := (s.putHalf h { H with sp := { H.sp with memUncorr := H.sp.memUncorr + 1, pcErrs := errs } }).retireThird h .pseudoChannel q
  if 8 ≤ (errs.filter (fun e => decide (e.1 = q))).length ∨ (s.half h).isRetired .pseudoChannel q = true then
    (s.putHalf h { s.half h with sp := { (s.half h).sp with pcErrs := errs.filter (fun e => decide (e.1 ≠ q)) } }).failPc f flags
  else s
/-- Errors that the ECC of an SRAM, the system cache or the device region has corrected, and those it has not (R388). -/
def faultCorrects (f : FaultInfo) : Bool :=
  match f.kind with
  | .corrected => true
  | .masked => decide (f.cls = 2) || decide (f.cls = 3) || decide (f.cls = 13)
  | _ => false
def faultFails (f : FaultInfo) : Bool :=
  match f.kind with
  | .uncorrected | .memory _ | .title .. => true
  | .detected => decide (f.cls = 2) || decide (f.cls = 13)
  | _ => false
/-- SVC_MEM_STAT counts an error outside HBM. -/
def State.countEcc (s : State) (f : FaultInfo) : State :=
  let H := s.half f.half
  let p := if faultCorrects f then { H.sp with memCorr := H.sp.memCorr + 1 } else if faultFails f then { H.sp with memUncorr := H.sp.memUncorr + 1 } else H.sp
  s.putHalf f.half { H with sp := p }
/-- What waits for the restart of the service processor (R452). -/
def Half.putOff (H : Half) (f : LateFault) (time : Nat) : Half := { H with sp := { H.sp with later := H.sp.later ++ [(time, f)] } }
/-- A fault (R388 to R390, R449 to R454), with the retirement of a unit that its own class has not retired. The row of a corrected HBM error that comes without an address is a free value. -/
def State.fault (s : State) (f : FaultInfo) (flags : Nat) : State :=
  if f.cls = 6 then
    match f.kind with
    | .masked | .corrected => { s with freeCtr := s.freeCtr + 1 }.hbmCorrected f (Config.freeNat s.draw) flags
    | .retried | .moved => s.act f flags
    | .context | .memory _ | .title _ _ | .domain | .detected | .uncorrected | .readBy .. => (s.act f flags).hbmUncorrected f flags
  else
    let s := (s.countEcc f).act f flags
    match faultUnit (faultAsRead f) with
    | some (u, i) => s.retireThird f.half u i
    | none => s
/-- The pseudo-channel that holds an address of a half (R386; that they take the addresses in turn is DEDUCED). -/
def pseudoChannelOf (addr : Nat) : Nat := addr / 256 % 64
/-- What an uncorrected error at an HBM address hits (R386, R387). The manual does not say which addresses an allocation has: what holds the
address is a free choice among the device region, free memory, the lanes and the titles of the half. -/
def State.hbmHit (s : State) (h : HalfId) (f : FaultInfo) : State × FaultInfo :=
  let H := s.half h
  let x := Config.freeNat s.draw
  let y := Config.freeNat (s.draw + 1024)
  let s := { s with freeCtr := s.freeCtr + 2 }
  let lanes := H.held.map (fun p => laneNo h p.1)
  let titles := (H.titles.filter (fun p => p.2.isSome)).map (fun p => (p.1, match p.2 with | some t => t.crcs.length | none => 0))
  let k := x % (2 + lanes.length + titles.length)
  if k = 0 then (s, { f with cls := 13, unitNo := 0, kind := .detected })
  else if k = 1 then (s, { f with kind := .masked })
  else match lanes[k - 2]? with
    | some l => (s, { f with lane := some l, kind := .memory (if y % 2 = 0 then 0x10000000 + y / 2 % 0x4000000 else 0x20000000 + y / 2 % 0x4000000) })
    | none => match titles[k - 2 - lanes.length]? with
      | some t => (s, { f with kind := .title (BitVec.ofNat 32 t.1) (y % max 1 t.2) })
      | none => (s, { f with kind := .masked })
/-- An uncorrected error at an HBM address; in free memory it is only counted. -/
def State.hbmDouble (s : State) (h : HalfId) (q flags : Nat) : State :=
  let f : FaultInfo := { half := h, cls := 6, unitNo := q, lane := none, kind := .detected, syndrome := Config.freeNat s.draw % 2 ^ 32 }
  let r := { s with freeCtr := s.freeCtr + 1 }.hbmHit h f
  if r.2.cls = 13 then (r.1.act r.2 flags).hbmUncorrected f flags
  else if r.2.kind = .masked then (r.1.report f 1 0 flags).hbmUncorrected f flags
  else r.1.fault r.2 flags
/-- What a read of an HBM address finds (R388). -/
def State.hbmRead (s : State) (h : HalfId) (q row : Nat) (e : HbmError) (flags : Nat) : State :=
  let f (k : FaultKind) : FaultInfo := { half := h, cls := 6, unitNo := q, lane := none, kind := k, syndrome := Config.freeNat s.draw % 2 ^ 32 }
  let s := { s with freeCtr := s.freeCtr + 1 }
  match e with
  | .none => s
  | .corrected => s.hbmCorrected (f .masked) row flags
  | .uncorrected => s.hbmDouble h q flags
  | .parity n =>
    if n = 0 then s
    else if n = 1 then s.countFault h 6 true
    else if n = 2 then s.report (f .retried) 1 0 flags
    else s.failPc (f .detected) flags
/-- A fault as it is detected (R452): it waits while the service processor of its half restarts. -/
def State.detect (s : State) (f : FaultInfo) : State :=
  if (s.half f.half).sp.spRestart then s.putHalf f.half ((s.half f.half).putOff (.fault f) s.time) else s.fault f 0

end Sys2Proof.Machine
end

