-- ==== Sys2Proof/Machine/Encoder.lean ====
section
/-! DEFINITION. The region encoder: point B, change detection, slice close, choice of blocks and coding, REGION and KEY (R23, R55,
R250 to R252, R324 to R343, R364). -/
namespace Sys2Proof.Machine
open Sys2Proof

/-- Whether point A has passed pixel `x` of line `l` of frame `f`. -/
def Ras.composed (r : Ras) (f l x : Nat) : Bool :=
  decide (f < r.cf) || (decide (f = r.cf) && (decide (l < r.cl) || (decide (l = r.cl) && decide (x < r.cx))))
/-- The pixel after the last at point B. -/
def Encoder.next (e : Encoder) (tm : Timing) : Encoder :=
  if e.bx + 1 < tm.hact then { e with bx := e.bx + 1 }
  else if e.bl + 1 < tm.vact then { e with bx := 0, bl := e.bl + 1 } else { e with bx := 0, bl := 0, bf := e.bf + 1 }
/-- The register of signature window `w` in force. -/
def Lane.windowReg (L : Lane) (w : Nat) : Word := if w < 4 then L.unit.ras.reg (sigReg w) else L.op.reg (sigReg w)
/-- Whether every block of the frame at point B counts as changed (R334, R405). -/
def Lane.allNew (L : Lane) : Bool := L.enc.allChanged || decide (L.enc.bf = L.tm.n0)
/-- Point B reads a pixel from the line store (R229, R250, R334): the lane, and the windows whose CRCs differ there (R251). -/
def Lane.pointB (L : Lane) : Lane × List Nat :=
  let e := L.enc
  let k := 2048 * e.bl + e.bx
  let pw := Sparse.get zeroNat e.store k
  let d10 := L.op.display10
  let sl := e.bl / 16
  let c0 := if e.bx = 0 ∧ e.bl % 16 = 0 then crc32Init else Sparse.get crcReset e.crcB sl
  let win := if e.bx = 0 ∧ e.bl = 0 then [] else e.winB
  let win := (List.range 8).foldl (fun m w =>
    Sparse.set crcReset m w (sigStep (L.windowReg w) d10 e.bx e.bl pw (Sparse.get crcReset m w))) win
  let chg := if L.allNew || decide (Sparse.get zeroNat e.prev k ≠ pw) then Sparse.set zeroNat e.chg (128 * sl + e.bx / 16) e.bf else e.chg
  let bad := ((List.range 8).filter (fun w => sigDone L.tm (L.windowReg w) e.bx e.bl &&
    decide (Sparse.get crcReset win w ≠ Sparse.get crcReset e.winA w))).map (fun w => Sparse.get crcReset win w ^^^ Sparse.get crcReset e.winA w)
  let e : Encoder := { e with store := Sparse.set zeroNat e.store k 0, cur := Sparse.set zeroNat e.cur k pw, chg := chg,
                              crcB := Sparse.set crcReset e.crcB sl (crcPixel d10 c0 pw), winB := win }
  ({ L with enc := e.next L.tm }, bad)

/-- The fault of a mismatch between the points in the lane unit of lane `l` (R251, R252). -/
def State.pointFault (s : State) (l syndrome : Nat) : State :=
  let h := halfOf l
  s.detect { half := h, cls := 3, unitNo := (s.half h).luOf h (l % 128), lane := some l, kind := .detected, syndrome := syndrome }

/-- POINT_B_READ (R229, R250, R251). -/
def execPointBRead (l : Nat) (s : State) : Res :=
  if 256 ≤ l then noUnit
  else
    let L := s.lane l
    let e := L.enc
    if L.phase = .running ∧ L.unit.ras.composed e.bf e.bl e.bx = true ∧ e.sf = e.bf then
      let q := L.pointB
      .next (q.2.foldl (fun s d => s.pointFault l d) (s.putLane l q.1))
    else stay s

/-- The pixels of block (s, c) of a picture, as words (R324). -/
def blockWords (pic : Sparse Nat) (sl c h : Nat) : List Nat :=
  (List.range (16 * h)).map (fun i => Sparse.get zeroNat pic (2048 * (16 * sl + i / 16) + 16 * c + i % 16))
/-- The lines of slice `sl` (R324). -/
def Timing.sliceLines (tm : Timing) (sl : Nat) : Nat := min 16 (tm.vact - 16 * sl)
/-- A bit stream, least significant bit first, as a number (R327). -/
def packColours (w : Nat) : List Rgb → Nat
  | [] => 0
  | c :: t => c.r + 2 ^ w * (c.g + 2 ^ w * (c.b + 2 ^ w * packColours w t))
/-- The field of a list of colours of `w` bits a channel (R327). -/
def colourField (w : Nat) (cs : List Rgb) : Bytes := leBytes (ceilDiv (3 * cs.length * w) 8) (packColours w cs)
/-- The runs of a list of indices, the latest first. -/
def runsOf : List Nat → List (Nat × Nat) → List (Nat × Nat)
  | [], acc => acc
  | i :: t, (j, n) :: acc => if i = j then runsOf t ((j, n + 1) :: acc) else runsOf t ((i, 1) :: (j, n) :: acc)
  | i :: t, [] => runsOf t [(i, 1)]
/-- The tokens of a run, in pieces of at most `m` (R331). -/
def runTokens (m : Nat) (p : Nat × Nat) : Bytes :=
  let tok (len : Nat) : Byte := BitVec.ofNat 8 (p.1 * m + len - 1)
  List.replicate (p.2 / m) (tok m) ++ (if p.2 % m = 0 then [] else [tok (p.2 % m)])
/-- A coded block: MODE, Q and body. -/
structure Coded where
  mode : Nat
  q : Nat
  body : Bytes
/-- The intra form of a block at level `q` (R331). -/
def intraForm (d10 : Bool) (q : Nat) (ws : List Nat) : Coded :=
  let depth := if d10 then 10 else 8
  let px := ws.map (fun w => let p := wordPixel d10 w; ({ r := p.r / 2 ^ q, g := p.g / 2 ^ q, b := p.b / 2 ^ q } : Rgb))
  let w := depth - q
  let cols := px.eraseDups
  let raw : Coded := { mode := 4, q := q, body := colourField w px }
  match cols with
  | [c] => { mode := 0, q := q, body := colourField w [c] }
  | _ =>
    if 16 < cols.length then raw
    else
      let k := if cols.length ≤ 2 then 2 else if cols.length ≤ 4 then 4 else 16
      let zero : Rgb := { r := 0, g := 0, b := 0 }
      let runs := (runsOf (px.map (fun p => cols.findIdx (fun c => decide (c = p)))) []).reverse
      let body := colourField w (cols ++ List.replicate (k - cols.length) zero) ++ runs.flatMap (runTokens (256 / k))
      if body.length ≤ raw.body.length then { mode := if k = 2 then 1 else if k = 4 then 2 else 3, q := q, body := body } else raw

/-- A change of a scroll value reduced modulo the size of the map (R332). -/
def scrollDelta (now was size : Nat) : Int :=
  let d := (now + size - was % size) % size
  if d < size / 2 then (d : Int) else (d : Int) - size
/-- The candidate offsets of a slice (R332), from the scroll registers of its first line in both frames. -/
def Encoder.offsets (e : Encoder) (sl : Nat) : List (Int × Int) :=
  ([0, 1, 2, 3].filterMap (fun n =>
    let a := Sparse.get zeroNat e.scrPrev (64 * sl + n)
    let b := Sparse.get zeroNat e.scrCur (64 * sl + n)
    if a = 0 ∨ b = 0 then none
    else
      let sa := a / 2 % 2 ^ 28
      let sb := b / 2 % 2 ^ 28
      let w := max 1 (b / 2 ^ 30 % 2 ^ 15)
      let h := max 1 (b / 2 ^ 45)
      some (scrollDelta (sb % 4096) (sa % 4096) w, scrollDelta (sb / 2 ^ 16 % 4096) (sa / 2 ^ 16 % 4096) h))).filter
    (fun p => decide (p ≠ (0, 0)))
/-- The copy form of a block (R332): the offset of the first match with the frame before. -/
def Lane.copyForm (L : Lane) (sl c : Nat) (ws : List Nat) : Option (Int × Int) :=
  let h := L.tm.sliceLines sl
  if L.enc.sf = 0 then none
  else (L.enc.offsets sl).find? (fun d =>
    let x := (16 * c : Nat) + d.1
    let y := (16 * sl : Nat) + d.2
    decide (0 ≤ x) && decide (0 ≤ y) && decide (x + 16 ≤ (L.tm.hact : Int)) && decide (y + h ≤ (L.tm.vact : Int)) &&
      decide (ws = (List.range (16 * h)).map (fun i => Sparse.get zeroNat L.enc.prev (2048 * (y.toNat + i / 16) + x.toNat + i % 16))))
/-- The blocks that a copy source overlaps (R333). -/
def Lane.sourceBlocks (L : Lane) (sl c : Nat) (d : Int × Int) : List Nat :=
  let x := ((16 * c : Nat) + d.1).toNat
  let y := ((16 * sl : Nat) + d.2).toNat
  let h := L.tm.sliceLines sl
  [y / 16, (y + h - 1) / 16].eraseDups.flatMap (fun t => [x / 16, (x + 15) / 16].eraseDups.map (fun k => 128 * t + k))

/-- HOLDOFF (R336). -/
def Viewer.holdoff (x : Viewer) (L : Lane) : Nat :=
  match x.rtt with
  | none => 2
  | some r => min 8 (1 + ((((r : Nat) : Rat) / L.period).ceil).toNat)
/-- Whether a block is selected (R336). -/
def Viewer.picks (x : Viewer) (L : Lane) (f b : Nat) : Bool :=
  let st := Sparse.get blockFresh x.blocks b
  st.dirty && (st.none || decide (L.chg b = f) || decide (x.holdoff L ≤ (f % 256 + 256 - st.sent) % 256))
/-- The record of a block for a viewer (R326, R333). -/
def Viewer.blockRecord (x : Viewer) (L : Lane) (sl c : Nat) : Bytes :=
  let ws := blockWords L.enc.cur sl c (L.tm.sliceLines sl)
  let i := intraForm L.op.display10 x.level ws
  let intra := leBytes 1 c ++ leBytes 1 (i.mode + 16 * i.q) ++ leBytes 2 i.body.length ++ i.body
  match L.copyForm sl c ws with
  | some d =>
    if (L.sourceBlocks sl c d).all (fun b => (Sparse.get blockFresh x.blocks b).usable) && decide (8 ≤ intra.length) then
      leBytes 1 c ++ [5] ++ leBytes 2 4 ++ leBytes 2 (unsigned 16 d.1) ++ leBytes 2 (unsigned 16 d.2)
    else intra
  | none => intra
/-- The KEY payload (R342). -/
def Lane.keyPayload (L : Lane) (reason : Nat) : Bytes :=
  leBytes 2 L.tm.hact ++ leBytes 2 L.tm.vact ++ leBytes 1 L.bx ++ leBytes 1 L.nslice ++ leBytes 1 (if L.op.display10 then 10 else 8) ++
    leBytes 1 (bits (L.op.reg 0x18000) 0 2) ++ leBytes 4 (unsigned 32 (ratRound (16 * L.nomPeriod))) ++ leBytes 1 reason ++ [0, 0, 0]
/-- A closed slice built for a viewer (R336, R337, R341). -/
def Viewer.takeSlice (x : Viewer) (L : Lane) (tm f sl : Nat) : Viewer :=
  let sel := (List.range L.bx).filter (fun c => x.picks L f (128 * sl + c))
  let last := decide (sl + 1 = L.nslice)
  if sel.isEmpty && !last then x
  else
    let ds := packRecords (x.flow.pmax - 52) (sel.map (fun c => x.blockRecord L sl c)) []
    let f32 := f % 2 ^ 32
    let x := if x.keyOpen ∧ x.keySent ≠ some f then
        { x.build tm 3 0 x.keyref 0xFFFF (L.keyPayload x.keyReason) with keySent := some f } else x
    let x := ds.zipIdx.foldl (fun (x : Viewer) p =>
      let isLast := decide (p.2 + 1 = ds.length)
      x.build tm 1 ((decide (p.2 = 0)).toNat + 2 * isLast.toNat + 4 * (isLast && last).toNat) f32 sl
        (regionPayload x.keyref (L.tm.sliceLines sl) p.1)) x
    let put (m : Sparse BlockState) (c : Nat) : Sparse BlockState :=
      Sparse.set blockFresh m (128 * sl + c) { Sparse.get blockFresh m (128 * sl + c) with sent := f % 256, none := false }
    { x with blocks := sel.foldl put x.blocks, sent := if x.sent.contains f32 then x.sent else (f32 :: x.sent).take 32 }

/-- The picture that a key frame of a lane describes (R342). -/
def Lane.keyForm (L : Lane) : Nat × Nat × Bool := (L.tm.hact, L.tm.vact, L.op.display10)
/-- Whether blocks of the lane's present picture are well formed under the key frame that a viewer has (R327, R329): one that joins again within a
frame, the picture having changed while it was idle, is sent none before its key frame. -/
def Viewer.fits (x : Viewer) (L : Lane) : Bool := match x.keyForm with | some k => decide (k = L.keyForm) | none => true
/-- The order in which viewers receive a closed slice (R364). -/
def State.serviceOrder (s : State) (l : Nat) : List Nat :=
  let vs := ((s.half (halfOf l)).viewersOf l).filter (fun p => decide (p.2.state = 1))
  let n := s.netLane l
  let isPacer (p : Nat × Viewer) : Bool := n.pen && decide (p.1 = n.pacer)
  let rest := vs.filter (fun p => !isPacer p)
  ((vs.filter isPacer) ++ (List.range 4).flatMap (fun k => rest.filter (fun p => p.2.player && decide (p.2.slot = k))) ++
    rest.filter (fun p => !p.2.player)).map (·.1)
/-- The blocks of a slice that changed become DIRTY for a viewer (R334). -/
def Viewer.dirtySlice (x : Viewer) (L : Lane) (f sl : Nat) : Viewer :=
  let put (m : Sparse BlockState) (c : Nat) : Sparse BlockState :=
    if L.chg (128 * sl + c) = f then
      Sparse.set blockFresh m (128 * sl + c) { Sparse.get blockFresh m (128 * sl + c) with dirty := true } else m
  { x with blocks := (List.range L.bx).foldl put x.blocks }
/-- A viewer of a lane changed. -/
def State.mapViewer (s : State) (h : HalfId) (v : Nat) (f : Viewer → Viewer) : State :=
  match (s.half h).viewer v with
  | some x => s.putHalf h ((s.half h).putViewer v (some (f x)))
  | none => s
/-- Whether the slice that closes is withheld (R55, R252, R405). -/
def Lane.withheld (L : Lane) : Bool :=
  let e := L.enc
  (L.late && decide (L.tm.frameAt L.lateAt = e.sf)) || (match L.roll with | some r => decide (e.sf < r.d) | none => false) ||
    decide (Sparse.get crcReset e.crcA e.sl ≠ Sparse.get crcReset e.crcB e.sl)
/-- The encoder after a slice; after the last one the present picture is the previous one. -/
def Encoder.closed (e : Encoder) (tm : Timing) : Encoder :=
  if 16 * (e.sl + 1) < tm.vact then { e with sl := e.sl + 1 }
  else { e with sf := e.sf + 1, sl := 0, prev := e.cur, scrPrev := e.scrCur, allChanged := false }

/-- SLICE_CLOSE (R23, R55, R252, R334 to R337, R341, R364, R405). -/
def execSliceClose (l tm : Nat) (s : State) : Res :=
  if 256 ≤ l then noUnit
  else
    let s := s.at tm
    let h := halfOf l
    let L := s.lane l
    let e := L.enc
    let read := decide (e.sf < e.bf) || (decide (e.sf = e.bf) && decide (16 * (e.sl + 1) ≤ e.bl))
    if L.phase = .running ∧ read = true then
      let s := ((s.half h).viewersOf l).foldl (fun s p => s.mapViewer h p.1 (fun x => x.dirtySlice L e.sf e.sl)) s
      let s := if L.withheld then s
        else (s.serviceOrder l).foldl (fun s v => s.mapViewer h v (fun x => if x.selects && x.fits L then x.takeSlice L s.time e.sf e.sl else x)) s
      let a := Sparse.get crcReset e.crcA e.sl
      let b := Sparse.get crcReset e.crcB e.sl
      let s := s.putLane l { s.lane l with enc := e.closed L.tm }
      .next (if a = b then s else s.pointFault l (a ^^^ b))
    else stay s

end Sys2Proof.Machine
end

