-- ==== Sys2Proof/Machine/Clocked.lean ====
section
/-! DEFINITION. The lane interrupt controller and the timers as commands (R145 to R169). In deterministic mode they are
projected ahead of the beam (R99, R161). -/
namespace Sys2Proof.Machine
open Sys2Proof

/-- Whether steps 3 and 4 of the period `now` may run (R160): its ticks, inputs, writes and reads have come, and so has its milestone. -/
def Lane.stepFour (L : Lane) : Bool :=
  let t := L.unit.tim.now
  (match L.unit.tim.firstTick with | some e => decide (t < e) | none => true) &&
    (!L.det || (L.pastPeriod t && L.arrived (t + 1) && L.queue.all (fun e => e.applied || !clocked e.off || decide (t < L.dotOf e)) &&
      decide (t < L.tm.milVt L.unit.lic.milestones) && L.inputs.all (fun i => i.applied || !i.timed || decide (t < i.vt))))

/-- LIC_SOURCE_PENDING (R145, R154, R566): the earliest condition of source `n` sets PEND; in deterministic mode once
nothing below its event VT is open. With no condition raised, the next milestone's are fixed for a milestone source (R99), and the
captures of the period are made for a capture source (R160, R168). -/
def execLicSourcePending (l n : Nat) (s : State) : Res :=
  if 64 ≤ n then noUnit
  else s.onLane l (fun L => match L.unit.lic.firstOf n with
    | none =>
      if 24 ≤ n ∧ n ≤ 27 then L.lookAhead
      else if decide (16 ≤ n) && decide (n < 24) && !L.unit.tim.trigs.isEmpty && L.stepFour then some (L.timersRaise L.unit.tim.captures, 0)
      else none
    | some e =>
      if L.phase ≠ .stopped ∧ (!L.det || (decide (e < L.frameEnd) && L.fixed e && L.silent (fun _ => false) e)) = true then some (L.setLic ((L.unit.lic.mark e).setPend n e), 0)
      else none)

/-- A write of the timer or LIC window takes effect ahead of the beam (R99, R161): its turn has come, and nothing below
its dot is open. -/
def Lane.canApply (L : Lane) (e : BeamEntry) : Bool :=
  L.det && !e.applied && !e.read && decide (L.dotOf e < L.frameEnd) && L.turn e && L.unitAt e (L.dotOf e) &&
    L.queue.all (fun q => q.applied || !clocked q.off || !L.precedes q e)
/-- Its effect at VT `d`. -/
def Lane.storeClocked (L : Lane) (e : BeamEntry) (d : Nat) : Lane :=
  if e.off < 0x31000 then L.storeTim d (e.off - 0x30000) e.data else L.storeLic e.thread e.stamp d (e.off - 0x31000) e.data

/-- A command that stands for a write of the timer or LIC window: the queue's entry is served, or takes effect ahead of
the beam; with no such entry the write acts by itself at its dot. -/
def Lane.viaClocked (L : Lane) (p : BeamEntry → Bool) (plain : BeamEntry) (d : Nat) : Option (Lane × Nat) :=
  if decide (L.phase = .stopped) then none
  else match L.queue.findIdx? (fun e => p e && !e.applied && !e.read) with
    | none => some (L.storeClocked plain d, 0)
    | some i =>
      let e := L.queue.getD i plain
      match L.front with
      | some q => if decide (q.2 = i) && L.canServe q.1 then some (L.serveWrite q, 0)
        else if L.canApply e then
          some ({ L.storeClocked e (L.dotOf e) with queue := L.queue.set i { e with applied := true } }, 0) else none
      | none => if L.canApply e then
          some ({ L.storeClocked e (L.dotOf e) with queue := L.queue.set i { e with applied := true } }, 0) else none

/-- A write of thread `w` to the LIC window. -/
def licRow (off width v : Nat) (l w stamp : Nat) (s : State) : Res :=
  if 4 ≤ w then noUnit
  else s.onLane l (fun L => L.viaClocked (fun e => decide (e.off = off) && decide (e.thread = w) && decide (e.stamp = stamp) && decide (e.data = v))
    { thread := w, stamp := stamp, off := off, width := width, data := v, read := false, applied := false }
    (if L.det then L.tm.stampVt stamp else L.bvt))

/-- LIC_EOI (R153). -/
def execLicEoi (l w stamp : Nat) (v : BitVec 32) (s : State) : Res := licRow 0x31150 4 v.toNat l w stamp s
/-- LIC_ENABLE_SET (R147, R155). -/
def execLicEnableSet (l w stamp : Nat) (v : BitVec 64) (s : State) : Res := licRow 0x31108 8 v.toNat l w stamp s
/-- LIC_ENABLE_CLR (R147, R155). -/
def execLicEnableClr (l w stamp : Nat) (v : BitVec 64) (s : State) : Res := licRow 0x31110 8 v.toNat l w stamp s
/-- LIC_PEND_CLEAR (R146, R155). -/
def execLicPendClear (l w stamp : Nat) (v : BitVec 64) (s : State) : Res := licRow 0x31118 8 v.toNat l w stamp s
/-- LIC_PEND_SET (R145, R154). -/
def execLicPendSet (l w stamp : Nat) (v : BitVec 64) (s : State) : Res := licRow 0x31120 8 v.toNat l w stamp s

/-- Whether everything that comes before step 1 of the period `t` is done (R160, R161): step 4 of earlier periods, every
write below `t`, captures of milestones and inputs below it; in normal mode the beam stands there. -/
def Lane.periodOpen (L : Lane) (t : Nat) : Bool :=
  (!L.unit.tim.owed || decide (L.unit.tim.now = t)) && decide (t ≤ L.tm.milVt L.unit.lic.milestones) &&
    (if L.det then decide (t < L.frameEnd) && decide (t < L.bvt + (L.runahead + 1) * L.tm.ll) && L.silent (fun _ => false) t && L.arrived t &&
        L.queue.all (fun e => e.applied || !clocked e.off || decide (t ≤ L.dotOf e)) &&
        L.inputs.all (fun i => i.applied || decide (4 ≤ i.kind) || decide (t ≤ i.vt))
      else L.beamReach t || (decide (t = L.nextMil) && L.beamCan t))
/-- TIMER_TICK (R158 to R161, R165): the next tick of timer `n`, none of another timer coming before it. -/
def execTimerTick (l n : Nat) (s : State) : Res :=
  if 8 ≤ n then noUnit
  else s.onLane l (fun L => match L.unit.tim.nextTick n with
    | none => none
    | some t =>
      if decide (L.phase = .running) && decide (L.unit.tim.firstTick = some t) && L.periodOpen t then
        let A := if L.det || decide (L.nextMil ≤ t) then L else L.beamTo t
        some ({ A with unit := { A.unit with tim := A.unit.tim.tick n } }, 0)
      else none)

/-- TIMER_WRAP (R159, R160): after the captures of the period reached, the wrap of timer `n` is raised. -/
def execTimerWrap (l n : Nat) (s : State) : Res :=
  if 8 ≤ n then noUnit
  else s.onLane l (fun L =>
    if decide (L.phase = .running) && (L.unit.tim.get n).wrapped && L.stepFour then
      let A := L.timersRaise L.unit.tim.captures
      some (A.timersRaise (A.unit.tim.raiseWrap n), 0)
    else none)
/-- TIMER_COMPARE (R160, R162, R166): after its captures, the compare of timer `n` in the period `vt` is evaluated. -/
def execTimerCompare (l n vt : Nat) (s : State) : Res :=
  if 8 ≤ n then noUnit
  else s.onLane l (fun L =>
    if decide (L.phase = .running) && (L.unit.tim.get n).due && decide (L.unit.tim.now = vt) && L.stepFour then
      let A := L.timersRaise L.unit.tim.captures
      some (A.timersRaise (A.unit.tim.compare n), 0)
    else none)

/-- A write of the timer window at VT `vt`. -/
def timRow (off v vt : Nat) (l : Nat) (s : State) : Res :=
  s.onLane l (fun L => L.viaClocked (fun e => decide (e.off = off) && decide (e.data = v) && decide (L.serveVt e = vt))
    { thread := 0, stamp := vt, off := off, width := 4, data := v, read := false, applied := false } vt)
/-- TIM_CTL_WRITE (R158, R159, R163). -/
def execTimCtlWrite (l n : Nat) (v : BitVec 32) (vt : Nat) (s : State) : Res :=
  if 8 ≤ n then noUnit else timRow (0x30000 + 0x20 * n) v.toNat vt l s
/-- TIM_CNT_WRITE (R160). -/
def execTimCntWrite (l n : Nat) (v : BitVec 32) (vt : Nat) (s : State) : Res :=
  if 8 ≤ n then noUnit else timRow (0x30004 + 0x20 * n) v.toNat vt l s
/-- TIM_CMP_WRITE (R162, R166). -/
def execTimCmpWrite (l n : Nat) (v : BitVec 32) (vt : Nat) (s : State) : Res :=
  if 8 ≤ n then noUnit else timRow (0x3000C + 0x20 * n) v.toNat vt l s
/-- TIMER_START (R163): a write of TIM_GSTART with START bit `n`. -/
def execTimerStart (l n : Nat) (v : BitVec 32) (vt : Nat) (s : State) : Res :=
  if 8 ≤ n then noUnit else if v.toNat.testBit n then timRow 0x30100 v.toNat vt l s else s.onLane l (fun _ => none)
/-- TIMER_STOP (R163, R164): a write of TIM_GSTART with STOP bit `n`. -/
def execTimerStop (l n : Nat) (v : BitVec 32) (vt : Nat) (s : State) : Res :=
  if 8 ≤ n then noUnit else if v.toNat.testBit (8 + n) then timRow 0x30100 v.toNat vt l s else s.onLane l (fun _ => none)
/-- TIM_CAP_TRIG (R169). -/
def execTimCapTrig (l : Nat) (v : BitVec 32) (vt : Nat) (s : State) : Res := timRow 0x30104 v.toNat vt l s

/-- A read of the timer window that has an effect. -/
def timReadRow (off l : Nat) (s : State) : Res :=
  s.onLane l (fun L => L.viaQueue (fun e => e.read && decide (e.off = off)) (fun A => A.readEffect off))
/-- TIM_CAP_READ (R167, R168). -/
def execTimCapRead (l n : Nat) (s : State) : Res := if 8 ≤ n then noUnit else timReadRow (0x30010 + 0x20 * n) l s
/-- TIM_CNT_PAIR_READ (R167). -/
def execTimCntPairRead (l k : Nat) (s : State) : Res := if 4 ≤ k then noUnit else timReadRow (0x30004 + 0x40 * k) l s

end Sys2Proof.Machine
end

