-- ==== Sys2Proof/Machine/Inputs.lean ====
section
/-! DEFINITION. Inputs of a lane taking effect (R308, R363, R378 to R381, R436). -/
namespace Sys2Proof.Machine
open Sys2Proof

/-- Of two inputs the one that applies first (R379). -/
def LaneInput.before (a b : LaneInput) : Bool := decide (a.vt < b.vt) || (decide (a.vt = b.vt) && decide (a.order < b.order))
def firstInput : List LaneInput → Option LaneInput
  | [] => none
  | i :: t => match firstInput t with
    | some j => if j.before i then some j else some i
    | none => some i
/-- The next input of a kind. -/
def Lane.nextInput (L : Lane) (kind : Nat) : Option LaneInput :=
  firstInput (L.inputs.filter (fun i => decide (i.kind = kind) && !i.applied))
/-- Whether an input can apply (R48, R378): no input accepted before it is left at its dot (R379), and nothing that its registers and the
timers owe below its VT is open. -/
def Lane.canInput (L : Lane) (i : LaneInput) : Bool :=
  decide (L.phase = .running) && L.inputs.all (fun j => j.applied || !j.timed || !j.before i) &&
    (if L.det then decide (i.vt < L.frameEnd) && L.silent (fun _ => false) i.vt && L.arrived i.vt && L.timersAt i.vt &&
        L.queue.all (fun e => if clocked e.off then e.applied || decide (i.vt < L.dotOf e)
          else decide (e.off < 0x32000) || decide (0x33000 ≤ e.off) || decide (i.vt ≤ L.dotOf e))
      else L.beamReach i.vt)
/-- An input marked as applied, with the beam brought to it in normal mode. -/
def Lane.tookInput (L : Lane) (i : LaneInput) : Lane :=
  { (if L.det then L else L.beamTo i.vt) with
    inputs := L.inputs.map (fun j => if j.order = i.order then { j with applied := true } else j) }

/-- The next input of a kind applies. -/
def inputRow (kind : Nat) (f : Lane → LaneInput → Lane) (l : Nat) (s : State) : Res :=
  s.onLane l (fun L => match L.nextInput kind with
    | none => none
    | some i => if L.canInput i then some (f (L.tookInput i) i, 0) else none)
/-- PAD_INPUT_APPLY (R380). -/
def execPadInputApply (l : Nat) (s : State) : Res := inputRow 1 Lane.applyPad l s
/-- ACCESSORY_APPLY (R308). -/
def execAccessoryApply (l : Nat) (s : State) : Res := inputRow 2 Lane.applyAcc l s
/-- VIEWER_CHANGE_APPLY (R363). -/
def execViewerChangeApply (l : Nat) (s : State) : Res := inputRow 3 Lane.applyViewers l s
/-- NOTIFY_APPLY (R436). -/
def execNotifyApply (l : Nat) (s : State) : Res := inputRow 7 Lane.applyNotify l s

end Sys2Proof.Machine
end

