-- ==== Sys2Proof/Machine/Frame.lean ====
section
/-! DEFINITION. Frame boundaries: the commit, what is bound to the boundary, checkpoints, viewers, holds, pause and wake (R43, R58 to
R63, R157, R236 to R241, R339 to R341, R368 to R370, R376, R377, R394 to R401, R405, R438, R486). -/
namespace Sys2Proof.Machine
open Sys2Proof

/-- The checkpoint of the lane at frame boundary `f`, before every item that R43 applies there (R394, R395, R399). -/
def Lane.beginCkpt (L : Lane) (f : Nat) : Lane :=
  if L.ckpts.any (fun c => decide (c.vt = f)) then L
  else
    let mine := L.early.filter (fun p => decide (p.1 = f))
    let held := (L.queue ++ L.coming).filter (fun e => !e.read && (!L.det || decide (e.stamp < f)))
    let c : Checkpoint :=
      { vt := f, frame := L.tm.frameAt f, threads := mine.foldl (fun m p => Sparse.set threadInit m p.2.1 p.2.2) [],
        captured := mine.map (fun p => p.2.1), unit := L.unit, op := L.op, cross := L.cross, queue := held, mem := none, hidden := [],
        recorded := false, completeAt := none, good := false,
        logPos := minL L.inOrder ((L.inputs.filter (fun i => decide (f ≤ i.vt))).map (·.order)) }
    ({ L with ckpts := L.ckpts.drop (L.ckpts.length - 1) ++ [c], early := L.early.filter (fun p => decide (f < p.1)) } : Lane).trimPages.trimLog

/-- The commit of the shadowed registers at boundary `f` (R236, R237): the pass, and whether there was one. -/
def Ras.commit (r : Ras) (f : Nat) : Ras × Bool :=
  match r.capture with
  | none => (r, false)
  | some c =>
    if c.bound ≠ f then (r, false)
    else
      let q := c.vals.foldl (fun (q : Ras) p => q.setReg (p.1 + 0x800) p.2) { r with capture := none }
      let w := q.reg 0x10020
      (q.setReg 0x10020 (putBits (putBit w 0 (!r.reqs.isEmpty)) 16 16 (bits w 16 16 + 1)), true)
/-- Item 1 of R43 at boundary `f`, with source 31 (R237). -/
def Lane.commitAt (L : Lane) (f : Nat) : Lane :=
  let q := L.unit.ras.commit f
  let A := { L with unit := { L.unit with ras := q.1 } }
  if q.2 then A.raiseBeam 31 f else A

/-- The operator registers that the device alone sets (R438). -/
def deviceSet : List Nat := [0x18430, 0x18434, 0x18438, 0x1843C, 0x18440, 0x18808, 0x18810]
/-- The operator commit with record `n` (R230, R240): the staging state, which becomes record `n` of the log, or, in a replay, the
record kept; with it, whether CPS_OUT changes (R341). -/
def Lane.operatorCommit (L : Lane) (n : Nat) : Lane × Bool :=
  let o := L.op
  let fresh := decide (L.opRecords.length ≤ n)
  let rec' := L.opRecords.getD n (o.stage, o.staging)
  let act := deviceSet.foldl (fun m off => Sparse.set laneReset m off (o.reg off)) rec'.1
  let op : Operator := { o with act := act, display := rec'.2, copying := o.copying || fresh }
  ({ L with op := op, opRecords := if fresh then L.opRecords ++ [rec'] else L.opRecords }, decide (op.reg 0x18000 ≠ o.reg 0x18000))

/-- The LANE_START block with the timing words of TIMING_SET (R433). -/
def blockTiming (b d : Bytes) : Bytes := b.take 6 ++ slice d 6 14 ++ slice b 0x14 4 ++ slice d 0x18 4 ++ b.drop 0x1C
/-- The registers that show the timing in force (R66, R173, R269). -/
def Lane.showTiming (L : Lane) (b : Bytes) : Lane :=
  let u := L.unit
  let c := putBits (putBits (u.reg 0x34000) 32 4 (bDot b - 1)) 36 6 (bCpu b - 1)
  let y := putBits (synthOf (bLclk b)) 48 16 (bits (u.reg 0x34008) 48 16)
  let u := ((u.setReg 0x34000 c).setReg 0x34008 y).setReg 0x21000 (w64 (bSnd b))
  { L with unit := { u with ras := u.ras.setReg 0 (rasTiming b) } }
/-- A timing change at boundary `f` (R36, R297, R377). -/
def Lane.applyTiming (L : Lane) (f : Nat) (d : Bytes) : Lane :=
  let b := blockTiming L.block d
  let n := L.tm.frameAt f
  let t := timingOf b f n L.mil L.tm.periods
  let s := L.unit.snd
  let snd : Sound := { s with tick := roundUp f (bSnd b), lines := s.lines.filter (fun x => decide (x.mil < f)),
                              plans := s.plans.filter (fun x => decide (x.mil < f)), nextFetch := min s.nextFetch f, nextPlan := min s.nextPlan f }
  let ras : Ras := { L.unit.ras with lines := [], ff := n, fl := 0 }
  let A : Lane := { L with block := b, unit := { L.unit with tm := t, snd := snd, ras := ras }, audio := L.audio.restartWeir0 }
  let move (A : Lane) (k : Nat) : Lane := let x := A.thread k
    if x.active && decide (f ≤ x.vt) then A.setThread k { x with vt := roundUp x.vt (bCpu b) } else A
  ([0, 1, 2, 3].foldl move A).showTiming b
/-- The refresh lock at a timing change (R377): I0 again from RPERIOD of the latest accepted entry and the new timing of the lane. -/
def Lock.retime (k : Lock) (L : Lane) : Lock :=
  let z : Lock := { k with lock := 0, good := 0, bad := 0, toZero := true }
  match k.rper.map L.entryI0 with
  | none => z
  | some i =>
    if 5000 < ratAbs i then z
    else { k with i := i, lock := 1, good := 0, bad := 0, toZero := false, target := ratRound (4 * i) }
/-- LANE_TUNE at its boundary (R438): the block of R433 keeps the settings in force (R407). -/
def Lane.applyTune (L : Lane) (d : Bytes) : Lane :=
  let m := leAt d 0 1
  let w := L.unit.reg 0x34000
  let w := if m.testBit 0 then putBits w 8 5 (leAt d 1 1) else w
  let w := if m.testBit 1 then putBits w 16 12 (leAt d 2 2) else w
  let n := if m.testBit 2 then leAt d 4 1 else L.inputDelay
  let b := L.block.take 0x14 ++ leBytes 1 (bits w 8 5) ++ slice L.block 0x15 1 ++ leBytes 2 (bits w 16 12) ++ slice L.block 0x18 10 ++ leBytes 1 n ++
    L.block.drop 0x23
  { L with unit := L.unit.setReg 0x34000 w, inputDelay := n, block := b }

/-- A reason for a key frame at every viewer of lane `l` (R341). -/
def State.keyAll (s : State) (l reason : Nat) : State :=
  ((s.half (halfOf l)).viewersOf l).foldl (fun s p => s.mapViewer (halfOf l) p.1 (fun x => { x with keyDue := x.keyDue ++ [reason] })) s
/-- The wakes whose inputs have applied before boundary `f` kept in LSYS_WAKE (R63, R157). -/
def Lane.settleWakes (L : Lane) (f : Nat) : Lane :=
  { L.setReg 0x34030 (L.sysWake (f - 1)) with
    inputs := L.inputs.map (fun i => if i.kind = 4 ∧ i.vt < f then { i with applied := true } else i) }
/-- One input bound to boundary `f` (R240, R377, R401, R426, R438): an operator commit, a timing change, a tune. -/
def State.applyBound (s : State) (l f : Nat) (i : LaneInput) : State :=
  let L := s.lane l
  let n := s.netLane l
  let frame := L.tm.frameAt f % 2 ^ 32
  let s := match i.kind with
    | 5 => let q := L.operatorCommit (leAt i.data 0 4)
           if q.2 then (s.putLane l q.1).keyAll l 2 else s.putLane l q.1
    | _ =>
      if i.slot = 0 then
        let A := L.applyTiming f i.data
        ((s.putLane l A).putNetLane l { n with lock := n.lock.retime A }).keyAll l 1
      else
        let s := s.putLane l (L.applyTune i.data)
        if (leAt i.data 0 1).testBit 3 then s.putNetLane l { n with lead := signed 16 (leAt i.data 6 2) } else s
  let A := s.lane l
  let s := s.putLane l { A with inputs := A.inputs.map (fun j => if j.order = i.order then { j with applied := true } else j) }
  match i.cmd with
  | some id => s.finish id stOk 0 (leBytes 4 frame)
  | none => s
/-- Item 2 of R43 at boundary `f`, in the order of binding (R426). -/
def State.applyBounds (s : State) (l f : Nat) : State :=
  ((s.lane l).inputs.filter (fun i => decide (i.vt = f) && !i.applied && (decide (i.kind = 5) || decide (i.kind = 6)))).foldl
    (fun s i => s.applyBound l f i) s

/-- STEER at a frame boundary (R375, R376). -/
def Lock.steer (k : Lock) (x : Int) : Int :=
  if k.toZero then (if 400 < x then x - 400 else if x < -400 then x + 400 else 0) else if k.lock = 0 then x else k.target
/-- The pacing viewer's round trip in units of 0.1 ms (R233). -/
def State.pacerTrip (s : State) (l : Nat) : Nat :=
  let n := s.netLane l
  match (s.half (halfOf l)).viewer n.pacer with
  | some x => if n.pen && decide (x.lane = l) then x.rtt.getD 0 / 100000 else 0
  | none => 0
/-- The pacing viewer's round trip as it is latched at boundary `f` (R233): in a replay the value latched there before, which the lane keeps with its
input log so that the signatures come out again (R240). -/
def State.meterAt (s : State) (l f : Nat) : Nat :=
  match (s.lane l).meters.find? (fun p => decide (p.1 = f)) with
  | some p => p.2
  | none => s.pacerTrip l
/-- The meter log with the value of boundary `f`, without what no kept checkpoint needs. -/
def Lane.logMeter (L : Lane) (f v : Nat) : List (Nat × Nat) :=
  (L.meters.filter (fun p => decide (p.1 ≠ f) && decide (minL f (L.ckpts.map (·.vt)) ≤ p.1))) ++ [(f, v)]
/-- Meters and STEER at frame boundary `f` (R233, R376). -/
def State.latchLane (s : State) (l f : Nat) : State :=
  let L := s.lane l
  let m := s.meterAt l f
  let st := unsigned 16 ((s.netLane l).lock.steer L.steer)
  let op : Operator := { L.op with meter0 := bits (L.op.reg 0x18018) 0 16, meter1 := m }
  let A : Lane := { L with op := op, meters := L.logMeter f m }
  let s := s.putLane l (A.setReg 0x34008 (putBits (L.unit.reg 0x34008) 48 16 st))
  let n := s.netLane l
  if n.lock.toZero then s.putNetLane l { n with lock := { n.lock with target := signed 16 st } } else s
/-- LATE_HIST at a frame boundary of a deterministic lane (R486). -/
def State.lateHist (s : State) (l f : Nat) : State :=
  let L := s.lane l
  if !L.det then s
  else
    let k := if L.copied then 0 else min 15 ((L.floor - f) / L.tm.ll + 1)
    s.lifeAdd (halfOf l) (0x240 + 8 * k) 8 1

/-- The blocks of a viewer changed one by one; `f` keeps what an unlisted block reads as. -/
def Viewer.mapBlocks (x : Viewer) (f : BlockState → BlockState) : Viewer :=
  { x with blocks := x.blocks.foldl (fun m p => Sparse.set blockFresh m p.1 (f p.2)) [] }
/-- The settings of VIEWER_SET at a boundary (R369, R437); the send bucket fills at the old rate up to it (R371). -/
def Viewer.applySet (x : Viewer) (tm : Nat) : Viewer :=
  match x.setDue with
  | none => x
  | some d =>
    let x := { x with setDue := none, bucket := x.bucketNow tm, bucketAt := tm, budget := d.budget.getD x.budget, halfOk := d.halfOk.getD x.halfOk, pace := d.pace.getD x.pace }
    match d.levels with
    | some (a, b) => { x with lmin := a, lmax := b, level := min (max x.level a) (max a b) }
    | none => x
/-- Steps of level and rate at a boundary (R369). -/
def Viewer.applyStep (x : Viewer) : Viewer :=
  if x.stepDue then
    let x := { x with stepDue := false, drops := [], clean := 0 }
    if x.level < x.lmax then { x with level := x.level + 1 } else if x.halfOk && !x.half then { x with half := true } else x
  else if 600 ≤ x.clean then
    (if x.half then { x with half := false, clean := 0 } else if x.lmin < x.level then { x with level := x.level - 1, clean := 0 } else x)
  else { x with clean := x.clean + 1 }
/-- Whether blocks are selected for the frame that a boundary begins, and the token count (R368): the viewer, and whether the frame is
dropped. -/
def Viewer.budgetStep (x : Viewer) (f : Nat) (beff : Int) (forced : Bool) : Viewer × Bool :=
  if (x.half || forced) && decide (f % 2 = 1) then ({ x with selects := false }, false)
  else if x.t < -beff then
    ({ x with selects := false, t := 0, dropCount := satBits 32 (x.dropCount + 1), drops := f :: x.drops, clean := 0,
              stepDue := x.stepDue || x.drops.any (fun d => decide (f ≤ d + 60)) }, true)
  else ({ x with selects := true, t := min (x.t + beff) beff }, false)
/-- REASON of a key frame (R342). -/
def Viewer.reason (x : Viewer) : Nat :=
  if x.moved then 4 else if x.keyDue.contains 1 then 1 else if x.keyDue.contains 2 then 2 else if x.keyDue.contains 3 then 3 else 0
/-- A key frame begins for a viewer (R341). -/
def Viewer.beginKey (x : Viewer) (L : Lane) (f : Nat) : Viewer :=
  { x with keyref := f % 2 ^ 32, keyForm := some L.keyForm, keyReason := x.reason, keyOpen := true, keySent := none, moved := false, keyDue := [], blocks := [] }
/-- B_eff of a viewer (R367, R384). -/
def State.beff (s : State) (h : HalfId) (x : Viewer) : Int :=
  let carries := [HalfId.east, HalfId.west].any (fun g => (List.range 4).any (fun k => ((s.half g).sub k).carry))
  ((if carries then x.budget * (s.half h).net.foScale / 256 else x.budget : Nat) : Int)
/-- A viewer of lane `l` at the boundary that begins frame `f` (R339 to R341, R344, R368, R369, R405). -/
def State.viewerBoundary (s : State) (l v f : Nat) : State :=
  let h := halfOf l
  let L := s.lane l
  match (s.half h).viewer v with
  | none => s
  | some x =>
    let x := (x.applySet s.time).applyStep
    let x := if x.wasAbove && decide (x.level = 0) then x.mapBlocks (fun b => if b.coarse then { b with dirty := true } else b) else x
    let x := { x with wasAbove := decide (0 < x.level) }
    let first := match L.roll with | some r => decide (f = r.d) | none => false
    let x := if first then x.mapBlocks (fun b => { b with dirty := true }) else x
    let x := x.mapBlocks (fun b => { b with usable := !b.dirty && !b.coarse })
    let forced := !x.player && decide (2 ≤ (s.half h).mon.stage)
    let q := if x.state = 1 then x.budgetStep f (s.beff h x) forced else ({ x with selects := false }, false)
    let s := if q.2 then s.lifeAdd h 0x50 8 1 else s
    let held := match L.roll with | some r => decide (f < r.d) | none => false
    if q.1.state = 1 ∧ q.1.selects = true ∧ held = false ∧ (q.1.keyDue ≠ [] ∨ q.1.keyCmds ≠ []) then
      let s := (s.putHalf h ((s.half h).putViewer v (some (q.1.beginKey L f)))).settleKeys h v (some (f % 2 ^ 32))
      match (s.half h).viewer v with
      | some y => s.reportTiming h v y
      | none => s
    else s.putHalf h ((s.half h).putViewer v (some q.1))

/-- The rollback at a boundary (R404, R405): frame d counts as changed whole; beyond H the replay is over. -/
def Lane.rollBoundary (L : Lane) (vt f : Nat) : Lane :=
  match L.roll with
  | none => L
  | some r =>
    let A : Lane := if f = r.d then { L with enc := { L.enc with allChanged := true } } else L
    if r.h < vt then { A with roll := none } else A

/-- Whether the encoder has closed every slice before frame `f`, and point B read it. -/
def Lane.encoded (L : Lane) (f : Nat) : Bool := decide (L.enc.bf = f) && decide (L.enc.sf = f)
/-- Whether the sound unit and the blitter stand at boundary `f`, as the checkpoint there holds them: every tick below it is computed
(R291), every operation that ends below it has ended, and one that spans it has read all that it reads below its start (R263, R265). -/
def Lane.unitsEnd (L : Lane) (f : Nat) : Bool :=
  L.ticked f && (!L.det || (match L.unit.blt with
    | some o => decide (f ≤ o.s) || (decide (f ≤ o.e) && o.done)
    | none => true))
/-- Whether the beam can reach the next frame boundary: it is the next milestone and every slice before it has closed. In a late frame
sound unit and blitter catch up in the vblank hold. -/
def Lane.canEnd (L : Lane) : Bool :=
  decide (L.tm.lineAt L.nextMil = 0) && L.encoded (L.tm.frameAt L.nextMil) && (L.late || L.unitsEnd L.nextMil) && (if L.det then L.canReach else L.canArrive)
/-- The wakes settled and the checkpoint at `f`, unless the service processor of the half restarts (R452). -/
def State.ckptAt (s : State) (l f : Nat) : State :=
  let s := s.putLane l ((s.lane l).settleWakes f)
  if (s.half (halfOf l)).sp.spRestart then s else s.putLane l ((s.lane l).beginCkpt f)
/-- Commands to lane `l` whose DEADLINE ends with the frame before frame `f` and that have not begun are dropped (R427). -/
def State.dropLate (s : State) (l f : Nat) : State :=
  (s.cmds.filter (fun c => decide (c.target = l) && !c.begun && c.reply.isNone && c.flags.testBit 2 && serialBefore c.deadline (f % 2 ^ 32))).foldl
    (fun s c => s.finish c.id stDroppedLate 0 []) s
/-- BFRAME and BTIME of lane `l`, whose beam has reached frame boundary `f` (R344). -/
def State.markBoundary (s : State) (l f : Nat) : State :=
  s.putNetLane l { s.netLane l with bframe := (s.lane l).tm.frameAt f % 2 ^ 32, btime := s.time }
/-- SND_STAT.TRAIL is of the current frame (R291). -/
def Lane.sndFrame (L : Lane) : Lane := L.setReg 0x210C8 (putBits (L.unit.reg 0x210C8) 48 16 0)
/-- Everything that takes place at frame boundary `f` (R36, R43). -/
def State.boundary (s : State) (l f : Nat) : State :=
  let h := halfOf l
  let lock := (s.netLane l).lock.lock
  let s := ((s.markBoundary l f).ckptAt l f).lateHist l f
  let s := s.putLane l ((s.lane l).commitAt f)
  let s := (s.applyBounds l f).latchLane l f
  let fr := (s.lane l).tm.frameAt f
  let s := (s.putLane l { s.lane l with bvt := f }).tellLock l lock
  let s := (((s.half h).viewersOf l).foldl (fun s p => s.viewerBoundary l p.1 fr) s).dropLate l fr
  s.putLane l (({ (s.lane l).rollBoundary f fr with copied := false } : Lane).sndFrame.arrive)

/-- LSYS_SYNTH.LOCKED. -/
def Lane.setLocked (L : Lane) (b : Bool) : Lane := L.setReg 0x34008 (putBit (L.unit.reg 0x34008) 41 b)
/-- Whether a timing change is bound to boundary `f` (R377). -/
def Lane.retimes (L : Lane) (f : Nat) : Bool :=
  L.inputs.any (fun i => decide (i.vt = f) && !i.applied && decide (i.kind = 6) && decide (i.slot = 0))
/-- FRAME_BOUNDARY (R36, R43, R58, R377): the beam reaches a frame boundary; one that ends a late frame begins the vblank hold. At one with a
timing change the lane clock holds while the synthesiser locks; the next FRAME_BOUNDARY of the lane ends that hold (DESIGN CHOICE: the table has
no row for it). -/
def execFrameBoundary (l tm : Nat) (s : State) : Res :=
  if 256 ≤ l then noUnit
  else
    let s := s.at tm
    let L := s.lane l
    if L.phase = .running ∧ L.hold = .relock then .next (s.putLane l (({ L with hold := .none } : Lane).setLocked true))
    else if !L.canEnd then stay s
    else if L.late then .next ((s.markBoundary l L.nextMil).putLane l { L with hold := .vblank, holdAt := s.time, bvt := L.nextMil })
    else if L.pauseDue.any then stay s
    else
      let t := s.boundary l L.nextMil
      .next (if L.retimes L.nextMil then t.putLane l (({ t.lane l with hold := .relock, holdAt := s.time } : Lane).setLocked false) else t)

/-- Whether the tailrace pass has reached F in the vblank hold (R56, R58): the floor is there, no thread can still issue below F, every access
that applies below F has been served (R44), every dot below F is evaluated and every line of the frame fetched with its group (R211). -/
def Lane.tailReached (L : Lane) (f : Nat) (r : Ras) : Bool :=
  decide (L.hold = .vblank) && decide (f ≤ L.floor) && L.silent (fun _ => false) f && L.queue.all (fun e => decide (f ≤ L.dotOf e)) &&
    L.coming.all (fun e => decide (f ≤ L.dotOf e)) && decide (f ≤ r.nextVt L.tm) &&
    decide (f ≤ L.tm.lineVt r.ff r.fl) && r.lines.all (·.complete)
/-- Whether the vblank hold at `f` can end at device time `time` (R58): the ticks below F are computed, and the copy, begun as the
tailrace pass reached F, has taken 1,024 LCLK periods. -/
def Lane.holdOver (L : Lane) (f time : Nat) (r : Ras) : Bool :=
  L.tailReached f r && L.unitsEnd f &&
    (match L.tailAt with
     | some t => decide (1024 * L.period / (L.tm.lf : Rat) ≤ ((time - t : Nat) : Rat))
     | none => false)
/-- The evaluation copy becomes the beam's register state (R56, R58): writes whose dot begins the new frame apply to it later. -/
def Lane.copyBack (L : Lane) (f time : Nat) : Lane :=
  let A := L.syncTail (f - 1)
  match A.tail with
  | none => A.endHold time
  | some r =>
    let live (off : Nat) (m : Word) (r : Ras) : Ras := r.setReg off ((r.reg off &&& ~~~ m) ||| (A.unit.ras.reg off &&& m))
    let r := live 0x10 0x0000FFFF00000000 (live 0x18 0xFFFFFFFF00000000 r)
    ({ A with unit := { A.unit with ras := r }, late := false, tail := none, tailWr := [], tailAt := none, queue := A.tailWr ++ A.queue, copied := true } : Lane).endHold time
/-- VBLANK_HOLD_END (R58, R66): the copy begins once the tailrace pass has reached F; when the hold ends BVT stays at F, and the
milestone of line 0 follows. -/
def execVblankHoldEnd (l tm : Nat) (s : State) : Res :=
  let now := (s.at tm).time
  (s.at tm).onLane l (fun L => match L.tail with
    | none => none
    | some r =>
      if L.phase ≠ .running then none
      else if L.holdOver L.nextMil now r then some (L.copyBack L.nextMil now, 0)
      else if L.tailAt.isNone && L.tailReached L.nextMil r then some ({ L with tailAt := some now }, 0) else none)

/-- HOLD_FAULT (R59, R452): a hold of more than two frame periods is a fault of the lane's unit; one that waits already is not met again. -/
def execHoldFault (l tm : Nat) (s : State) : Res :=
  if 256 ≤ l then noUnit
  else
    let s := s.at tm
    let L := s.lane l
    let waits := (s.half (halfOf l)).sp.later.any (fun x => match x.2 with | .fault f => decide (f.cls = 3) && decide (f.lane = some l) | .hbm .. => false)
    if L.phase = .running ∧ L.hold.counted = true ∧ 2 * L.period < ((s.time - L.holdAt : Nat) : Rat) ∧ waits = false then .next (s.pointFault l 0)
    else stay s

/-- The end of the audio of the frame that the tap records (R247). -/
def Lane.endTapAudio (L : Lane) : Lane :=
  match L.op.tap with
  | none => L
  | some t => { L with op := { L.op with tap := none, tapDone := some { t with audio := L.audio.tapMix }, tapLast := t.frame + 1 } }
/-- The reasons of two pauses together. -/
def PauseWhy.or (p q : PauseWhy) : PauseWhy :=
  { command := p.command || q.command, ladder := p.ladder || q.ladder, fault := p.fault || q.fault, test := p.test || q.test,
    drain := p.drain || q.drain }
/-- PAUSE_TAKES_EFFECT (R62, R241, R375, R435): the beam stops at F, before what is bound there. -/
def execPauseTakesEffect (l tm : Nat) (s : State) : Res :=
  if 256 ≤ l then noUnit
  else
    let s := s.at tm
    let L := s.lane l
    let f := L.nextMil
    if L.canEnd && !L.late && L.pauseDue.any && (L.op.tap.isNone || L.op.tapDone.isNone) then
      let s := s.markBoundary l f
      let A := ((s.putLane l { L with bvt := f }).ckptAt l f).lane l
      let drains := (s.half (halfOf l)).drain.lanes.contains l && (A.snap.any (·.drain) || (s.half (halfOf l)).drain.buffersOver)
      let B : Lane := { A.endTapAudio with phase := .paused, pausedFor := (A.pausedFor.or A.pauseDue).or { PauseWhy.no with drain := drains }, pauseDue := .no, pauseCmds := [] }
      let s := (s.putLane l B).unlock l
      .next (L.pauseCmds.foldl (fun s id => s.finish id stOk 0 (leBytes 4 (L.tm.frameAt f))) s)
    else stay s

/-- The lane clock of a paused lane restarts (R63, R157, R241, R297, R401): the wake is an input that arrives at BVT = F and applies at the
VT of R48 and R378. -/
def State.resumeLane (s : State) (l cause : Nat) : State :=
  let L := s.lane l
  let A : Lane := { L with phase := .running, pausedFor := .no, audio := { L.audio.restartWeir0 with held := false }, unit := { L.unit with lic := L.unit.lic.clearLatches } }
  let s := s.logInput l A A.inputVt 4 0 (leBytes 1 cause) none
  let H := s.half (halfOf l)
  s.putHalf (halfOf l) { H with mon := { H.mon with ladder := H.mon.ladder.filter (fun k => decide (k ≠ l)) } }
/-- LANE_WAKE (R63, R157). -/
def execLaneWake (l tm : Nat) (s : State) : Res :=
  if 256 ≤ l then noUnit
  else
    let s := s.at tm
    let L := s.lane l
    let w := L.pausedFor
    if L.phase = .paused ∧ L.unit.lic.latched = true ∧ L.snap.isNone ∧ (w.fault || w.test || w.drain) = false then
      .next (s.resumeLane l L.unit.lic.wakeCause)
    else stay s

end Sys2Proof.Machine
end

