-- ==== Sys2Proof/Machine/Commands.lean ====
section
/-! DEFINITION. Command packets: the opcode table, the checks at acceptance, the rules by which a command begins, and the shape that
every opcode's meaning shares (R409, R410, R421 to R428, R432, R508, R512, R528, R568). -/
namespace Sys2Proof.Machine
open Sys2Proof

/-- The field of the parameters that gives their length, by offset and bytes, and the length of `n` of it. -/
inductive ParamLen
  | fixed (n : Nat)
  | counted (off width base step : Nat)
  | addresses
  | any
  deriving DecidableEq, Repr

/-- A row of the opcode tables (R432): whether the target is a lane, PRIV, and the parameters. -/
structure OpRow where
  op : Nat
  lane : Bool
  priv : Bool
  len : ParamLen
  deriving DecidableEq, Repr

def laneRow (op : Nat) (len : ParamLen) : OpRow := { op := op, lane := true, priv := false, len := len }
def devRow (op : Nat) (len : ParamLen) : OpRow := { op := op, lane := false, priv := false, len := len }
def privRow (op : Nat) (len : ParamLen) : OpRow := { op := op, lane := false, priv := true, len := len }

/-- The opcodes of lanes, viewers, timing, compositor and audio. -/
def laneOps : List OpRow :=
  [ laneRow 0x0101 (.fixed 72), laneRow 0x0102 (.fixed 0), laneRow 0x0103 (.fixed 0), laneRow 0x0104 (.fixed 0)
  , laneRow 0x0105 (.fixed 8), laneRow 0x0106 (.fixed 0)
  , laneRow 0x0201 (.fixed 64), laneRow 0x0202 (.fixed 4), laneRow 0x0203 (.fixed 16), laneRow 0x0204 (.fixed 36)
  , laneRow 0x0205 (.counted 0 1 2 2), laneRow 0x0206 (.fixed 4)
  , laneRow 0x0301 (.fixed 32), laneRow 0x0302 (.fixed 8), laneRow 0x0303 (.counted 4 2 8 1), laneRow 0x0304 (.counted 0 2 8 16)
  , laneRow 0x0305 (.fixed 0), laneRow 0x0306 (.fixed 88), laneRow 0x0307 (.fixed 16) ]
/-- The opcodes of memory, monitors, faults, firmware and the device. -/
def deviceOps : List OpRow :=
  [ devRow 0x0401 (.fixed 72), devRow 0x0402 (.fixed 8), devRow 0x0403 (.fixed 24), laneRow 0x0404 (.fixed 24)
  , laneRow 0x0405 (.fixed 24), laneRow 0x0406 (.counted 0 1 4 28), laneRow 0x0407 (.fixed 4)
  , devRow 0x0501 (.fixed 8), devRow 0x0502 (.fixed 8), devRow 0x0503 (.fixed 12), devRow 0x0504 (.fixed 0)
  , devRow 0x0601 (.fixed 8), devRow 0x0602 (.fixed 12), devRow 0x0603 (.fixed 8), privRow 0x0604 (.fixed 8)
  , privRow 0x0701 (.fixed 24), privRow 0x0702 (.fixed 8), devRow 0x0703 (.fixed 4), devRow 0x0704 (.fixed 0)
  , privRow 0x0705 (.fixed 0), privRow 0x0706 (.fixed 56)
  , devRow 0x0801 (.fixed 0), devRow 0x0802 (.fixed 8), devRow 0x0803 .addresses, devRow 0x0804 (.fixed 4)
  , devRow 0x0805 (.counted 1 1 8 4), devRow 0x0806 (.fixed 24), devRow 0x0807 (.fixed 0), devRow 0x0808 (.fixed 8)
  , devRow 0x0809 .any ]
/-- The row of an opcode; every other value is unassigned. -/
def opRow (op : Nat) : Option OpRow := (laneOps ++ deviceOps).find? (fun r => decide (r.op = op))

/-- The DETAIL with which parameters of the wrong length are refused (R422 item 5). -/
def lenBad (r : OpRow) (p : Bytes) : Option Nat :=
  let fixed (n : Nat) : Option Nat := if p.length = n then none else some (min p.length n)
  match r.len with
  | .fixed n => fixed n
  | .counted o w base step => if p.length < o + w then some p.length else fixed (base + step * leAt p o w)
  | .addresses => if p.length < 10 then some p.length else fixed (16 + 4 * leAt p 8 1 + 16 * leAt p 9 1)
  | .any => none

/-- The fields of a packet header (R421). -/
def hOp (b : Bytes) : Nat := leAt b 0 2
def hTag (b : Bytes) : Nat := leAt b 2 2
def hTarget (b : Bytes) : Nat := leAt b 4 2
def hFlags (b : Bytes) : Nat := leAt b 6 2
def hPlen (b : Bytes) : Nat := leAt b 8 2
def hDeadline (b : Bytes) : Nat := leAt b 12 4
def hRaddr (b : Bytes) : Nat := leAt b 16 8
def hRmax (b : Bytes) : Nat := leAt b 24 4

/-- Item 1 of R422. An unassigned opcode has no PRIV column. -/
def headerBad (b : Bytes) : Bool :=
  decide (hTag b = 0xFFFF) || decide (8 ≤ hFlags b) || decide (leAt b 10 2 ≠ 0) || decide (leAt b 28 4 ≠ 0) || decide (4096 < hPlen b) ||
    decide (4096 < hRmax b) || (decide (hDeadline b ≠ 0) && !(hFlags b).testBit 2) || ((hFlags b).testBit 2 && decide (hTarget b = 0xFFFF)) ||
    (match opRow (hOp b) with | some r => (hFlags b).testBit 1 != r.priv | none => false)
/-- The opcodes of the SMBus (R409). -/
def smbusOps : List Nat := [0x0501, 0x0503, 0x0806, 0x0807, 0x0704, 0x0801, 0x0809]

/-- Whether the service processor of a half serves its transports (R452, R501). -/
def Half.serves (H : Half) : Bool := !H.sp.spRestart && !H.sp.down && !H.boot.failed && decide (2 ≤ H.boot.stage)

/-- The half in charge (R464). -/
def State.inCharge (s : State) : Option HalfId :=
  if s.east.auth.role = .inCharge then some .east else if s.west.auth.role = .inCharge then some .west else none
/-- Whether a grant is open (R526, R528). -/
def State.granted (s : State) : Bool := s.presence.openAt.isSome && decide (s.time ≤ s.presence.endAt)
/-- The half on whose PF or port a command arrived (R409). -/
def Source.half : Source → Option HalfId
  | .ring h _ => some h
  | .control h => some h
  | .smbus => none
/-- Whether the half on which a command arrived is subordinate-isolated (R468). -/
def State.fromIsolated (s : State) (src : Source) : Bool :=
  match src.half with | some h => decide ((s.half h).auth.role = .isolated) | none => false
/-- The first check of R422 that a packet fails, with the grant of R528: STATUS and DETAIL. A command to any lane that arrives on an
isolated half is ISOLATED too, since that half sends nothing of it to the other (R468; DEDUCED from 'lanes of either isolated half'). -/
def State.checkPacket (s : State) (src : Source) (b p : Bytes) : Option (Nat × Nat) :=
  if headerBad b then some (stBadHeader, 0)
  else match opRow (hOp b) with
    | none => some (stBadOpcode, 0)
    | some r =>
      let t := hTarget b
      if (0x100 ≤ t ∧ t < 0xFFFF) ∨ r.lane ≠ decide (t < 0x100) then some (stBadTarget, 0)
      else if src = .smbus ∧ smbusOps.contains r.op = false then some (stDenied, 0)
      else match lenBad r p with
        | some d => some (stBadParam, d)
        | none =>
          if s.cmds.any (fun c => decide (c.src = src) && decide (c.tag = hTag b)) then some (stTagBusy, 0)
          else if r.lane ∧ ((s.half (halfOf t)).auth.role = .isolated ∨ s.fromIsolated src = true) then some (stIsolated, 0)
          else if r.priv ∧ s.presence.lockdown = true then some (stLockdown, 0)
          else if r.priv ∧ s.granted = false then some (stDenied, 0)
          else none
/-- The commands in flight from a source. -/
def State.inFlight (s : State) (src : Source) : Nat := (s.cmds.filter (fun c => decide (c.src = src))).length
/-- A packet accepted (R410, R422): it waits to begin, or completes at once with the status of the first check that it fails. -/
def State.accept (s : State) (src : Source) (b p : Bytes) : State :=
  let c : Cmd := { id := s.nextCmd, src := src, opcode := hOp b, tag := hTag b, target := hTarget b, flags := hFlags b, params := p,
                   deadline := hDeadline b, raddr := hRaddr b, rmax := hRmax b, header := b, begun := false, reply := none, discard := false }
  let t := { s with cmds := s.cmds ++ [c], nextCmd := s.nextCmd + 1 }
  match s.checkPacket src b p with
  | some e => t.finish c.id e.1 e.2 []
  | none => t

/-- The opcodes whose first parameter byte is HALF, and those whose first is PORT. -/
def halfOps : List Nat := [0x0401, 0x0402, 0x0403, 0x0501, 0x0502, 0x0503, 0x0601, 0x0602, 0x0603, 0x0604, 0x0701, 0x0702, 0x0703, 0x0805,
  0x0706, 0x0802, 0x0803, 0x0804]
/-- The half that executes a command (R22): that of its lane, the one its parameters name, or the half in charge; an isolated half answers
LIFE_READ of HALF 2 itself (R492). -/
def State.executor (s : State) (c : Cmd) : Option HalfId :=
  if c.target < 256 then some (halfOf c.target)
  else if halfOps.contains c.opcode && decide (leAt c.params 0 1 < 2) then some (halfId (leAt c.params 0 1))
  else if c.opcode = 0x0503 ∧ s.fromIsolated c.src = true then c.src.half
  else s.inCharge
/-- Whether what forwards a command can do so: a D-target command that arrives on an isolated half goes to the half in charge, whose service
processor must run (R468). -/
def State.forwards (s : State) (c : Cmd) : Bool :=
  decide (c.target < 256) || !s.fromIsolated c.src || (decide (c.opcode = 0x0503) && decide (2 ≤ leAt c.params 0 1)) ||
    (match s.inCharge with | some g => (s.half g).serves | none => false)
/-- Whether FENCE lets a command begin (R425). A command counts as completed once its reply has been written. -/
def State.fenceOk (s : State) (c : Cmd) : Bool :=
  s.cmds.all (fun d => !(decide (d.src = c.src) && decide (d.target = c.target) && decide (d.id < c.id)) ||
    (!c.flags.testBit 0 && !d.flags.testBit 0))
/-- The opcodes that still execute from SAFE on (R512), and those that a drain refuses (R508). FW_COMMIT refuses itself under R521. -/
def safeOps : List Nat := [0x0801, 0x0807, 0x0501, 0x0503, 0x0809]
def drainOps : List Nat := [0x0101, 0x0405, 0x0407, 0x0201, 0x0401]
/-- Whether a lane stands frozen for a drain (R508). -/
def Lane.drainFrozen (L : Lane) : Bool := decide (L.phase = .paused) && L.pausedFor.drain
/-- SVC_DRAIN.STATE of a half: 1 while a lane is still in pre-copy, 2 once all are frozen, 3 once all are written or lost, 4 SAFE. -/
def Half.drainPhase (H : Half) : Nat :=
  if H.drain.state = 0 ∨ H.drain.state = 4 then H.drain.state
  else if H.drain.lanes.isEmpty then 3
  else if H.drain.lanes.all (fun l => (H.lane (l % 128)).drainFrozen) then 2 else 1
/-- The drain of the device: that of the half in charge, or of the executing half. -/
def State.drainState (s : State) (h : HalfId) : Nat :=
  max (s.half h).drainPhase (match s.inCharge with | some g => (s.half g).drainPhase | none => 0)
/-- Whether a deadline has passed (R427): the lane's frame DEADLINE has ended. -/
def State.pastDeadline (s : State) (c : Cmd) : Bool :=
  c.flags.testBit 2 && decide (c.target < 256) && serialBefore c.deadline (s.lane c.target).frameNow
/-- The DETAIL of a command that SAFE refuses (R568): a rule of the opcode's own that refuses it too comes first. -/
def State.safeDetail (s : State) (c : Cmd) (h : HalfId) : Nat :=
  if c.opcode = 0x0104 ∧ (s.lane c.target).pausedFor.ladder = true ∧ 3 ≤ (s.half (halfOf c.target)).mon.stage then 3
  else if c.opcode = 0x0701 ∧ (s.half h).fw.waiting ≠ 0 then 3
  else if c.opcode = 0x0806 then s.drainState h
  else 0x100 + s.drainState h
/-- What stands before every opcode's own checks: none where the command may execute, else STATUS and DETAIL. -/
def State.gate (s : State) (c : Cmd) (h : HalfId) : Option (Nat × Nat) :=
  if s.pastDeadline c then some (stDroppedLate, 0)
  else if s.safe ∧ safeOps.contains c.opcode = false ∧ c.opcode ≠ 0x0702 then some (stBadState, s.safeDetail c h)
  else if s.drainState h ≠ 0 ∧ drainOps.contains c.opcode = true then some (stBadState, 0x100 + s.drainState h)
  else if (s.half h).sp.down ∨ (s.half h).boot.failed then some (stBadState, 0)
  else none
/-- Whether a command can begin now: it has not, its fence allows it, and the service processor of its half runs (R425, R452), with no
trip, which stops the fabric it works through (R482; DEDUCED); a
command to a lane waits until its half is READY. -/
def State.mayBegin (s : State) (c : Cmd) (op : Nat) : Option HalfId :=
  if c.opcode ≠ op ∨ c.begun = true ∨ c.reply.isSome = true ∨ s.fenceOk c = false ∨ s.forwards c = false then none
  else match s.executor c with
    | none => none
    | some h =>
      let H := s.half h
      if s.thermtrip = true ∨ H.sp.spRestart ∨ (c.target < 256 ∧ (H.boot.ready || H.boot.failed || H.sp.down) = false) then none else some h

/-- The meaning of an opcode: command `id` begins and executes whole (R426), `f` acting on the state with the command begun and the
half that executes it. -/
def opcode (op id tm : Nat) (f : State → Cmd → HalfId → State) (s : State) : Res :=
  let s := s.at tm
  match s.cmd id with
  | none => stay s
  | some c => match s.mayBegin c op with
    | none => stay s
    | some h => match s.gate c h with
      | some e => .next (s.finish id e.1 e.2 [])
      | none => .next (f (s.putCmd { c with begun := true }) c h)

/-- Completion with OK and a result, and with a status and detail. -/
def State.done (s : State) (c : Cmd) (result : Bytes) : State := s.finish c.id stOk 0 result
def State.fail (s : State) (c : Cmd) (status detail : Nat) : State := s.finish c.id status detail []
/-- The first check that fails, by the byte offset it gives as DETAIL. -/
def firstBad (l : List (Bool × Nat)) : Option Nat := (l.find? (fun p => !p.1)).map (·.2)
/-- Bytes that must be 0, from an offset on: one check for each. -/
def zeros (p : Bytes) (off n : Nat) : List (Bool × Nat) := (List.range n).map (fun i => (decide (leAt p (off + i) 1 = 0), off + i))
/-- A byte that names a half or a port. -/
def halfByte (p : Bytes) : List (Bool × Nat) := [(decide (leAt p 0 1 ≤ 1), 0)]
/-- A command whose parameters pass their checks acts; otherwise it completes with BAD_PARAM. -/
def State.checked (s : State) (c : Cmd) (l : List (Bool × Nat)) (f : State → State) : State :=
  match firstBad l with
  | some d => s.fail c stBadParam d
  | none => f s
/-- The state of a lane as LANE_QUERY gives it. -/
def phaseNo : LanePhase → Nat
  | .stopped => 0
  | .starting => 1
  | .running => 2
  | .paused => 3
  | .rolling => 4
/-- A refusal for the state of the target lane (R568). -/
def State.failLane (s : State) (c : Cmd) : State := s.fail c stBadState (phaseNo (s.lane c.target).phase)

end Sys2Proof.Machine
end

