-- ==== Sys2Proof/Machine/CmdLane.lean ====
section
/-! DEFINITION. The commands of the lane lifecycle (R37, R62, R63, R67, R68, R387, R392, R432 to R436). -/
namespace Sys2Proof.Machine
open Sys2Proof

/-- The ranges of the LANE_START block (R434 item 2), by offset. -/
def blockBad (b : Bytes) : Option Nat :=
  firstBad ([(decide (leAt b 0x04 1 ≤ 1), 0x04), (decide (1 ≤ leAt b 0x05 1) && decide (leAt b 0x05 1 ≤ 4), 0x05),
    (decide (leAt b 0x14 1 ≤ 16), 0x14), (decide (leAt b 0x16 2 ≤ 4095), 0x16),
    (decide (1024 ≤ leAt b 0x20 2) && decide (leAt b 0x20 2 ≤ 32768), 0x20),
    (decide (leAt b 0x23 1 % 4 ≠ 3) && decide (leAt b 0x23 1 < 8), 0x23)] ++ zeros b 0x34 4 ++
    [(decide (leAt b 0x38 8 < 2 ^ 40), 0x38)] ++ zeros b 0x41 7)

/-- Whether a title is ready and not unloading. -/
def Half.titleReady (H : Half) (id : Nat) : Option Title :=
  match Sparse.get noTitle H.titles id with
  | some t => if t.ready && !t.unloading then some t else none
  | none => none
def Half.titleCount (H : Half) : Nat := (H.titles.filter (fun p => p.2.isSome)).length
/-- What a half still has to load for a title (R387): bytes, and whether it takes a new entry. -/
def Half.toLoad (H P : Half) (id : Nat) : Nat × Bool :=
  match Sparse.get noTitle H.titles id with
  | some _ => (0, false)
  | none => match P.titleReady id with
    | some t => (t.data.length, true)
    | none => (0, false)

/-- The admission of a lane with block `b` at lane number `l` (R67, R68, R197, R279, R387, R391, R567): its seats, or DETAIL. -/
def State.admission (s : State) (l : Nat) (b : Bytes) (needs : List Nat) : Except Nat Seats :=
  let h := halfOf l
  let H := s.half h
  let P := s.half (HalfId.peer h)
  let i := l % 128
  let load := H.toLoad P (leAt b 0 4)
  if H.isRetired .nearSram i || H.isRetired .laneUnit (H.luOf h i - luBase h) then .error 567
  else if needs.any (fun k => decide (3 < k)) then .error 67
  else match H.seats needs with
    | none => .error 68
    | some z => match H.overFetch i b with
      | some d => .error d
      | none =>
        if H.poolFree < allocBytes b + load.1 then .error 387
        else if load.2 && decide (256 ≤ H.titleCount) then .error 391 else .ok z

/-- A lane unit as LANE_START sets it up (R8, R33 to R36, R66, R173, R236, R269). -/
def LaneUnit.ofBlock (b : Bytes) (tm : Timing) : LaneUnit :=
  let u : LaneUnit := { LaneUnit.reset with tm := tm }
  let c := putBits (putBits (putBits (putBits (putBits 0 0 1 (leAt b 4 1)) 8 5 (leAt b 0x14 1)) 16 12 (leAt b 0x16 2)) 32 4 (bDot b - 1)) 36 6 (bCpu b - 1)
  let u := ((((u.setReg 0x34000 c).setReg 0x34008 (synthOf (bLclk b))).setReg 0x34080 (w64 (leAt b 0x38 8))).setReg 0x21000 (w64 (bSnd b))).setReg
    0x210C0 (w64 (leAt b 0x1E 2))
  let r := ((u.ras.setReg 0 (rasTiming b)).setReg 0x18 (w64 (leAt b 0x1C 2))).setReg 0x10020 (putBits (u.ras.reg 0x10020) 8 8 (leAt b 0x15 1))
  { u with ras := r }
/-- A lane set up by its block, its threads admitted and none active (R435, R437: what the lane index held before is gone). -/
def Lane.ofBlock (b : Bytes) (z : Seats) (titleLen draws : Nat) : Lane :=
  let adm (m : Sparse Thread) (p : List Nat × Nat) : Sparse Thread :=
    Sparse.set threadInit m p.2 { Thread.init with admitted := true, slots := p.1.length }
  { Lane.absent with
    block := b, title := leAt b 0 4, titleLen := titleLen, core := z.core, det := decide (leAt b 4 1 % 2 = 1), prio := leAt b 0x40 1,
    ckptPages := leAt b 0x20 2, inputDelay := leAt b 0x22 1, unit := LaneUnit.ofBlock b (timingOf b 0 0 0 (bLl b, bLl b * bVtot b, bDot b)),
    op := { Operator.reset with act := Sparse.set laneReset [] 0x18000 (w64 (leAt b 0x23 1)), stage := Sparse.set laneReset [] 0x18000 (w64 (leAt b 0x23 1)) },
    th := z.pos.zipIdx.foldl adm [], draws := draws }
/-- A reference to the title taken (R392); where only the other half has it, its copy over Ford begins. -/
def State.takeTitle (s : State) (h : HalfId) (id : Nat) : State :=
  let H := s.half h
  let ts := match Sparse.get noTitle H.titles id with
    | some t => Sparse.set noTitle H.titles id (some { t with refs := t.refs + 1 })
    | none => match (s.half (HalfId.peer h)).titleReady id with
      | some t => Sparse.set noTitle H.titles id (some { t with ready := false, refs := 1, copying := true, bad := [] })
      | none => H.titles
  s.putHalf h { H with titles := ts }

/-- The beam at the frame boundary `f` from which the lane runs (R37, R394): the checkpoint of that boundary, and its milestone. -/
def State.firstBoundary (s : State) (l f : Nat) : State :=
  let L := s.lane l
  let caps := ([0, 1, 2, 3].filter (fun t => (L.thread t).active)).map (fun t => (f, t, { L.thread t with capVt := f }))
  let s := (s.putLane l { L with early := caps }).ckptAt l f
  let s := s.putNetLane l { s.netLane l with bframe := L.tm.frameAt f % 2 ^ 32, btime := s.time }
  s.putLane l (s.lane l).arrive
/-- The result of LANE_START (R432): the lane unit, the core, the slots of each thread, device time of VT 0. -/
def State.startResult (s : State) (l : Nat) : Bytes :=
  let L := s.lane l
  leBytes 2 ((s.half (halfOf l)).luOf (halfOf l) (l % 128)) ++ leBytes 1 L.core ++
    leBytes 1 (([0, 1, 2, 3].map (fun t => (L.thread t).slots % 4 * 4 ^ t)).foldl (· + ·) 0) ++ leBytes 4 0 ++ leBytes 8 s.time
/-- A lane whose title is there starts at VT 0 (R37): thread 0 at ENTRY; its LANE_START waits until that has issued (R434). -/
def State.launch (s : State) (l : Nat) : State :=
  let L := s.lane l
  let A : Lane := { L.startThread 0 0 with phase := .running, pauseCmds := [] }
  let s := (s.putLane l A).firstBoundary l 0
  let H := s.half (halfOf l)
  (s.putHalf (halfOf l) { H with issued := H.issued.filter (fun k => decide (k ≠ l)) }).putLane l
    { s.lane l with startCmd := L.pauseCmds.head?.map (fun id => (id, s.startResult l)) }
/-- A lane admitted (R392, R434): it takes its place, rid of viewers that have moved away from an earlier lane of its number (those that leave it stay for their second LEAVE, R346), its title reference and its network settings, and waits for its title. -/
def State.place (s : State) (l : Nat) (L : Lane) (z : Seats) : State :=
  let h := halfOf l
  let s := ((s.half h).viewersOf l).foldl (fun s p => if p.2.state = 3 then s else s.putHalf h ((s.half h).putViewer p.1 none)) (s.takeTitle h L.title)
  let s := ((s.putHalf h ((s.half h).seat l z)).putLane l { L with phase := .starting }).dropAllLines l
  (s.putNetLane l .reset).portEmpty h

/-- The title of a LANE_START (R392, R393): ready in the lane's half, or still to come from the other half. -/
def State.findTitle (s : State) (h : HalfId) (id : Nat) : Option (Title × Bool) :=
  match Sparse.get noTitle (s.half h).titles id with
  | some t => if t.unloading then none else if t.ready then some (t, true) else if t.copying then some (t, false) else none
  | none => ((s.half (HalfId.peer h)).titleReady id).map (fun t => (t, false))
/-- LANE_START (R433, R434). -/
def State.laneStart (s : State) (c : Cmd) : State :=
  let l := c.target
  let b := c.params
  let h := halfOf l
  let there := s.findTitle h (leAt b 0 4)
  if (s.lane l).phase ≠ .stopped then s.failLane c
  else match blockBad b with
    | some d => s.fail c stBadParam d
    | none => match badTiming b (leAt b 0x15 1) with
      | some d => s.fail c stBadTiming d
      | none => match there with
        | none => s.fail c stNotFound 0
        | some (t, here) => match s.admission l b (slotNeeds b) with
          | .error d => s.fail c stNoCapacity d
          | .ok z =>
            let L : Lane := { Lane.ofBlock b z t.data.length (s.lane l).draws with pauseCmds := [c.id] }
            let s := s.place l L z
            if here then s.launch l else s
/-- The lane whose launch command `id` has brought about, with its result (R434). -/
def State.startOf (s : State) (id : Nat) : Option (Nat × Bytes) :=
  match s.cmd id with
  | some c => ((s.lane c.target).startCmd.filter (fun p => decide (p.1 = id))).map (fun p => (c.target, p.2))
  | none => none
/-- LANE_START (R432 to R434): it begins, and, DESIGN CHOICE, given again it completes once the lane's thread 0 has issued at VT 0. -/
def execLaneStart (id tm : Nat) (s : State) : Res :=
  match s.startOf id with
  | none => opcode 0x0101 id tm (fun s c _ => s.laneStart c) s
  | some (l, r) =>
    let s := s.at tm
    if (s.half (halfOf l)).issued.contains l then .next ((s.putLane l { s.lane l with startCmd := none }).finish id stOk 0 r) else stay s

/-- Whether a command to a lane waits until its contexts have nothing outstanding (R94). -/
def State.stopWaits (s : State) (id : Nat) : Bool :=
  match s.cmd id with
  | some c => !(s.lane c.target).drained
  | none => false
/-- LANE_STOP (R94, R427, R435): it waits until the stores of the lane's contexts have left and their loads have returned. -/
def execLaneStop (id tm : Nat) (s : State) : Res :=
  if s.stopWaits id then stay (s.at tm)
  else opcode 0x0102 id tm (fun s c _ =>
    if (s.lane c.target).phase = .stopped then s.failLane c else (s.stopLane c.target (some c.id)).done c []) s

/-- LANE_PAUSE (R62, R435): a running lane pauses at its next frame boundary; one that the device holds paused counts as paused by
command from now on. -/
def State.lanePause (s : State) (c : Cmd) : State :=
  let l := c.target
  let L := s.lane l
  match L.phase with
  | .running | .rolling => s.putLane l { L with pauseDue := { L.pauseDue with command := true }, pauseCmds := L.pauseCmds ++ [c.id] }
  | .paused =>
    if L.pausedFor.command then s.failLane c
    else (s.putLane l { L with pausedFor := { L.pausedFor with command := true } }).done c (leBytes 4 L.frameNow)
  | .stopped | .starting => s.failLane c
def execLanePause (id tm : Nat) (s : State) : Res := opcode 0x0103 id tm (fun s c _ => s.lanePause c) s

/-- LANE_RESUME (R63, R435, R481, R568). -/
def State.laneResume (s : State) (c : Cmd) : State :=
  let l := c.target
  let L := s.lane l
  let w := L.pausedFor
  if L.phase = .paused ∧ w.ladder = true ∧ 3 ≤ (s.half (halfOf l)).mon.stage then s.fail c stBadState 3
  else if L.phase ≠ .paused ∨ w.fault = true ∨ w.test = true ∨ w.drain = true ∨ L.snap.isSome then s.failLane c
  else (s.resumeLane l 4).done c (leBytes 4 L.frameNow)
def execLaneResume (id tm : Nat) (s : State) : Res := opcode 0x0104 id tm (fun s c _ => s.laneResume c) s

/-- Whether a lane runs, is paused or rolls back. -/
def Lane.live (L : Lane) : Bool := decide (L.phase ≠ .stopped) && decide (L.phase ≠ .starting)
/-- LANE_NOTIFY (R378, R379, R436). -/
def State.laneNotify (s : State) (c : Cmd) : State :=
  let l := c.target
  let L := s.lane l
  if !L.live then s.failLane c
  else (s.logInput l L L.inputVt 7 0 c.params none).done c (leBytes 8 L.inputVt)
def execLaneNotify (id tm : Nat) (s : State) : Res := opcode 0x0105 id tm (fun s c _ => s.laneNotify c) s

/-- LANE_QUERY (R432). -/
def State.laneInfo (s : State) (l : Nat) : Bytes :=
  let L := s.lane l
  leBytes 1 (phaseNo L.phase) ++ [0, 0, 0] ++ leBytes 4 L.frameNow ++ leBytes 8 L.bvt ++ leBytes 4 ((s.half (halfOf l)).luMapReg (halfOf l) (l % 128))
def execLaneQuery (id tm : Nat) (s : State) : Res := opcode 0x0106 id tm (fun s c _ => s.done c (s.laneInfo c.target)) s

/-- TITLE_COPY_COMPLETE (R392): the copy over Ford is whole, and the lanes that wait for it start. -/
def execTitleCopyComplete (h : HalfId) (title : BitVec 32) (s : State) : Res :=
  let H := s.half h
  match Sparse.get noTitle H.titles title.toNat with
  | none => stay s
  | some t =>
    if !s.runs || !t.copying then stay s
    else
      let s := s.putHalf h { H with titles := Sparse.set noTitle H.titles title.toNat (some { t with copying := false, ready := true }) }
      let ls := (H.held.filter (fun p => decide (p.2.phase = .starting) && !p.2.pauseCmds.isEmpty && decide (p.2.title = title.toNat))).map (fun p => laneNo h p.1)
      .next (ls.foldl (fun s l => s.launch l) s)

end Sys2Proof.Machine
end

