-- ==== Sys2Proof/Machine/CmdViewer.lean ====
section
/-! DEFINITION. The commands of viewers (R318, R341, R346, R359 to R363, R367, R369, R372, R437). -/
namespace Sys2Proof.Machine
open Sys2Proof

/-- The device-wide number of viewer `v` of a half (R359). -/
def viewerNo (h : HalfId) (v : Nat) : Nat := v + 2048 * halfNo h
/-- The viewer that a device-wide number names, if it is a viewer of lane `l` that is not leaving. -/
def State.viewerAt (s : State) (l n : Nat) : Option (Nat × Viewer) :=
  let h := halfOf l
  if n / 2048 ≠ halfNo h then none
  else match (s.half h).viewer (n % 2048) with
    | some x => if x.lane = l ∧ x.state ≠ 3 then some (n % 2048, x) else none
    | none => none

/-- The ranges of the VIEWER_ADD block (R437), by offset. -/
def viewerBad (p : Bytes) (mode : Nat) : Option Nat :=
  firstBad ([(decide (leAt p 0x04 1 ≤ 4), 0x04), (decide (leAt p 0x05 1 < subPorts mode), 0x05), (decide (leAt p 0x06 1 ≤ 1), 0x06),
    (decide (leAt p 0x07 1 = 4) || decide (leAt p 0x07 1 = 6), 0x07), (decide (1024 ≤ leAt p 0x0C 2) && decide (leAt p 0x0C 2 ≤ 8192), 0x0C),
    (decide (leAt p 0x10 1 ≤ 3), 0x10), (decide (leAt p 0x10 1 ≤ leAt p 0x11 1) && decide (leAt p 0x11 1 ≤ 3), 0x11),
    (decide (leAt p 0x12 1 ≤ 1), 0x12), (decide (leAt p 0x13 1 ≤ 15), 0x13), (decide (leAt p 0x16 1 ≤ 63), 0x16), (decide (1 ≤ leAt p 0x17 1), 0x17),
    (decide (leAt p 0x1E 1 ≤ 1), 0x1E)] ++ zeros p 0x1F 1 ++ (if leAt p 0x06 1 = 0 then zeros p 0x30 16 else []))
/-- The flow that a block of R437 describes. -/
def flowOf (p : Bytes) (pmax : Nat) : Flow :=
  { id := leAt p 0 4, cipher := leAt p 6 1, key := slice p 0x20 32, epoch := 0, seq := 0, rx := .fresh, prev := none, bound := none,
    sub := leAt p 5 1, family := leAt p 7 1, srcIdx := leAt p 0x13 1, vlan := leAt p 0x14 2, dscp := leAt p 0x16 1, ttl := leAt p 0x17 1,
    dmac := slice p 0x18 6, pmaxCmd := pmax, pmax := pmax }
/-- A viewer as VIEWER_ADD adds it (R361, R367, R437). -/
def viewerOf (p : Bytes) (l time : Nat) : Viewer :=
  { flow := flowOf p (leAt p 0x0C 2), player := decide (leAt p 4 1 < 4), slot := leAt p 4 1 % 4, lane := l, budget := leAt p 8 4,
    lmin := leAt p 0x10 1, lmax := leAt p 0x11 1, halfOk := decide (leAt p 0x12 1 = 1), pace := leAt p 0x0E 2, moved := decide (leAt p 0x1E 1 = 1),
    state := 0, level := leAt p 0x10 1, half := false, rtt := none, t := 0, dropCount := 0, shown := 0, drops := [], clean := 0, stepDue := false,
    wasAbove := false, selects := false, setDue := none, keyref := 0, keyForm := none, keyDue := [], keyOpen := false, keyReason := 0,
    keySent := none, keyCmds := [], blocks := [], items := [], bucket := 16384 * 8000, bucketAt := time, lastRx := time, joinAt := none,
    timingAt := 0, sent := [], accepted := [], slotJoined := false, rep := .none }

/-- The line rate of a sub-port in bit/s (R357). -/
def lineRate (mode : Nat) : Nat := match mode with | 1 => 200000000000 | 2 => 100000000000 | _ => 400000000000
/-- The budget that a viewer will have (R360, R437). -/
def Viewer.budgetNext (x : Viewer) : Nat := match x.setDue with | some d => d.budget.getD x.budget | none => x.budget
/-- Whether a budget of `b` for a viewer of lane `l` (numbered `except` where it has one) overfills sub-port `k` (R360). -/
def State.overBudget (s : State) (l k b : Nat) (except : Option Nat) : Bool :=
  let H := s.half (halfOf l)
  let rate (l b : Nat) : Rat := ((8 * b : Nat) : Rat) * bRate (s.lane l).block
  let sum := H.net.viewers.foldl (fun a p => match p.2 with
    | some x => if x.flow.sub = k ∧ some p.1 ≠ except then a + rate x.lane x.budgetNext else a
    | none => a) (rate l b)
  decide (((9 * lineRate H.net.mode / 10 : Nat) : Rat) < sum)
/-- The lowest free entry of the viewer table (R359; the choice is the model's). -/
def Half.freeViewer (H : Half) : Option Nat := (List.range 2048).find? (fun v => (H.viewer v).isNone)

/-- VIEWER_ADD (R360, R361, R367, R372, R437), its refusals for a state in the order of R568. -/
def State.viewerAdd (s : State) (c : Cmd) (h : HalfId) : State :=
  let l := c.target
  let p := c.params
  let H := s.half h
  let L := s.lane l
  match viewerBad p H.net.mode with
  | some d => s.fail c stBadParam d
  | none =>
    let x := viewerOf p l s.time
    if (H.holder x.flow.id).isSome then s.fail c stBadState 0x0201
    else if H.net.drain then s.fail c stBadState 0x0202
    else if L.phase ≠ .running ∧ L.phase ≠ .paused then s.failLane c
    else match H.freeViewer with
      | none => s.fail c stNoCapacity 360
      | some v =>
        let vs := H.viewersOf l
        if 32 ≤ vs.length ∨ (x.player ∧ vs.any (fun q => q.2.player && decide (q.2.slot = x.slot)) = true) ∨ s.overBudget l x.flow.sub x.budget none = true then
          s.fail c stNoCapacity 360
        else
          let s := s.putHalf h (H.putViewer v (some { x with t := s.beff h x }))
          let A := { s.lane l with lastAcc := Sparse.set accZero (s.lane l).lastAcc v (accZero v) }
          let s := s.putLane l (if x.player then A.mapVoice x.slot (fun _ => voiceDecReset 0) else A)
          let n := s.netLane l
          let s := if x.player ∧ x.slot = 0 ∧ n.pen = false ∧ n.pacerByCmd = false then s.putNetLane l { n with pacer := v, pen := true } else s
          s.done c (leBytes 2 (viewerNo h v) ++ [0, 0])
def execViewerAdd (id tm : Nat) (s : State) : Res := opcode 0x0201 id tm (fun s c h => s.viewerAdd c h) s

/-- A command on one viewer of the lane, named at the start of the parameters: NOT_FOUND where there is none. -/
def State.onViewer (s : State) (c : Cmd) (l : List (Bool × Nat)) (f : State → Nat → Viewer → State) : State :=
  s.checked c l (fun s => match s.viewerAt c.target (leAt c.params 0 2) with
    | some q => f s q.1 q.2
    | none => s.fail c stNotFound 0)

/-- VIEWER_REMOVE (R346, R362). -/
def execViewerRemove (id tm : Nat) (s : State) : Res :=
  opcode 0x0202 id tm (fun s c h => s.onViewer c (zeros c.params 2 2) (fun s v x =>
    (s.sentBy h v (x.leave h s.time (s.lane x.lane).frameNow 1)).done c [])) s

/-- VIEWER_SET (R360, R369, R437): it waits for the lane's next frame boundary. -/
def State.viewerSet (s : State) (c : Cmd) (h : HalfId) : State :=
  let p := c.params
  let m := leAt p 2 2
  let lv := !m.testBit 1 || (decide (leAt p 10 1 ≤ leAt p 11 1) && decide (leAt p 11 1 ≤ 3))
  s.onViewer c ([(decide (m < 16), 2), (!m.testBit 1 || decide (leAt p 10 1 ≤ 3), 10), (lv, 11), (!m.testBit 2 || decide (leAt p 12 1 ≤ 1), 12)] ++ zeros p 13 3)
    (fun s v x =>
      if m.testBit 0 && s.overBudget c.target x.flow.sub (leAt p 4 4) (some v) then s.fail c stNoCapacity 360
      else
        let o : ViewerSet := x.setDue.getD { budget := none, levels := none, halfOk := none, pace := none }
        let d : ViewerSet :=
          { budget := if m.testBit 0 then some (leAt p 4 4) else o.budget, levels := if m.testBit 1 then some (leAt p 10 1, leAt p 11 1) else o.levels,
            halfOk := if m.testBit 2 then some (decide (leAt p 12 1 = 1)) else o.halfOk, pace := if m.testBit 3 then some (leAt p 8 2) else o.pace }
        (s.putHalf h ((s.half h).putViewer v (some { x with setDue := some d }))).done c [])
def execViewerSet (id tm : Nat) (s : State) : Res := opcode 0x0203 id tm (fun s c h => s.viewerSet c h) s

/-- VIEWER_REKEY (R318); the voice packets of a player keep their order (R310). -/
def execViewerRekey (id tm : Nat) (s : State) : Res :=
  opcode 0x0204 id tm (fun s c h => s.onViewer c (zeros c.params 2 2) (fun s v x =>
    let f := x.flow.rekey (slice c.params 4 32) s.time
    let s := if x.player then s.putLane x.lane ((s.lane x.lane).mapVoice x.slot VoiceDec.newEpoch) else s
    (s.putHalf h ((s.half h).putViewer v (some { x with flow := f }))).done c (leBytes 1 f.epoch ++ [0, 0, 0]))) s

/-- The viewers that VIEWER_KEYFRAME lists: none where one of them does not exist. -/
def State.listed (s : State) (l : Nat) (p : Bytes) : Option (List Nat) :=
  let ns := (List.range (leAt p 0 1)).map (fun i => leAt p (2 + 2 * i) 2)
  if ns.all (fun n => decide (n = 0xFFFF) || (s.viewerAt l n).isSome) then
    some (ns.flatMap (fun n => if n = 0xFFFF then ((s.half (halfOf l)).viewersOf l).map (·.1) else [n % 2048])).eraseDups
  else none
/-- VIEWER_KEYFRAME (R341, R437): it waits for the listed viewers in state 1; its parameters hold its result so far. -/
def State.viewerKeyframe (s : State) (c : Cmd) (h : HalfId) : State :=
  s.checked c [(decide (1 ≤ leAt c.params 0 1) && decide (leAt c.params 0 1 ≤ 32), 0), (decide (leAt c.params 1 1 = 0), 1)] (fun s =>
    match s.listed c.target c.params with
    | none => s.fail c stNotFound 0
    | some vs =>
      let on := vs.filter (fun v => match (s.half h).viewer v with | some x => decide (x.state = 1) | none => false)
      let mark (s : State) (v : Nat) : State := s.mapViewer h v (fun x =>
        if x.state = 1 then { x with keyDue := x.keyDue ++ [3], keyCmds := x.keyCmds ++ [(c.id, decide (on.head? = some v))] }
        else { x with keyDue := x.keyDue ++ [3] })
      let s := vs.foldl mark (s.putCmd { c with begun := true, params := leBytes 4 0xFFFFFFFF })
      if on.isEmpty then s.done c (leBytes 4 0xFFFFFFFF) else s)
def execViewerKeyframe (id tm : Nat) (s : State) : Res := opcode 0x0205 id tm (fun s c h => s.viewerKeyframe c h) s

/-- LANE_PACER (R372, R375). -/
def State.lanePacer (s : State) (c : Cmd) : State :=
  let l := c.target
  s.onViewer c [(decide (leAt c.params 2 1 ≤ 1), 2), (decide (leAt c.params 3 1 = 0), 3)] (fun s v _ =>
    let n := s.netLane l
    let on := decide (leAt c.params 2 1 = 1)
    let s := s.putNetLane l { n with pacer := v, pen := on, pacerByCmd := true }
    (if !on || decide (n.pacer ≠ v) || !n.pen then s.unlock l else s).done c [])
def execLanePacer (id tm : Nat) (s : State) : Res := opcode 0x0206 id tm (fun s c _ => s.lanePacer c) s

end Sys2Proof.Machine
end

