-- ==== Sys2Proof/Machine/CmdTiming.lean ====
section
/-! DEFINITION. The commands of timing, compositor and audio routes (R230, R240, R249, R300 to R305, R377, R434, R438, R439). -/
namespace Sys2Proof.Machine
open Sys2Proof

/-- The frame boundary to which a command accepted now binds (R240, R377, R438), in the timing that a change bound before it leaves in
force there, and the frame that it begins. -/
def Lane.bindAt (L : Lane) : Nat × Nat :=
  let x := L.acceptVt + (L.runahead + 1) * L.tm.ll
  match L.newTiming with
  | some (f, d) =>
    let t := timingOf (blockTiming L.block d) f (L.tm.frameAt f) (L.tm.milIndex f) L.tm.periods
    if f ≤ x then (let g := if t.boundary x = x then x else t.nextBoundary x
                   (g, t.frameAt g))
    else let g := L.tm.bindBoundary L.acceptVt L.runahead
         (g, L.tm.frameAt g)
  | none =>
    let g := L.tm.bindBoundary L.acceptVt L.runahead
    (g, L.tm.frameAt g)
/-- A command bound to its boundary as an input of the lane (R401, R427): it completes when that has applied. -/
def State.bind (s : State) (c : Cmd) (kind slot : Nat) (data : Bytes) : State :=
  let l := c.target
  let g := (s.lane l).bindAt
  if c.flags.testBit 2 && serialBefore c.deadline (g.2 % 2 ^ 32) then s.fail c stDroppedLate 0
  else s.logInput l (s.lane l) g.1 kind slot data (some c.id)

/-- TIMING_SET (R377, R434). -/
def State.timingSet (s : State) (c : Cmd) (h : HalfId) : State :=
  let L := s.lane c.target
  let p := c.params
  if !L.live then s.failLane c
  else s.checked c (zeros p 0 6 ++ zeros p 0x14 4 ++ zeros p 0x1C 4) (fun s =>
    let b := blockTiming L.block p
    match badTiming b (leAt L.block 0x15 1) with
    | some d => s.fail c stBadTiming d
    | none => match (s.half h).overFetch (c.target % 128) b with
      | some d => s.fail c stNoCapacity d
      | none => s.bind c 6 0 p)
def execTimingSet (id tm : Nat) (s : State) : Res := opcode 0x0301 id tm (fun s c h => s.timingSet c h) s

/-- LANE_TUNE (R438). -/
def State.laneTune (s : State) (c : Cmd) : State :=
  let p := c.params
  let m := leAt p 0 1
  s.checked c [(decide (m < 16), 0), (!m.testBit 0 || decide (leAt p 1 1 ≤ 16), 1), (!m.testBit 1 || decide (leAt p 2 2 ≤ 4095), 2),
      (decide (leAt p 5 1 = 0), 5)] (fun s =>
    if !(s.lane c.target).live then s.failLane c else s.bind c 6 1 p)
def execLaneTune (id tm : Nat) (s : State) : Res := opcode 0x0302 id tm (fun s c _ => s.laneTune c) s

/-- OV_LOAD (R230, R438): it waits while the display copy is copied back into staging. -/
def execOvLoad (id tm : Nat) (s : State) : Res :=
  let wait := match s.cmd id with | some c => decide (c.target < 256) && (s.lane c.target).op.copying | none => false
  if wait then stay (s.at tm)
  else opcode 0x0303 id tm (fun s c _ =>
    let p := c.params
    let o := leAt p 0 4
    let n := leAt p 4 2
    s.checked c [(decide (o + n ≤ 131072), 0), (decide (1 ≤ n) && decide (n ≤ 4088), 4), (decide (leAt p 6 2 = 0), 6)] (fun s =>
      let L := s.lane c.target
      (s.putLane c.target { L with op := { L.op with staging := L.op.staging.writeBytes o (slice p 8 n) } }).done c [])) s

/-- The settable bits of an operator register (R254): none for an offset without one and for the registers that the device sets. -/
def operatorMask (off : Nat) : Option Word :=
  match findReg operatorMap off with
  | none => none
  | some _ =>
    if deviceSet.contains off then none
    else if off = 0x18000 then some 7
    else if off < 0x18018 then some 0xFF01
    else if off = 0x18018 then some 0xFFFF
    else if off < 0x18400 then some (if off % 16 = 0 then 0x8FFF0FFF1FFF1FFF else 0xFFFF003FFFF1FFFF)
    else if off < 0x18420 then some 0xDFFF1FFF1FFF1FFF
    else if off < 0x18430 then some ones32
    else if off = 0x18800 then some 0xFFFFFFFFFFFFF0F3
    else some ones32
/-- Whether an OP_SET entry may be kept (R438). -/
def opEntryOk (e : Bytes) : Bool :=
  let off := 0x10000 + leAt e 0 2
  decide (0x8000 ≤ leAt e 0 2) && decide (leAt e 0 2 ≤ 0x9FFF) && (operatorMask off).isSome &&
    (List.range 6).all (fun i => decide (leAt e (2 + i) 1 = 0)) && (decide (off ≠ 0x18000) || (decide (leAt e 8 8 % 4 ≠ 3) && decide (leAt e 8 8 < 8)))
/-- OP_SET (R438): the staging state, in list order. -/
def State.opSet (s : State) (c : Cmd) : State :=
  let p := c.params
  let n := leAt p 0 2
  let es := (List.range n).map (fun i => slice p (8 + 16 * i) 16)
  s.checked c ([(decide (1 ≤ n) && decide (n ≤ 255), 0)] ++ zeros p 2 6) (fun s =>
    match es.findIdx? (fun e => !opEntryOk e) with
    | some i => s.fail c stBadParam i
    | none =>
      let L := s.lane c.target
      let put (m : Sparse Word) (e : Bytes) : Sparse Word :=
        let off := 0x10000 + leAt e 0 2
        Sparse.set laneReset m off (w64 (leAt e 8 8) &&& (operatorMask off).getD 0)
      (s.putLane c.target { L with op := { L.op with stage := es.foldl put L.op.stage } }).done c [])
def execOpSet (id tm : Nat) (s : State) : Res := opcode 0x0304 id tm (fun s c _ => s.opSet c) s

/-- The traffic of a tap in bytes per second: its slot size and the frame rate (R249). -/
def tapTraffic (ctl : Word) (b : Bytes) : Rat := if bit ctl 0 then ((bits ctl 48 16 * 4096 : Nat) : Rat) * bRate b else 0
/-- OP_COMMIT (R240, R249): the staged CPS_TAP_CTL counts. -/
def State.opCommit (s : State) (c : Cmd) (h : HalfId) : State :=
  let L := s.lane c.target
  let tap := Sparse.get laneReset L.op.stage 0x18800
  let others := (s.half h).held.foldl (fun x p => if p.1 = c.target % 128 then x
    else x + tapTraffic (Sparse.get laneReset p.2.op.act 0x18800) p.2.block) (0 : Rat)
  if !L.live then s.failLane c
  else if bit tap 0 ∧ 128000000000 < others + tapTraffic tap L.block then s.fail c stNoCapacity 249
  else
    let n := L.opRecords.length + (L.inputs.filter (fun i => decide (i.kind = 5) && !i.applied && decide (L.opRecords.length ≤ leAt i.data 0 4))).length
    s.bind c 5 0 (leBytes 4 n)
def execOpCommit (id tm : Nat) (s : State) : Res := opcode 0x0305 id tm (fun s c h => s.opCommit c h) s

/-- The checks of XPT_SET: reserved bytes, and the fields of the registers that the mask selects. -/
def xptChecks (p : Bytes) : List (Bool × Nat) :=
  let m := leAt p 0 2
  let out (o : Nat) : Bool :=
    let v := leAt p (56 + 4 * o) 4
    !m.testBit (8 + o) || (decide (48 ≤ v / 2 ^ 16 % 512) && decide (v / 2 ^ 16 % 512 ≤ 256))
  let f := leAt p 80 4 % 2 ^ 15
  [(decide (m &&& 0x40C0 = 0), 0)] ++ zeros p 2 6 ++ (List.range 6).map (fun o => (out o, 56 + 4 * o)) ++
    [(!m.testBit 15 || (decide (20 ≤ f) && decide (f ≤ 20000)), 80)] ++ zeros p 84 4
/-- XPT_SET (R300, R302, R303, R438): N, and ENC of output 5, are not written. -/
def State.xptSet (s : State) (c : Cmd) : State :=
  let p := c.params
  let m := leAt p 0 2
  s.checked c (xptChecks p) (fun s =>
    let row (L : Lane) (o : Nat) : Lane :=
      if m.testBit o then
        let v := w64 (leAt p (8 + 8 * o) 8)
        { L.setReg (0x38000 + 8 * o) v with audio := L.audio.setRow o v }
      else L
    let out (L : Lane) (o : Nat) : Lane :=
      if m.testBit (8 + o) then L.setReg (0x38040 + 4 * o) (w64 (leAt p (56 + 4 * o) 4) &&& (if o = 5 then 0x01FF0003 else 0x01FF0007)) else L
    let L := (List.range 6).foldl out ((List.range 6).foldl row (s.lane c.target))
    let L := if m.testBit 15 then { L.setReg 0x38078 (w64 (leAt p 80 4) &&& 0xFF7FFF) with audio := { L.audio with toneN := 0 } } else L
    (s.putLane c.target L).done c [])
def execXptSet (id tm : Nat) (s : State) : Res := opcode 0x0306 id tm (fun s c _ => s.xptSet c) s

/-- ANNOUNCE_RING (R439). -/
def execAnnounceRing (id tm : Nat) (s : State) : Res :=
  opcode 0x0307 id tm (fun s c _ =>
    let p := c.params
    let n := leAt p 8 4
    s.checked c ([(decide (n % 4096 = 0) && decide (n ≤ 2 ^ 24), 8)] ++ zeros p 12 4) (fun s =>
      let L := s.lane c.target
      let a : Announce := { on := decide (n ≠ 0), addr := leAt p 0 8, size := n, rd := 0, queue := [] }
      (s.putLane c.target { L with audio := { L.audio with ann := a } }).done c [])) s

end Sys2Proof.Machine
end

