-- ==== Sys2Proof/Machine/Access.lean ====
section
/-! DEFINITION. The checks of a load, a store or an atomic operation (R65, R95, R119, R121, R123, R136), the turn of an AMO (R124), and the
waits that keep a ready instruction from issuing (R32, R82, R90, R93, R97, R103). -/
namespace Sys2Proof.Machine
open Sys2Proof

/-- Whether an access of `n` bytes at offset `off` of the register windows reaches a register at the wrong width or
alignment (R121). -/
def regMisfit (off n : Nat) : Bool :=
  touchesReg threadMap off n && !(match findReg threadMap off with
    | some (d, _) => decide (d.width = n)
    | none => false)

/-- The offset of a lane address in the register windows (R64). -/
def regOff (a : Nat) : Nat := a - 0xF0000000

/-- The access fault of a game thread's load or store of `n` bytes at `a` (R65, R119, R121, R135). -/
def accessDetail (titleLen : Nat) (isStore : Bool) (a n : Nat) : Option Nat :=
  match windowOf a with
  | .outside => some 0
  | .title => if isStore then some 1 else if 0x40000000 + titleLen < a + n then some 2 else none
  | .regs => if regMisfit (regOff a) n then some 3 else none
  | .near | .work | .video => none
/-- What a game thread's load of `n` bytes at `a` raises (R95, R136). -/
def loadFault (titleLen : Nat) (a : Word) (n : Nat) : Option Cause :=
  if a.toNat % n ≠ 0 then some (.loadAlign a)
  else (accessDetail titleLen false a.toNat n).map (fun d => .loadAccess a d false)
/-- What a game thread's store raises. -/
def storeFault (titleLen : Nat) (a : Word) (n : Nat) : Option Cause :=
  if a.toNat % n ≠ 0 then some (.storeAlign a)
  else (accessDetail titleLen true a.toNat n).map (fun d => .storeAccess a d false)
/-- The access fault of a system thread's load or store of `n` bytes at `a`, and whether it is that of the second half of a split one: the first
half that fails (R97, R135). DESIGN CHOICE: both halves of a load are checked, like those of a store, before either is requested; its destination
keeps its value. -/
def sysFault (store : Bool) (a n : Nat) : Option (Nat × Bool) :=
  match splitAt a n with
  | p :: q :: _ => match Config.sysDetail store p.1 p.2 with
    | some d => some (d, false)
    | none => (Config.sysDetail store (q.1 % 2 ^ 64) q.2).map (fun d => (d, true))
  | [p] => (Config.sysDetail store p.1 p.2).map (fun d => (d, false))
  | [] => none
/-- What an AMO at `a` raises (R123). -/
def amoFault (sys : Bool) (a : Word) (n : Nat) : Option Cause :=
  if a.toNat % n ≠ 0 then some (.storeAlign a)
  else if sys then (Config.sysDetail true a.toNat n).map (fun d => .storeAccess a d false)
  else match windowOf a.toNat with
    | .outside => some (.storeAccess a 0 false)
    | .title | .regs => some (.storeAccess a 5 false)
    | .near | .work | .video => none

/-- Whether a load that has not read memory yet reads `n` bytes at `a`, so that a younger store of its context there waits (R91). -/
def Thread.unread (t : Thread) (a n : Nat) : Bool :=
  t.loads.any (fun p => !p.beam && p.reply.isNone && decide (p.wait = 0) && overlaps a n p.addr (loadWidth p.fn))

/-- Whether an AMO of thread `t` may read at its VT (R124): every lower-indexed active thread is above it, every other at
or above it, and the blitter's and the echo's stores up to it are in memory (R49, R263, R280). DESIGN CHOICE: a waiting thread counts at
BVT, as it does for the lane floor (R38); R124 does not say. -/
def Lane.amoTurn (L : Lane) (t : Nat) : Bool :=
  let v := (L.thread t).vt
  !L.det || (L.unitsThrough v && (List.range 4).all (fun u =>
    decide (u = t) || !(L.thread u).active || L.reached u (if u < t then v + 1 else v)))

/-- Whether the next instruction `i` of thread `t` of a lane waits where it could issue otherwise: a store to the beam side while the beam-write
queue is full (R32), an AMO for its turn (R124), for its store buffer and for a checkpoint, MBAR and ISYNC for what they wait for (R82, R93). -/
def Lane.holds (L : Lane) (t : Nat) (i : NInstr) : Bool :=
  let x := L.thread t
  match i with
  | .store fn _ base off =>
    let a := effAddr (x.gReg base) off
    (storeFault L.titleLen a (storeWidth fn)).isNone && decide (windowOf a.toNat = .regs) && decide (64 ≤ L.queue.length)
  | .amo _ w32 _ ra _ _ =>
    let a := x.gReg ra
    let n := if w32 then 4 else 8
    (amoFault false a n).isNone && (!x.sb.isEmpty || !L.amoTurn t || L.ckptHold x.vt a.toNat n || (!L.det && x.unread a.toNat n))
  | .mbar => !(x.sb.isEmpty && x.loads.isEmpty)
  | .isync => !x.sb.isEmpty
  | _ => false
/-- The same for a system thread: each half of a store needs an entry of the store buffer (R97). -/
def Thread.holds (x : Thread) (i : NInstr) : Bool :=
  match i with
  | .store fn _ base off => decide (8 < x.sb.length + (splitAt (effAddr (x.gReg base) off).toNat (storeWidth fn)).length)
  | .amo _ w32 _ ra _ _ =>
    (amoFault true (x.gReg ra) (if w32 then 4 else 8)).isNone && (!x.sb.isEmpty || x.unread (x.gReg ra).toNat (if w32 then 4 else 8))
  | .mbar => !(x.sb.isEmpty && x.loads.isEmpty)
  | .isync => !x.sb.isEmpty
  | _ => false
/-- Whether a system thread's next instruction waits for stores that it has buffered (R66, R76, R97). -/
def Thread.sysHeld (x : Thread) : Bool :=
  match x.word.bind ndecode with
  | some i => (match i with
    | .store _ _ _ _ => decide (8 ≤ x.sb.length) || x.holds i
    | .mbar | .isync | .amo _ _ _ _ _ _ => !x.sb.isEmpty
    | _ => false)
  | none => false

end Sys2Proof.Machine
end

