-- ==== Sys2Proof/Machine/Issue.lean ====
section
/-! DEFINITION. The issue of an instruction by a thread context: the holds of R40, R50, R62, R76, R83, R98 and R99, the
taking of an exception (R102, R137), a thread trap (R139), and what follows from it. -/
namespace Sys2Proof.Machine
open Sys2Proof

/-- Whether the numbers of a context exist (R13, R71). -/
def ctxOk : Ctx → Bool
  | .game l t => decide (l < 256) && decide (t < 4)
  | .sys _ c x => decide (c < 16) && (decide (x = 14) || decide (x = 15))

/-- The thread of a context. -/
def State.thread (s : State) : Ctx → Thread
  | .game l t => (s.lane l).thread t
  | .sys h c x => Sparse.get sysReset (s.half h).sys (16 * c + x)
/-- The state with the thread of a context replaced. -/
def State.putThread (s : State) (c : Ctx) (x : Thread) : State :=
  match c with
  | .game l t => s.putLane l ((s.lane l).setThread t x)
  | .sys h k y => s.putHalf h { s.half h with sys := Sparse.set sysReset (s.half h).sys (16 * k + y) x }

/-- `n` bytes at `a` as a system thread loads them: memory under its own buffered stores (R91, R93). -/
def sysRead (H : Half) (x : Thread) (a n : Nat) : Bytes :=
  let es := x.sb.map (fun e => ({ stamp := 0, rank := 0, addr := e.addr, data := e.data, gated := false } : LogStore))
  (List.range n).map (fun i => lastByte es ((a + i) % 2 ^ 64) (H.sysMem.read ((a + i) % 2 ^ 64)))

/-- What thread `t` of a lane knows of its place, its vector read at VT `v` (R137). -/
def laneEnv (L : Lane) (title : Bytes) (t v : Nat) : CoreEnv :=
  { sys := false, det := L.det, idx := t, cpu := L.cpu, bvt := L.bvt, titleLen := L.titleLen,
    vector := fun a => L.read title t v a 8 }
/-- The place of a context (R71, R133); an entry at its VT reads the vector 3 virtual cycles later. -/
def State.env (s : State) : Ctx → CoreEnv
  | .game l t => laneEnv (s.lane l) (s.title l) t (((s.lane l).thread t).vt + 3 * (s.lane l).cpu)
  | .sys h c x =>
    { sys := true, det := false, idx := x, cpu := 1, bvt := 0, titleLen := 0,
      vector := fun a => sysRead (s.half h) (Sparse.get sysReset (s.half h).sys (16 * c + x)) a 8 }

/-- The VT at which the next instruction of thread `t` issues: its own, or BVT in normal mode (R61). -/
def Lane.issueVt (L : Lane) (t : Nat) : Nat := if L.det then (L.thread t).vt else L.bvt
/-- Whether thread `t` may issue as far as a stop that the lane waits for goes (R94, R139). DESIGN CHOICE: a context with nothing outstanding goes on
while another, whose load may need it to advance, has something; the rules name only the wait. -/
def Lane.goesOn (L : Lane) (t : Nat) : Bool := !L.stopping || ((L.thread t).sb.isEmpty && (L.thread t).loads.isEmpty && !L.drained)
/-- Whether an interrupt is due for thread `t` at VT `p` (R147, R148). -/
def Lane.due (L : Lane) (t p : Nat) : Bool :=
  if L.det then L.dueAhead t p else (L.thread t).ie && (L.unit.lic.take t p (2 * L.cpu) (L.thread t).level).isSome

/-- Whether the lane lets thread `t` issue (R40, R50, R53, R62, R86, R98, R99, R395): it runs, or is paused with the
thread still below the boundary; every event at or below the thread's VT is fixed, none is due, no divide and no entry is in
progress. -/
def Lane.issueOk (L : Lane) (t : Nat) : Bool :=
  let p := L.issueVt t
  (decide (L.phase = .running) || (decide (L.phase = .paused) && L.det && decide (p < L.bvt))) &&
    L.goesOn t && L.vtCan t && (!L.det || L.licFixed t p) && !L.due t p && !(L.thread t).dividing && (L.thread t).entering.isNone

/-- Whether a context may issue as far as its lane goes; a system thread depends on its half (R453, R482, R498). -/
def State.mayIssue (s : State) : Ctx → Bool
  | .game l t => !s.thermtrip && (s.lane l).issueOk t && (s.lane l).codeFresh (s.title l) t &&
      executable ((s.lane l).thread t).pc.toNat (s.lane l).titleLen
  | .sys h _ _ => s.powered && !s.inReset && !s.thermtrip && !(s.half h).sp.down

/-- A context follows virtual time. -/
def State.isDet (s : State) : Ctx → Bool
  | .game l _ => (s.lane l).det
  | .sys _ _ _ => false
/-- The half, the logical core and the number of the context that holds a thread (R71, R72). -/
def State.placeOf (s : State) : Ctx → Option (HalfId × Nat × Nat)
  | .game l t => ((s.half (halfOf l)).ctxs.find? (fun p => decide (p.2 = 4 * l + t + 1))).map (fun p => (halfOf l, p.1 / 16, p.1 % 16))
  | .sys h k x => some (h, k, x)
/-- The thread in context `x` of a core. -/
def State.ctxAt (s : State) (h : HalfId) (k x : Nat) : Option Ctx :=
  if 14 ≤ x then some (.sys h k x)
  else
    let v := Sparse.get zeroNat (s.half h).ctxs (16 * k + x)
    if v = 0 then none else some (.game ((v - 1) / 4) ((v - 1) % 4))

/-- How many operations a kind of unit of the core of a context has in progress (R85). -/
def State.unitUse (s : State) (c : Ctx) (u : PipeUnit) : Nat :=
  let mates := match s.placeOf c with
    | some (h, k, _) => (List.range 16).filterMap (s.ctxAt h k)
    | none => [c]
  (mates.map (fun d => ((s.thread d).units.filter (fun p => decide (p.unit = u))).length)).sum
/-- Whether the unit that an instruction needs can accept it (R76, R85): a core has two integer dividers and one unit for FP divide and
square root, none of them pipelined. -/
def State.unitFree (s : State) (c : Ctx) : NInstr → Bool
  | .div _ _ _ _ _ => decide (s.unitUse c .divider < 2)
  | .fp _ .fdiv _ _ _ _ | .fp _ .fsqrt _ _ _ _ => decide (s.unitUse c .fpIter < 1)
  | _ => true

/-- Whether a context issues instruction `i` next (R76). -/
def State.issues (s : State) (c : Ctx) (i : NInstr) : Bool := s.mayIssue c && (s.thread c).ready i && s.unitFree c i
/-- Whether a context's instruction waits where it could issue otherwise (R76, R103). -/
def State.holds (s : State) (c : Ctx) (i : NInstr) : Bool :=
  match c with
  | .game l t => (s.lane l).holds t i
  | .sys _ _ _ => (s.thread c).holds i
/-- Whether a context is ready: it can issue its next instruction (R76). -/
def State.canIssue (s : State) (c : Ctx) : Bool :=
  match (s.thread c).word.bind ndecode with
  | some i => s.issues c i && !s.holds c i
  | none => false

/-- Whether a context is a normal-mode game context of a half at ladder stage 1 or above (R479). -/
def State.cooled (s : State) (h : HalfId) : Ctx → Bool
  | .game l _ => !(s.lane l).det && decide (1 ≤ (s.half h).mon.stage)
  | .sys _ _ _ => false
/-- Whether the owner of position `p` of a core is the thread of context `x`, and the position is one in which it issues: from ladder stage 1 on
the first it owns, for a normal-mode game context (R76, R479). -/
def State.owns (s : State) (c : Ctx) (h : HalfId) (k x p : Nat) : Bool :=
  let mine (p : Nat) : Bool := decide (Sparse.get slotReset (s.half h).slots (16 * k + p) = x + 1)
  mine p && (!s.cooled h c || !(List.range p).any mine)

/-- The context to which a core lends a position (R77): of the ready system contexts and the ready normal-mode contexts the first in
round-robin order from the one after the context that last borrowed, a system context with a pending interrupt before the others; whether
it has one is a free choice, the controller of the system threads being none of the manual's. DESIGN CHOICE: before any context of a core has
borrowed the order starts at context 0; R77 does not say. -/
def State.borrower (s : State) (h : HalfId) (k : Nat) : Option Nat :=
  let b := Sparse.get zeroNat (s.half h).borrowed k
  let ready := ((List.range 16).map (fun j => (b + j) % 16)).filter (fun x => match s.ctxAt h k x with
    | some c => !s.isDet c && !s.cooled h c && s.canIssue c
    | none => false)
  match ready.find? (fun x => decide (14 ≤ x) && Config.sysPends (halfDraw h (s.half h)) (16 * k + x)) with
  | some x => some x
  | none => ready.head?
/-- Whether the thread of context `x` issues in position `p` of its core (R76 to R78): in its own, or, lent, in one whose owner does not
issue; the answer says whether it is lent. -/
def State.takes (s : State) (c : Ctx) (h : HalfId) (k x p : Nat) : Option Bool :=
  let o := Sparse.get slotReset (s.half h).slots (16 * k + p)
  if s.owns c h k x p then some false
  else if s.isDet c || s.cooled h c then none
  else if decide (o ≠ 0) && (match s.ctxAt h k (o - 1) with | some d => s.owns d h k (o - 1) p && s.canIssue d | none => false) then none
  else if s.borrower h k = some x then some true else none
/-- The core cycle in which a context issues its next instruction, and whether in a lent position: the first that it takes after the
cycle of the core's last issue. DESIGN CHOICE: how many cycles have passed since then is a free value, and the commands reach the cores
in the order of their cycles. -/
def State.slotFor (s : State) (c : Ctx) (h : HalfId) (k x : Nat) : Option (Nat × Bool) :=
  let n := Sparse.get zeroNat (s.half h).slotNow k + 1 + Config.freeNat (halfDraw h (s.half h))
  (List.range 16).findSome? (fun j => (s.takes c h k x ((n + j) % 16)).map (fun lent => (n + j, lent)))
/-- SVC_CORE_STAT after an issue in core cycle `n`, the last one having been in cycle `m` (R78). -/
def coreStatAfter (w : Word) (m n : Nat) (lent : Bool) : Word :=
  putBits (putBits w 0 32 (bits w 0 32 + lent.toNat)) 32 32 (bits w 32 32 + (n - m - 1))
/-- The core's slot that an issue takes: the counts of R78, the cycle, the last borrower (R77), and whether it is one that a LANE_START waits
for (R434). -/
def State.tookSlot (s : State) (c : Ctx) : State :=
  match s.placeOf c with
  | none => s
  | some (h, k, x) =>
    let H := s.half h
    let r := s.slotFor c h k x
    let m := Sparse.get zeroNat H.slotNow k
    s.putHalf h { H with
      coreStat := match r with
        | some (n, lent) => Sparse.set zeroWord H.coreStat k (coreStatAfter (Sparse.get zeroWord H.coreStat k) m n lent)
        | none => H.coreStat
      slotNow := match r with
        | some (n, _) => Sparse.set zeroNat H.slotNow k n
        | none => H.slotNow
      borrowed := match r with
        | some (_, true) => Sparse.set zeroNat H.borrowed k (x + 1)
        | _ => H.borrowed
      issued := match c with
        | .game l 0 => if (s.lane l).startCmd.isSome then H.issued ++ [l] else H.issued
        | _ => H.issued
      draws := H.draws + 1 }

/-- The stop of a lane that waits for its contexts (R94): once none has anything outstanding. -/
def State.settleStop (s : State) (l : Nat) : State :=
  if (s.lane l).stopping && (s.lane l).drained then s.stopLane l none else s
/-- `settleStop` for the lane of a context. -/
def State.settle (s : State) : Ctx → State
  | .game l _ => s.settleStop l
  | .sys _ _ _ => s
/-- What follows when a thread has trapped (R139): THREAD_TRAP, and the stop of the lane for thread 0, once its contexts have nothing
outstanding (R94). -/
def State.afterThread (s : State) : Ctx → State
  | .game l t =>
    let x := (s.lane l).thread t
    if x.trapped then
      let s := s.event (halfOf l) 0x0001 l (s.lane l).frameNow (t + x.vt / 4 * 4)
      if t = 0 then (s.putLane l { s.lane l with stopping := true }).settleStop l else s
    else s
  | .sys _ _ _ => s

/-- An instruction that completes: what it does to its thread, at its turn. -/
def State.issue (s : State) (c : Ctx) (i : NInstr) (f : CoreEnv → Thread → Thread) : Res :=
  if !ctxOk c then noUnit
  else if s.issues c i then .next ((s.tookSlot c).putThread c (f (s.env c) ((s.thread c).stampNow (s.env c))))
  else stay s

/-- Whether the vector read of an entry by thread `t` at VT `v` finds what R49 gives (R137): no other thread still stores below it, and
neither do the blitter and the echo (R263, R280). -/
def Lane.vectorFixed (L : Lane) (t v : Nat) : Bool := !L.det || (L.silent (fun u => decide (u = t)) v && L.unitsPast v)
def State.vectorFixed (s : State) : Ctx → Bool
  | .game l t => (s.lane l).vectorFixed t (((s.lane l).thread t).vt + 3 * (s.lane l).cpu)
  | .sys _ _ _ => true

/-- An exception taken by a context (R102, R137): its entry is complete where its vector read finds what it will find, or where no vector
is read (R139), and in progress until then otherwise. -/
def State.except (s : State) (c : Ctx) (k : Cause) : Res :=
  let x := s.thread c
  if s.vectorFixed c || decide (x.frames.length = 16) then .next (((s.tookSlot c).putThread c (x.raise (s.env c) k)).afterThread c)
  else .next ((s.tookSlot c).putThread c (x.begin (s.env c).cpu x.vt 6 (.except k.word k.bad)))

/-- An instruction that raises an exception, at its turn. -/
def State.fails (s : State) (c : Ctx) (i : NInstr) (k : Cause) : Res :=
  if !ctxOk c then noUnit else if s.issues c i then s.except c k else stay s

end Sys2Proof.Machine
end

