-- ==== Sys2Proof/Machine/Snapshot.lean ====
section
/-! DEFINITION. Snapshot images: their contents, the rounds that make them, and the start of a lane from one (R106, R386, R406 to R408,
R441, R508, R511). -/
namespace Sys2Proof.Machine
open Sys2Proof

/-- A memory of a snapshot section laid out register by register. -/
def regImage (m : List RegDef) (read : Nat → Nat) (base n : Nat) : Bytes :=
  let put (x : Mem) (d : RegDef) : Mem :=
    (List.range d.count).foldl (fun x i => let o := d.base + i * d.stride; x.writeBytes (o - base) (leBytes d.width (read o))) x
  (m.foldl put []).readBytes 0 n

/-- Section 2: the context of one active thread (R407). Frame 0 of the stack is the oldest. -/
def Thread.image (x : Thread) (e : CoreEnv) : Bytes :=
  let w (v : Word) : Bytes := leBytes 8 v.toNat
  let fs := x.frames.reverse
  let frame (i : Nat) : Bytes := match fs[i]? with
    | some f => w f.epc ++ w f.estatus ++ w f.cause ++ w f.badaddr
    | none => List.replicate 32 0
  (List.range 32).flatMap (fun r => w (x.gReg (BitVec.ofNat 5 r))) ++ (List.range 32).flatMap (fun r => w (x.fReg (BitVec.ofNat 5 r))) ++
    w x.pc ++ w (x.status e) ++ w x.vbase ++ w x.fcsr ++ (List.range 4).flatMap (fun i => w (Sparse.get zeroWord x.scratch i)) ++ leBytes 8 x.vt ++
    List.replicate 0xB8 0 ++ (List.range 16).flatMap frame
/-- The context that 1,280 bytes of section 2 hold. -/
def threadOf (b : Bytes) (k : Nat) (waiting : Bool) : Thread :=
  let w (o : Nat) : Word := w64 (leAt b o 8)
  let depth := min 16 (bits (w 0x208) 16 5)
  let frame (i : Nat) : Frame := { epc := w (0x300 + 32 * i), estatus := w (0x308 + 32 * i), cause := w (0x310 + 32 * i), badaddr := w (0x318 + 32 * i) }
  { Thread.init with
    g := (List.range 32).foldl (fun m r => if r = 0 then m else Sparse.set zeroWord m r (w (8 * r))) [],
    f := (List.range 32).foldl (fun m r => Sparse.set zeroWord m r (w (0x100 + 8 * r))) [],
    pc := w 0x200, ie := bit (w 0x208) 0, level := bits (w 0x208) 4 4, frames := ((List.range depth).map frame).reverse, vbase := w 0x210,
    fcsr := w 0x218, scratch := (List.range 4).foldl (fun m i => Sparse.set zeroWord m i (w (0x220 + 8 * i))) [], vt := leAt b 0x240 8,
    admitted := true, active := true, waiting := waiting, slots := k }

/-- The pages of a RAM of 64 MiB at `base` that are not all zero, in ascending order. -/
def ramPages (m : Mem) (base : Nat) : List Nat :=
  ((m.filter (fun p => decide (base ≤ p.1) && decide (p.1 < base + 2 ^ 26))).map (fun p => (p.1 - base) / 4096)).eraseDups
/-- Sections 6 and 7: the bitmap of the pages, then the pages (R407). -/
def ramImage (m : Mem) (base : Nat) : Bytes :=
  let ps := ramPages m base
  let byte (i : Nat) : Byte := BitVec.ofNat 8 ((List.range 8).foldl (fun a j => if ps.contains (8 * i + j) then a + 2 ^ j else a) 0)
  (List.range 2048).map byte ++ ps.flatMap (fun p => m.readBytes (base + 4096 * p) 4096)
/-- What a section of that form writes into a lane's memory. -/
def ramOf (m : Mem) (base : Nat) (b : Bytes) : Mem :=
  let ps := (List.range 16384).filter (fun p => (leAt b (p / 8) 1).testBit (p % 8))
  ps.zipIdx.foldl (fun m q => m.writeBytes (base + 4096 * q.1) (slice b (2048 + 4096 * q.2) 4096)) m

/-- The 16 DATA bytes of a logged input (R401); those of a timing change have no given layout. DESIGN CHOICE: those of LANE_TUNE, which is
logged as one (R438), are its first 16 parameter bytes. -/
def LaneInput.dataBytes (i : LaneInput) (n : Nat) : Bytes :=
  match i.kind with
  | 2 => slice (i.data.take 2 ++ leBytes 2 ((leAt i.data 2 2 + 65536 - leAt i.data 10 2) % 65536) ++
      leBytes 2 ((leAt i.data 4 2 + 65536 - leAt i.data 12 2) % 65536) ++ leBytes 2 ((leAt i.data 6 2 + 65536 - leAt i.data 14 2) % 65536)) 0 16
  | 3 => slice (i.data.take 2) 0 16
  | 6 => if i.slot = 1 then slice i.data 0 16 else (List.range 16).map (Config.freeByte n)
  | _ => slice i.data 0 16
/-- An entry of the input log, 32 bytes (R401). -/
def LaneInput.entry (i : LaneInput) (n : Nat) : Bytes :=
  leBytes 8 i.vt ++ leBytes 4 i.order ++ leBytes 1 i.kind ++ leBytes 1 (if i.kind ≤ 2 then i.slot else 0) ++ [0, 0] ++ i.dataBytes n

/-- The eight sections of the image that a checkpoint of a lane stands for (R407); `n` numbers its free bytes. -/
def Lane.sections (L : Lane) (c : Checkpoint) (n : Nat) : List Bytes :=
  let A : Lane := { L with unit := c.unit, th := c.threads, cross := c.cross, queue := c.queue, op := c.op, late := false, tail := none, bvt := c.vt }
  let ts := [0, 1, 2, 3].filter (fun t => (Sparse.get threadInit c.threads t).active)
  let m := c.mem.getD L.mem
  let ins := L.inputs.filter (fun i => decide (c.vt ≤ i.vt))
  [ slice L.block 0 72
  , ts.flatMap (fun t => (Sparse.get threadInit c.threads t).image (laneEnv A [] t c.vt))
  , regImage threadMap (fun o => A.loadThread c.vt c.vt o) 0 0x35000 ++ (List.range 65536).map (Config.freeByte n)
  , regImage operatorMap (fun o => (c.op.reg o).toNat) 0x18000 0x2000 ++ c.op.display.readBytes 0 131072
  , m.readBytes 0 0x40000, ramImage m 0x10000000, ramImage m 0x20000000
  , ins.flatMap (fun i => i.entry n) ++ (if ins.any (fun i => decide (i.kind = 5)) then (List.range (Config.freeNat n)).map (Config.freeByte (n + 1)) else []) ]
/-- The image of the lane at a checkpoint (R407): header, section table, sections one behind the other, SHA-384. -/
def Lane.image (L : Lane) (c : Checkpoint) (digest : Bytes) (live : Bool) (n : Nat) : Bytes :=
  let ss := L.sections c n
  let offs := ss.foldl (fun (a : List Nat × Nat) b => (a.1 ++ [a.2], a.2 + b.length)) ([], 0x180)
  let total := offs.2 + 48
  let act := ([0, 1, 2, 3].map (fun t => if (Sparse.get threadInit c.threads t).active then 2 ^ t else 0)).foldl (· + ·) 0
  let head := "DNLANE01".toList.map (fun x => BitVec.ofNat 8 x.toNat) ++ leBytes 2 0x0256 ++ leBytes 1 0xA1 ++ leBytes 1 1 ++
    leBytes 1 (L.det.toNat + 2 * live.toNat) ++ leBytes 1 act ++ leBytes 2 8 ++ leBytes 8 c.vt ++ leBytes 4 c.frame ++ leBytes 4 L.title ++
    slice digest 0 48 ++ leBytes 8 total ++ List.replicate 40 0
  let row (q : (Bytes × Nat) × Nat) : Bytes := leBytes 4 (q.2 + 1) ++ leBytes 4 0 ++ leBytes 8 q.1.2 ++ leBytes 8 q.1.1.length ++ leBytes 4 (crc32 q.1.1) ++ leBytes 4 0
  let body := head ++ (ss.zip offs.1).zipIdx.flatMap row ++ ss.flatten
  body ++ sha384 body
/-- The length of the image that the lane would have now (R511): TOTAL = M + Z. -/
def Lane.imageEstimate (L : Lane) : Nat :=
  4096 * ((ramPages L.mem 0x10000000).length + (ramPages L.mem 0x20000000).length) + 689912 +
    1280 * (((L.threads.filter (·.active)).length) - 1) + 32 * (L.inputs.filter (fun i => decide (L.bvt ≤ i.vt))).length
/-- What the image's parts without a given layout stand for. -/
def Lane.blockOf (L : Lane) (c : Checkpoint) : A1Block :=
  { unit := c.unit, cross := c.cross, queue := c.queue, waiting := [0, 1, 2, 3].filter (fun t => (Sparse.get threadInit c.threads t).waiting),
    hidden := c.hidden, entering := [0, 1, 2, 3].filterMap (fun t => (Sparse.get threadInit c.threads t).entering.map (fun q => (t, q))),
    inputs := L.inputs.filter (fun i => decide (c.vt ≤ i.vt)), records := L.opRecords }

/-- The checkpoint of a paused lane at its boundary F, once its capture is complete. -/
def Lane.pausedCkpt (L : Lane) : Option Checkpoint :=
  match L.lastCkpt with
  | some c => if c.vt = L.bvt ∧ c.mem.isSome ∧ c.completeAt.isSome then some c else none
  | none => none
/-- The image of a paused lane, kept with what its parts without a layout hold. -/
def State.makeImage (s : State) (l : Nat) (c : Checkpoint) (live : Bool) : State × Bytes :=
  let h := halfOf l
  let L := s.lane l
  let dig := match Sparse.get noTitle (s.half h).titles L.title with | some t => t.digest | none => []
  let b := L.image c dig live s.draw
  ({ s with images := (b, L.blockOf c) :: s.images, freeCtr := s.freeCtr + 1 }, b)

/-- The three checks of an image that give BAD_IMAGE (R408): the number of the first that fails. -/
def imageBad (b : Bytes) : Option Nat :=
  let total := leAt b 0x50 8
  let n := leAt b 0x0E 2
  let row (i : Nat) : Bytes := slice b (0x80 + 32 * i) 32
  let rowOk (i : Nat) : Bool :=
    decide (leAt (row i) 0 4 = i + 1) && decide (leAt (row i) 8 8 + leAt (row i) 16 8 ≤ total - 48) &&
      decide (crc32 (slice b (leAt (row i) 8 8) (leAt (row i) 16 8)) = leAt (row i) 24 4)
  if b.take 8 ≠ "DNLANE01".toList.map (fun x => BitVec.ofNat 8 x.toNat) ∨ leAt b 0x0B 1 ≠ 1 then some 1
  else if leAt b 8 2 ≠ 0x0256 ∨ leAt b 0x0A 1 ≠ 0xA1 then some 2
  else if total < 0x1B0 ∨ b.length < total ∨ n ≠ 8 ∨ (List.range 8).all rowOk = false ∨ sha384 (b.take (total - 48)) ≠ slice b (total - 48) 48 then some 3
  else none
/-- Section `k` of an image. -/
def imageSection (b : Bytes) (k : Nat) : Bytes := slice b (leAt b (0x80 + 32 * (k - 1) + 8) 8) (leAt b (0x80 + 32 * (k - 1) + 16) 8)

/-- The registers of section 3 laid over the unit that the internal block gives. -/
def LaneUnit.withImage (u : LaneUnit) (b : Bytes) : LaneUnit :=
  let put (u : LaneUnit) (d : RegDef) : LaneUnit :=
    (List.range d.count).foldl (fun u i =>
      let o := d.base + i * d.stride
      let v := w64 (leAt b o d.width)
      if o < 0x20000 then { u with ras := u.ras.setReg o ((u.ras.reg o &&& d.live) ||| (v &&& ~~~ d.live)) }
      else if 0x30000 ≤ o ∧ o < 0x32000 then u
      else u.setReg o ((u.reg o &&& d.live) ||| (v &&& ~~~ d.live))) u
  let w := threadMap.foldl put u
  { w with tim := w.tim.ofRegs (fun o => leAt b (0x30000 + o) 4), lic := w.lic.ofRegs (fun o => leAt b (0x31000 + o) (if 0x100 ≤ o ∧ o < 0x140 then 8 else 4)) }
/-- The input that the 32-byte entry `e` of section 8 stands for (R401), those before it being `acc`; `reg` are the registers of section 3.
What of the old state an entry does not give follows from them. -/
def inputOf (reg : Nat → Nat) (acc : List LaneInput) (e : Bytes) : LaneInput :=
  let kind := leAt e 0x0C 1
  let p := leAt e 0x0D 1
  let d := slice e 0x10 16
  let last (q : LaneInput → Bool) : Option LaneInput := (acc.filter (fun i => decide (i.kind = kind) && q i)).getLast?
  let w := Config.timingWords d
  let data : Bytes := match kind with
    | 2 => let was := match last (fun i => decide (i.slot = p)) with
             | some i => i.data.take 2
             | none => let r := reg (0x32100 + 4 * p); leBytes 1 (r % 2) ++ leBytes 1 (r / 2 % 4)
           d.take 8 ++ was ++ List.replicate 6 0
    | 3 => let was := match last (fun _ => true) with | some i => leAt i.data 0 1 | none => reg 0x32110 % 16
           d.take 2 ++ leBytes 1 ((List.range 4).foldl (fun m k => if was.testBit k && !(leAt d 0 1).testBit k then m + 2 ^ k else m) 0)
    | 6 => w.2
    | _ => d
  { vt := leAt e 0 8, order := leAt e 8 4, kind := kind, slot := if kind = 6 then w.1 else p, data := data, cmd := none, applied := false }
/-- The entries at the front of section 8 (R407): as long as 32 bytes have the form of one at or after `f` in VT order; the operator records
behind them have no given layout (DEDUCED). -/
def inputsOf (reg : Nat → Nat) : Nat → Nat → Bytes → List LaneInput → List LaneInput
  | 0, _, _, acc => acc
  | n + 1, f, b, acc =>
    if leAt b 0x0C 1 = 0 ∨ 7 < leAt b 0x0C 1 ∨ leAt b 0x0E 2 ≠ 0 ∨ leAt b 0 8 < f then acc
    else inputsOf reg n (leAt b 0 8) (b.drop 32) (acc ++ [inputOf reg acc b])
/-- The inputs of an image. -/
def imageInputs (b : Bytes) : List LaneInput :=
  let r := imageSection b 3
  inputsOf (fun o => leAt r o 4) ((imageSection b 8).length / 32) (leAt b 0x10 8) (imageSection b 8) []
/-- The lane that an image stands for (R106, R407, R408), seated at `z`: BVT = F at frame FRAME. -/
def Lane.ofImage (b : Bytes) (k : A1Block) (z : Seats) (titleLen draws : Nat) : Lane :=
  let blk := slice (imageSection b 1) 0 72
  let f := leAt b 0x10 8
  let fr := if k.unit.tm.frameAt f % 2 ^ 32 = leAt b 0x18 4 then k.unit.tm.frameAt f else leAt b 0x18 4
  let A := Lane.ofBlock blk z titleLen draws
  let u : LaneUnit := { k.unit.withImage (imageSection b 3) with tm := timingOf blk f fr (k.unit.tm.milIndex f) k.unit.tm.oldPeriods }
  let on := [0, 1, 2, 3].filter (fun t => (leAt b 0x0D 1).testBit t)
  let thread (m : Sparse Thread) (q : Nat × Nat) : Sparse Thread :=
    Sparse.set threadInit m q.1 { threadOf (slice (imageSection b 2) (1280 * q.2) 1280) (A.thread q.1).slots (k.waiting.contains q.1) with capVt := f, entering := assoc q.1 k.entering }
  let o4 := imageSection b 4
  let ov := (operatorMap.flatMap (fun d => (List.range d.count).map (fun i => (d.base + i * d.stride, d.width)))).foldl
    (fun m p => Sparse.set laneReset m p.1 (w64 (leAt o4 (p.1 - 0x18000) p.2))) []
  let disp := Mem.writeBytes [] 0 (slice o4 0x2000 131072)
  let mem := ramOf (ramOf (Mem.writeBytes [] 0 (slice (imageSection b 5) 0 0x40000)) 0x10000000 (imageSection b 6)) 0x20000000 (imageSection b 7)
  let E : Lane := { A with
    unit := u, op := { Operator.reset with act := ov, stage := ov, display := disp, staging := disp }, th := on.zipIdx.foldl thread A.th,
    mem := mem, hidden := k.hidden, near := 64, nearAt := f, bvt := f, mil := u.tm.milIndex f, cross := k.cross, queue := k.queue,
    inputs := k.inputs.map (fun i => { i with cmd := none, applied := false }), inOrder := (k.inputs.map (fun i => i.order + 1)).foldl max 0,
    opRecords := k.records, early := on.map (fun t => (f, t, Sparse.get threadInit (on.zipIdx.foldl thread A.th) t)),
    enc := { Encoder.reset with bf := fr, sf := fr } }
  (E.showTiming blk).rescan
/-- A lane started from an image (R311, R408): it waits at F for its frame boundary, or stays paused there, its stream samples uncounted. -/
def State.startImage (s : State) (l : Nat) (b : Bytes) (z : Seats) (titleLen : Nat) (pause : Bool) : State :=
  let k := match s.images.find? (fun p => decide (p.1 = b.take (leAt b 0x50 8))) with
    | some p => p.2
    | none => { Config.a1Block b with inputs := imageInputs b }
  let L := Lane.ofImage b k z titleLen (s.lane l).draws
  let s := s.place l L z
  s.putLane l { s.lane l with audio := { (s.lane l).audio with held := pause }, phase := if pause then .paused else .running, pausedFor := if pause then { PauseWhy.no with command := true } else .no }

/-- The bytes that the next round would copy: all of the image before the first, then the pages first-written since the last began
(R396, R406). -/
def Lane.roundBytes (L : Lane) (z : Snapshot) : Nat := if z.rounds = 0 then L.imageEstimate else 4096 * z.todo
/-- Whether pre-copy has converged (R508): at most 1 MiB left, 6 rounds, or 1 s. -/
def Lane.converged (L : Lane) (z : Snapshot) (time : Nat) : Bool :=
  (decide (0 < z.rounds) && decide (L.roundBytes z ≤ 2 ^ 20)) || decide (6 ≤ z.rounds) || decide (z.began + 1000000000 ≤ time)
/-- SNAPSHOT_ROUND (R406, R508): a round ends; what the next one copies are the pages first-written since it began (R396). A lane
that has converged pauses at its next frame boundary. -/
def execSnapshotRound (l tm : Nat) (s : State) : Res :=
  if 256 ≤ l then noUnit
  else
    let s := s.at tm
    let L := s.lane l
    match L.snap with
    | none => stay s
    | some z =>
      if L.phase ≠ .running ∨ z.frozen = true ∨ z.live = false ∨ L.pauseDue.drain = true then stay s
      else
        let z : Snapshot := { z with rounds := z.rounds + 1, todo := z.dirty.length, dirty := [] }
        let L : Lane := { L with snap := some z }
        .next (s.putLane l (if L.converged z s.time then { L with pauseDue := { L.pauseDue with drain := true } } else L))

end Sys2Proof.Machine
end

