-- ==== Sys2Proof/Machine/CmdMemory.lean ====
section
/-! DEFINITION. The commands of titles, snapshots and migration (R345, R391, R393, R406 to R408, R440 to R442), and the final round. -/
namespace Sys2Proof.Machine
open Sys2Proof

/-- A title of a half replaced. -/
def State.putTitle (s : State) (h : HalfId) (id : Nat) (t : Option Title) : State :=
  let H := s.half h
  s.putHalf h { H with titles := Sparse.set noTitle H.titles id t }
/-- The CRC-32 of each page of an image (R440). -/
def pageCrcs (b : Bytes) : List Nat := (List.range (ceilDiv b.length 4096)).map (fun i => crc32 (slice b (4096 * i) 4096))

/-- TITLE_LOAD (R391, R440): `data` are the bytes read from ADDR. -/
def State.titleLoad (s : State) (c : Cmd) (h : HalfId) (data : Bytes) : State :=
  let p := c.params
  let n := leAt p 8 8
  let dig := slice p 24 48
  let H := s.half h
  s.checked c (halfByte p ++ zeros p 1 3 ++ [(decide (n ≤ 2 ^ 30), 8)]) (fun s =>
    match Sparse.get noTitle H.titles (leAt p 4 4) with
    | some t => if t.digest = dig then s.done c [] else s.fail c stBadState 0x0301
    | none =>
      if 256 ≤ H.titleCount then s.fail c stNoCapacity 391
      else if H.poolFree < n then s.fail c stNoCapacity 387
      else if data.length ≠ n then s.fail c stDmaError 0
      else if sha384 data ≠ dig then s.fail c stBadImage 0
      else (s.putTitle h (leAt p 4 4) (some { data := data, digest := dig, ready := true, refs := 0, unloading := false, copying := false,
                                              crcs := pageCrcs data, bad := [] })).done c [])
def execTitleLoad (id : Nat) (data : Bytes) (tm : Nat) (s : State) : Res := opcode 0x0401 id tm (fun s c h => s.titleLoad c h data) s

/-- TITLE_UNLOAD (R393). -/
def State.titleUnload (s : State) (c : Cmd) (h : HalfId) : State :=
  let p := c.params
  s.checked c (halfByte p ++ zeros p 1 3) (fun s =>
    match Sparse.get noTitle (s.half h).titles (leAt p 4 4) with
    | none => s.fail c stNotFound 0
    | some t => (s.putTitle h (leAt p 4 4) (if t.refs = 0 then none else some { t with unloading := true })).done c (leBytes 4 t.refs))
def execTitleUnload (id tm : Nat) (s : State) : Res := opcode 0x0402 id tm (fun s c h => s.titleUnload c h) s

/-- TITLE_REPAIR (R388, R440); the caches drop the lines of the page (R82, R89). -/
def State.titleRepair (s : State) (c : Cmd) (h : HalfId) (data : Bytes) : State :=
  let p := c.params
  let k := leAt p 8 4
  s.checked c (halfByte p ++ zeros p 1 3 ++ zeros p 12 4) (fun s =>
    match Sparse.get noTitle (s.half h).titles (leAt p 4 4) with
    | none => s.fail c stNotFound 0
    | some t =>
      if t.crcs.length ≤ k then s.fail c stNotFound 0
      else if data.length ≠ 4096 then s.fail c stDmaError 0
      else if crc32 data ≠ t.crcs.getD k 0 then s.fail c stBadImage 0x10
      else
        let d := (t.data.take (4096 * k) ++ data ++ t.data.drop (4096 * k + 4096)).take t.data.length
        ((s.putTitle h (leAt p 4 4) (some { t with data := d, bad := t.bad.filter (fun x => decide (x ≠ k)) })).dropTitle h (leAt p 4 4) (4096 * k) 4096).done c [])
def execTitleRepair (id : Nat) (data : Bytes) (tm : Nat) (s : State) : Res := opcode 0x0403 id tm (fun s c h => s.titleRepair c h data) s

/-- Snapshot work on a lane begins (R406): pre-copy in the live form, otherwise the pause of R62. -/
def State.beginSnap (s : State) (l : Nat) (cmd : Option Nat) (live drain : Bool) : State :=
  let L := s.lane l
  let run := decide (L.phase = .running)
  let z : Snapshot := { cmd := cmd, live := live && run, drain := drain, rounds := 0, todo := 0, dirty := [], began := s.time, frozen := false, image := none }
  s.putLane l (if run then { L with snap := some z, pauseDue := { L.pauseDue with drain := L.pauseDue.drain || !live } }
    else { L with snap := some z, pausedFor := { L.pausedFor with drain := true } })
/-- The lane of a finished command's snapshot: it stays paused where something else holds it, goes on to its drain where one waits for it
(R508), and runs on otherwise. -/
def State.thaw (s : State) (l : Nat) (command : Bool) : State :=
  let L := s.lane l
  match (match L.snap with | some z => if z.drain then some z else none | none => none) with
  | some z => s.putLane l { L with snap := some { z with cmd := none }, pausedFor := { L.pausedFor with drain := true, command := command } }
  | none =>
    let why := { L.pausedFor with drain := false, command := command }
    let s := s.putLane l { L with snap := none, pausedFor := why }
    if why.any then s else s.resumeLane l 4

/-- LANE_SNAPSHOT (R406, R441): it completes at its final round. -/
def State.laneSnapshot (s : State) (c : Cmd) : State :=
  let L := s.lane c.target
  let p := c.params
  s.checked c ([(decide (leAt p 0 4 < 6), 0)] ++ zeros p 4 4) (fun s =>
    if (L.phase ≠ .running ∧ L.phase ≠ .paused) ∨ L.snap.isSome then s.failLane c
    else s.beginSnap c.target (some c.id) ((leAt p 0 1).testBit 0) false)
def execLaneSnapshot (id tm : Nat) (s : State) : Res := opcode 0x0404 id tm (fun s c _ => s.laneSnapshot c) s

/-- LANE_RESTORE (R408, R441): `image` are the bytes read from ADDR. DESIGN CHOICE: a settings field out of the range of R434 that no rule of
check 5 names gives NO_CAPACITY with its offset; CKPT_PAGES gives 387, THREADS 67. -/
def State.laneRestore (s : State) (c : Cmd) (h : HalfId) (image : Bytes) : State :=
  let l := c.target
  let p := c.params
  let b := image.take (leAt p 16 8)
  let blk := slice (imageSection b 1) 0 72
  s.checked c ([(decide (leAt p 0 4 < 2), 0)] ++ zeros p 4 4) (fun s =>
    if (s.lane l).phase ≠ .stopped then s.failLane c
    else match imageBad b with
      | some n => s.fail c stBadImage n
      | none =>
        match (s.half h).titleReady (leAt b 0x1C 4) with
          | none => s.fail c stNotFound 0
          | some t =>
            if t.digest ≠ slice b 0x20 48 then s.fail c stNotFound 0
            else match badTiming blk (leAt blk 0x15 1) with
              | some d => s.fail c stBadTiming d
              | none => match blockBad blk with
              | some d => s.fail c stNoCapacity (if d = 0x20 then 387 else if d = 0x05 then 67 else d)
              | none => match s.admission l blk (slotNeeds blk) with
                | .error d => s.fail c stNoCapacity d
                | .ok z =>
                  let s := s.startImage l b z t.data.length ((leAt p 0 1).testBit 0)
                  s.done c (s.startResult l))
def execLaneRestore (id : Nat) (image : Bytes) (tm : Nat) (s : State) : Res := opcode 0x0405 id tm (fun s c h => s.laneRestore c h image) s

/-- MOVE_PLAN (R442). -/
def State.movePlan (s : State) (c : Cmd) : State :=
  let p := c.params
  let n := leAt p 0 1
  let e (i : Nat) : Bytes := slice p (4 + 28 * i) 28
  let ok (i : Nat) : List (Bool × Nat) :=
    zeros p (4 + 28 * i + 2) 2 ++ [(decide (leAt (e i) 8 1 = 4) || decide (leAt (e i) 8 1 = 6), 4 + 28 * i + 8), (decide (leAt (e i) 9 1 = 0), 4 + 28 * i + 9)]
  s.checked c ([(decide (n ≤ 32), 0)] ++ zeros p 1 3 ++ (List.range n).flatMap ok) (fun s =>
    if (List.range n).all (fun i => (s.viewerAt c.target (leAt (e i) 0 2)).isSome) then
      (s.putNetLane c.target { s.netLane c.target with plan := (List.range n).map (fun i => (leAt (e i) 0 2 % 2048, slice (e i) 4 24)) }).done c []
    else s.fail c stNotFound 0)
def execMovePlan (id tm : Nat) (s : State) : Res := opcode 0x0406 id tm (fun s c _ => s.movePlan c) s

/-- The viewers of a lane that has moved or drained (R345, R361, R442, R510): MOVE with RFRAME to the joined ones that the plan names where
`plans` says so, LEAVE with `reason` to those that it does not name. -/
def State.sendViewers (s : State) (l : Nat) (plans : Bool) (reason frame : Nat) : State :=
  let h := halfOf l
  let plan := (s.netLane l).plan
  ((s.half h).viewersOf l).foldl (fun s q =>
    match (if plans then assoc q.1 plan else none) with
    | some m =>
      if q.2.state ≠ 1 then s
      else
        let pay := m ++ leBytes 4 frame
        let now := (s.lane l).frameNow
        s.sentBy h q.1 ({ q.2 with rep := .move pay s.time, items := [], selects := false }.send h s.time now 5 0 now 0xFFFF pay)
    | none => s.sentBy h q.1 (q.2.leave h s.time frame reason)) s

/-- The lane of the other half to which LANE_MOVE takes lane `l` (R442, R567), with its seats, or STATUS and DETAIL. -/
def State.moveTo (s : State) (l dest : Nat) : Except (Nat × Nat) (Nat × Seats) :=
  let g := HalfId.peer (halfOf l)
  let b := (s.lane l).block
  let try' (d : Nat) : Except Nat Seats := s.admission d b (slotNeeds b)
  if (s.half g).sp.down || (s.half g).boot.failed || decide ((s.half g).auth.role = .isolated) then .error (stBadState, 0)
  else if dest < 256 then
    (if (s.lane dest).phase ≠ .stopped then .error (stBadState, 0)
     else match try' dest with
      | .ok z => .ok (dest, z)
      | .error d => .error (stNoCapacity, d))
  else
    let free := ((List.range 128).map (laneNo g)).filter (fun d => decide ((s.lane d).phase = .stopped))
    match free.findSome? (fun d => match try' d with | .ok z => some (d, z) | .error _ => none) with
    | some r => .ok r
    | none => .error (stNoCapacity, match free with | [] => 442 | d :: _ => (match try' d with | .error e => e | .ok _ => 442))
/-- LANE_MOVE (R442): it completes at its final round; a title that the other half lacks is copied over Ford meanwhile (R392). -/
def State.laneMove (s : State) (c : Cmd) : State :=
  let l := c.target
  let L := s.lane l
  let p := c.params
  let g := HalfId.peer (halfOf l)
  let d := leAt p 0 2
  s.checked c ([(decide (d = 0xFFFF) || (decide (d < 256) && decide (halfOf d ≠ halfOf l)), 0)] ++ zeros p 2 2) (fun s =>
    if (L.phase ≠ .running ∧ L.phase ≠ .paused) ∨ L.snap.isSome then s.failLane c
    else match s.moveTo l d with
      | .error e => s.fail c e.1 e.2
      | .ok _ =>
        let s := match Sparse.get noTitle (s.half g).titles L.title, Sparse.get noTitle (s.half (halfOf l)).titles L.title with
          | none, some t => s.putTitle g L.title (some { t with ready := false, refs := 0, unloading := false, copying := true, bad := [] })
          | _, _ => s
        s.beginSnap l (some c.id) true false)
def execLaneMove (id tm : Nat) (s : State) : Res := opcode 0x0407 id tm (fun s c _ => s.laneMove c) s

/-- The final round of LANE_SNAPSHOT (R406, R441): the image goes to ADDR, and the lane is left as FLAGS asks. -/
def State.finishSnapshot (s : State) (l : Nat) (k : Checkpoint) (c : Cmd) (live : Bool) : State :=
  let p := c.params
  let r := s.makeImage l k live
  if leAt p 16 8 < r.2.length then (s.fail c stNoCapacity 441).thaw l (s.lane l).pausedFor.command
  else
    let s := (r.1.emit (.hostWrite (halfOf l) (leAt p 8 8) r.2)).done c (leBytes 8 r.2.length ++ leBytes 4 k.frame ++ leBytes 4 0)
    match leAt p 0 1 / 2 with
    | 0 => s.thaw l true
    | 1 => s.thaw l false
    | _ => s.stopLane l none
/-- The final round of LANE_MOVE (R442): the lane starts under its new number, its viewers move or leave, the old lane is freed. It
waits while the title is being copied. -/
def State.finishMove (s : State) (l : Nat) (k : Checkpoint) (c : Cmd) : Option State :=
  let L := s.lane l
  let g := HalfId.peer (halfOf l)
  let back (e : Nat × Nat) : State := (s.fail c e.1 e.2).thaw l L.pausedFor.command
  match Sparse.get noTitle (s.half g).titles L.title with
  | none => some (back (stNotFound, 0))
  | some t =>
    if t.copying then none
    else match s.moveTo l (leAt c.params 0 2) with
      | .error e => some (back e)
      | .ok (d, z) =>
        let r := s.makeImage l k true
        let hold := { L.pausedFor with drain := false }
        let s := r.1.startImage d r.2 z t.data.length hold.any
        let s := if hold.any then s.putLane d { s.lane d with pausedFor := hold } else s
        let s := s.sendViewers l true 4 (k.frame % 2 ^ 32)
        let s := s.done c (leBytes 2 d ++ leBytes 2 0 ++ leBytes 4 k.frame)
        some ((s.abortAll l none).freeLane l)
/-- FINAL_ROUND (R406, R508): the paused lane's image is complete, in staging for a drain, or written out for a command. -/
def execFinalRound (l tm : Nat) (s : State) : Res :=
  if 256 ≤ l then noUnit
  else
    let s := s.at tm
    let L := s.lane l
    match L.snap with
    | none => stay s
    | some z =>
      if L.phase ≠ .paused ∨ z.frozen = true then stay s
      else match (L.sealCkpt s.time).pausedCkpt with
        | none => .next (s.ckptAt l L.bvt)
        | some k => match (match z.cmd with | some id => s.cmd id | none => none) with
          | some c =>
            if c.opcode = 0x0407 then (match s.finishMove l k c with | some t => .next t | none => stay s)
            else .next (s.finishSnapshot l k c z.live)
          | none =>
            let r := s.makeImage l k z.live
            .next (r.1.putLane l { r.1.lane l with snap := some { z with frozen := true, image := some r.2 } })

end Sys2Proof.Machine
end

