-- ==== Sys2Proof/Machine/Presence.lean ====
section
/-! DEFINITION. Physical presence: pin functions and conflicts, the seal loop, grants, tamper and lockdown (R526 to R534, R540 to R550), and
PRESENCE_STATUS and PRESENCE_END. -/
namespace Sys2Proof.Machine
open Sys2Proof

/-- The functions of MFIO pins (R540). -/
inductive PinFn
  | smbScl | smbSda | uartRx | serviceBtn | serviceJmp | seal | ejectN | authority
  | boardId (j : Nat)
  | gpio | smbAlertN | uartTx | safe | thermAlertN
  | led (j : Nat)
  deriving DecidableEq, Repr

/-- SEL 1 to 3 at each position k (R540). -/
def pinTable : List (PinFn × PinFn × PinFn) :=
  [ (.smbScl, .uartTx, .led 0), (.smbSda, .uartRx, .led 1), (.smbAlertN, .thermAlertN, .led 2), (.uartTx, .boardId 0, .led 3)
  , (.uartRx, .boardId 1, .ejectN), (.serviceBtn, .boardId 2, .authority), (.serviceJmp, .boardId 3, .safe), (.seal, .smbScl, .serviceBtn)
  , (.ejectN, .smbSda, .serviceJmp), (.safe, .smbAlertN, .seal), (.authority, .led 0, .uartTx), (.thermAlertN, .led 1, .uartRx)
  , (.led 0, .led 2, .boardId 0), (.led 1, .led 3, .boardId 1), (.led 2, .ejectN, .boardId 2), (.led 3, .safe, .boardId 3) ]
/-- The function that SEL chooses on the half's pin `i`. -/
def pinFn (i sel : Nat) : PinFn :=
  match pinTable[i % 16]?, sel with
  | some r, 1 => r.1
  | some r, 2 => r.2.1
  | some r, 3 => r.2.2
  | _, _ => .gpio
/-- The conflict-checked input functions by their bit of MFIO_CONFLICT (R545). -/
def checkedFns : List PinFn :=
  [.smbScl, .smbSda, .uartRx, .serviceBtn, .serviceJmp, .seal, .ejectN, .authority, .boardId 0, .boardId 1, .boardId 2, .boardId 3]
/-- The guarded functions (R542). -/
def guardedFns : List PinFn := [.serviceBtn, .serviceJmp, .seal, .ejectN, .safe, .authority]

def Pins.sel (p : Pins) (h : HalfId) (i : Nat) : Nat := Sparse.get (muxReset h) p.mux i
def Pins.conf (p : Pins) (h : HalfId) (i : Nat) : Word := Sparse.get (cfgReset h) p.cfg i
def Pins.fn (p : Pins) (h : HalfId) (i : Nat) : PinFn := pinFn i (p.sel h i)
def Pins.held (p : Pins) (i : Nat) : Option (Nat × Nat) := Sparse.get noHold p.holds i
/-- The pins of a half that carry a function. -/
def Pins.pinsOf (p : Pins) (h : HalfId) (f : PinFn) : List Nat := (List.range 32).filter (fun i => decide (p.fn h i = f))
/-- The pin from which an input function takes its level: none where it takes its default (R541, R547, R548). -/
def Pins.input (p : Pins) (h : HalfId) (f : PinFn) : Option Nat :=
  match p.pinsOf h f with
  | [i] => if (p.held i).isNone then some i else none
  | _ => none
def Pins.analog (p : Pins) (h : HalfId) (i : Nat) : Bool := bit (p.conf h i) 6
/-- The digital level of pin `i`: 0 in analogue mode (R550). -/
def Pins.level (p : Pins) (h : HalfId) (i : Nat) : Bool := bit p.pad i && !p.analog h i
/-- MFIO_CONFLICT.LIVE (R547). -/
def Pins.live (p : Pins) (h : HalfId) : Nat :=
  (checkedFns.zipIdx.filter (fun f => decide (2 ≤ (p.pinsOf h f.1).length))).foldl (fun n f => n + 2 ^ f.2) 0
/-- Whether the seal loop is sensed (R530, R549, R550). -/
def Pins.sensesSeal (p : Pins) (h : HalfId) : Bool := match p.input h .seal with | some i => p.analog h i | none => false

/-- The half whose seal reading the device shows. -/
def State.sealHalf (s : State) : Half := if s.east.band = 3 ∧ s.west.band ≠ 3 then s.west else s.east
/-- Seconds left in the grant. -/
def State.grantLeft (s : State) : Nat := if s.presence.openAt.isSome then (s.presence.endAt - s.time) / 1000000000 else 0
/-- A PRESENCE event (R534) of the half in charge. -/
def State.presEvent (s : State) (kind source left : Nat) : State :=
  match s.inCharge with
  | some h => s.event h 0x000C 0xFFFF 0 (kind + source * 2 ^ 4 + min left 65535 * 2 ^ 16 + s.sealHalf.ohms % 2 ^ 32 * 2 ^ 32)
  | none => s
/-- Something that the half in charge counts in its lifetime record (R484). -/
def State.chargeCount (s : State) (off : Nat) : State :=
  match s.inCharge with
  | some h => s.lifeAdd h off 4 1
  | none => s
def State.chargeDue (s : State) : State :=
  match s.inCharge with
  | some h => s.putHalf h (s.half h).lifeDue
  | none => s

/-- The band of a half as R531 takes it: "not sensed" counts as the break band where the half had SEAL on exactly one pin at reset (R549). -/
def Half.loopBand (H : Half) : Nat := if H.band = 3 ∧ H.pins.sealAtReset = true then 2 else H.band
/-- Whether the loop is not intact at some half that senses it. -/
def State.loopOpen (s : State) : Bool :=
  [s.east, s.west].any (fun H => decide (H.loopBand ≠ 0) && decide (H.loopBand ≠ 3))
/-- Whether an opcode is privileged. -/
def privileged (op : Nat) : Bool := match opRow op with | some r => r.priv | none => false
/-- A tamper event (R531, R532). -/
def State.tamper (s : State) : State :=
  if s.presence.lockdown then s
  else
    let src := s.presence.source
    let was := s.presence.openAt.isSome
    let s := { s with presence := { openAt := none, endAt := 0, source := 0, tamper := true, tamperAt := s.time, lockdown := true } }
    let s := if was then s.presEvent 5 src 0 else s
    let s := (s.chargeCount 0x30).chargeDue
    let lock (H : Half) : Half := { H with fw := { H.fw with setLockdown := true, setGen := H.fw.setGen + 1 } }
    let s := { s with east := lock s.east, west := lock s.west }
    ((s.cmds.filter (fun c => privileged c.opcode && !c.begun && c.reply.isNone)).map (·.id)).foldl (fun s id => s.finish id stLockdown 0 []) s
/-- The grant ends (R529), which is a tamper event where the loop is not intact (R531). -/
def State.endGrant (s : State) (kind : Nat) : State :=
  match s.presence.openAt with
  | none => s
  | some _ =>
    let src := s.presence.source
    let left := s.grantLeft
    let s := ({ s with presence := { s.presence with openAt := none, endAt := 0, source := 0 } }).presEvent kind src left
    if s.loopOpen then s.tamper else s
/-- A qualifying action (R526, R527): it opens a grant or, but for the jumper, moves its end. -/
def State.grantAction (s : State) (source : Nat) : State :=
  let s := if s.presence.openAt.isSome && decide (s.presence.endAt < s.time) then s.endGrant 3 else s
  if s.presence.lockdown || s.inCharge.isNone then s
  else match s.presence.openAt with
    | some t =>
      if source = 2 then s
      else
        let s := { s with presence := { s.presence with endAt := min (s.time + 600000000000) (t + 1800000000000) } }
        s.presEvent 2 s.presence.source s.grantLeft
    | none =>
      let s := { s with presence := { s.presence with openAt := some s.time, endAt := s.time + 600000000000, source := source } }
      (s.chargeCount 0x2C).presEvent 1 source s.grantLeft

/-- Whether a half reports what it senses to the half in charge over Ford. -/
def State.reports (s : State) (h : HalfId) : Bool :=
  s.runs && (s.half h).serves && decide ((s.half h).auth.role ≠ .isolated)
/-- PRESENCE_ACTION (R526): the button held for 2 s, or the loop in the service band for 2 s, by PRESENCE_MODE. -/
def execPresenceAction (h : HalfId) (tm : Nat) (s : State) : Res :=
  let s := s.at tm
  let H := s.half h
  if !s.reports h then stay s
  else match H.pins.strapMode with
    | 0 => if (H.pins.input h .serviceBtn).isSome then .next (s.grantAction 1) else stay s
    | 2 => if H.band = 1 ∧ H.pins.sensesSeal h = true then .next (s.grantAction 3) else stay s
    | _ => stay s
/-- GRANT_EXPIRY (R529). -/
def execGrantExpiry (tm : Nat) (s : State) : Res :=
  let s := s.at tm
  if s.presence.openAt.isSome && decide (s.presence.endAt ≤ s.time) then .next (s.endGrant 3) else stay s

/-- The loop of a half in another band (R530, R531); not sensed has no effect on a half that had SEAL on no pin at reset (R549). -/
def State.setBand (s : State) (h : HalfId) (band ohms : Nat) : State :=
  let H := s.half h
  let old := H.loopBand
  let s := s.putHalf h { H with band := band, ohms := ohms }
  let new := (s.half h).loopBand
  let bad := if H.pins.strapMode = 2 then decide (new = 2) && decide (old ≠ 2) else decide (old = 0) && decide (new ≠ 0) && decide (new ≠ 3) && !s.granted
  if bad then s.tamper else s
/-- The band follows the pins: not sensed at once where no pin senses the loop (R530, R547, R548). -/
def State.senseSeal (s : State) (h : HalfId) : State :=
  if (s.half h).band ≠ 3 ∧ (s.half h).pins.sensesSeal h = false then s.setBand h 3 0 else s
/-- The band of a loop resistance in Ω × 32 (R530). -/
def sealBand (x : Nat) : Nat := if 1500 * 32 ≤ x ∧ x ≤ 2500 * 32 then 0 else if 7500 * 32 ≤ x ∧ x ≤ 12500 * 32 then 1 else 2
/-- SEAL_BAND_CHANGE (R530, R550): the band of ten samples of a code, or no sensing. -/
def execSealBandChange (h : HalfId) (code : Option (BitVec 12)) (tm : Nat) (s : State) : Res :=
  let s := s.at tm
  let H := s.half h
  if !s.runs || H.boot.failed || H.sp.down then stay s
  else match code, H.pins.input h .seal with
    | some k, some i =>
      if !H.pins.analog h i then stay s
      else
        let x := k.toNat * 125
        let s := s.putHalf h { H with pins := { H.pins with adc := Sparse.set zeroNat H.pins.adc i k.toNat } }
        .next (s.setBand h (sealBand x) (x / 32))
    | none, _ => .next (s.senseSeal h)
    | some _, none => stay s

/-- PRESENCE_STATUS (R533). -/
def State.presenceBytes (s : State) : Bytes :=
  let p := s.presence
  let H := s.sealHalf
  let mode := match s.inCharge with | some h => (s.half h).pins.strapMode | none => s.east.pins.strapMode
  let st := if p.lockdown then 2 else if p.openAt.isSome then 1 else 0
  leBytes 1 mode ++ leBytes 1 st ++ leBytes 1 p.source ++ leBytes 1 p.tamper.toNat ++ leBytes 4 s.grantLeft ++ leBytes 4 H.ohms ++
    leBytes 1 H.band ++ [0, 0, 0] ++ leBytes 8 p.tamperAt
def execPresenceStatus (id tm : Nat) (s : State) : Res := opcode 0x0704 id tm (fun s c _ => s.done c s.presenceBytes) s
/-- PRESENCE_END (R529). -/
def execPresenceEnd (id tm : Nat) (s : State) : Res := opcode 0x0705 id tm (fun s c _ => (s.endGrant 4).done c []) s

end Sys2Proof.Machine
end

