-- ==== Sys2Proof/Machine/Flash.lean ====
section
/-! DEFINITION. The boot flash: images and their checks, choice of slots, staging, commit, copy, trial and fallback, settings and training
tables (R515 to R525, R535). -/
namespace Sys2Proof.Machine
open Sys2Proof

/-- The bytes of a slot of a component (R515). -/
def slotSize (k : Nat) : Nat :=
  match k with
  | 1 | 2 => 4 * 2 ^ 20
  | 3 => 2 ^ 20
  | 4 => 256 * 2 ^ 10
  | _ => 512 * 2 ^ 10
/-- The size of the staging area. -/
def stagingSize : Nat := 16 * 2 ^ 20
/-- The fields of an image header (R517). -/
def imgVersion (b : Bytes) : Nat := leAt b 0x0C 4
def imgCompat (b : Bytes) : Nat := leAt b 0x10 2
def imgSigner (b : Bytes) : Nat := leAt b 0x13 1
def imgLength (b : Bytes) : Nat := leAt b 0x14 4
def imgSver (b : Bytes) : Nat := leAt b 0x18 2
/-- Checks 7: the signature under the key of SIGNER, or, for tables that the half wrote itself, the CRC-32 that stands in for it
(R518, R520, R523). -/
def Firmware.signed (f : Firmware) (b : Bytes) : Bool :=
  if imgSigner b = 0 then decide (leAt b 0x50 4 = crc32 (slice b 0 0x50))
  else ecdsaOk (Sparse.get keyReset f.keys (imgSigner b)) (sha384 (slice b 0 0x50)) (beNat (slice b 0x50 48)) (beNat (slice b 0x80 48))
/-- The first check of R520 that an image fails, for component `k`; `len` is LEN of a commit, and `own` admits SIGNER 0. -/
def Firmware.badImage (f : Firmware) (b : Bytes) (k : Nat) (len : Option Nat) (own : Bool) : Option Nat :=
  if slice b 0 8 ≠ "DNFWIMG1".toList.map (fun c => BitVec.ofNat 8 c.toNat) ∨ leAt b 0x12 1 ≠ 1 then some 1
  else if leAt b 8 2 ≠ 0x0256 then some 2
  else if leAt b 0x0A 1 ≠ 0xA1 then some 3
  else if leAt b 0x0B 1 ≠ k then some 4
  else if decide (slotSize k < 256 + imgLength b) || decide (len.getD (256 + imgLength b) ≠ 256 + imgLength b) then some 5
  else if !(own && decide (k = 5) && decide (imgSigner b = 0)) && (decide (imgSigner b < f.keyFloor) || decide (imgSigner b = 0) || decide (4 < imgSigner b)) then some 6
  else if !f.signed b then some 7
  else if sha384 (slice b 0 0x20 ++ slice b 256 (imgLength b)) ≠ slice b 0x20 48 then some 8
  else none

def Firmware.comp (f : Firmware) (k : Nat) : Component := Sparse.get compReset f.comps k
/-- A component's directory entry, written where it changes (R516): the generation then rises. -/
def Firmware.putComp (f : Firmware) (k : Nat) (c : Component) : Firmware :=
  if f.comp k = c then f else { f with comps := Sparse.set compReset f.comps k c, gen := (f.gen + 1) % 2 ^ 32 }
def Component.slot (c : Component) (i : Nat) : Slot := if i = 0 then c.a else c.b
def Component.putSlot (c : Component) (i : Nat) (x : Slot) : Component := if i = 0 then { c with a := x } else { c with b := x }
def Component.mark (c : Component) (i state : Nat) : Component := c.putSlot i { c.slot i with state := state }
/-- The active image of a component, if the half holds one. -/
def Firmware.image (f : Firmware) (k : Nat) : Option Bytes :=
  let x := (f.comp k).slot (f.comp k).active
  if x.state = 1 ∨ x.state = 3 then some x.image else none

/-- The slot that a start takes for component `k` (R523): none where no slot passes; whether a fallback took place. -/
def Firmware.choose (f : Firmware) (k : Nat) : Firmware × Option Nat × Bool :=
  let c := f.comp k
  let drop (c : Component) (i : Nat) : Component := if (c.slot i).state = 3 then c.mark i 4 else c
  let c := drop (drop c 0) 1
  let ok (c : Component) (i : Nat) : Bool := (f.badImage (c.slot i).image k none true).isNone
  let first := if c.a.state = 2 then 0 else if c.b.state = 2 then 1 else c.active
  let x := c.slot first
  if (x.state = 1 ∨ x.state = 2) ∧ ok c first = true then
    (f.putComp k (if x.state = 2 then c.mark first 3 else { c with active := first }), some first, false)
  else
    let c := if x.state = 0 then c else c.mark first 4
    let o := 1 - first
    if (c.slot o).state = 1 ∧ ok c o = true then (f.putComp k { c with active := o }, some o, true)
    else (f.putComp k (if (c.slot o).state = 1 then c.mark o 4 else c), none, true)
/-- The slots that brought the half to READY become active, and those they replace valid (R523). -/
def Firmware.settle (f : Firmware) : Firmware :=
  [1, 2, 3, 4, 5].foldl (fun f k =>
    let c := f.comp k
    if c.a.state = 3 then f.putComp k { c.mark 0 1 with active := 0 }
    else if c.b.state = 3 then f.putComp k { c.mark 1 1 with active := 1 } else f) f
/-- The settings block migrated to what a component-1 image expects (R525). -/
def Firmware.migrate (f : Firmware) (slot : Nat) : Firmware :=
  let v := imgSver ((f.comp 1).slot slot).image
  if f.sver < v then { f with sver := v, setGen := f.setGen + 1 } else f
/-- The settings block rewritten with what the port now has (R525). -/
def Half.saveSettings (H : Half) : Half :=
  let n := H.net
  { H with fw := { H.fw with setGen := H.fw.setGen + 1, setSubs := n.subs.map (fun p => (p.1, { SubPort.reset with mac := p.2.mac, ip4 := p.2.ip4, ip6 := p.2.ip6 })),
                             setCfg := { mode := n.mode, foEn := n.foEn, fb := n.fb, foScale := n.foScale, idle := n.idle } } }

/-- FW_STAGE (R519): `data` are the bytes read from ADDR; the sectors touched are erased to ones. -/
def State.fwStage (s : State) (c : Cmd) (h : HalfId) (data : Bytes) : State :=
  let p := c.params
  let o := leAt p 4 4
  let n := leAt p 16 4
  let H := s.half h
  s.checked c (halfByte p ++ zeros p 1 3 ++ [(decide (o ≤ stagingSize), 4), (decide (o + n ≤ stagingSize), 16)] ++ zeros p 20 4) (fun s =>
    if H.fw.waiting ≠ 0 then s.fail c stBadState 3
    else if data.length ≠ n then s.fail c stDmaError 0
    else if n = 0 then s.done c []
    else
      let a := o / 65536 * 65536
      let z := roundUp (o + n) 65536
      let m := H.fw.staging.writeBytes a (List.replicate (z - a) 0xFF)
      (s.putHalf h { H with fw := { H.fw with staging := m.writeBytes o data } }).done c [])
def execFwStage (id : Nat) (data : Bytes) (tm : Nat) (s : State) : Res := opcode 0x0701 id tm (fun s c h => s.fwStage c h data) s

/-- The state checks of R521: the DETAIL of the first case that applies. -/
def State.commitBad (s : State) (h : HalfId) (k : Nat) (b : Bytes) : Option Nat :=
  let H := s.half h
  let P := s.half (HalfId.peer h)
  let peer := if P.sp.down || P.boot.failed || decide (P.auth.role = .isolated) then none else P.fw.image k
  let apart (x y : Nat) : Bool := decide (x + 1 < y) || decide (y + 1 < x)
  if s.inCharge = some h ∧ (match peer with | some x => decide (imgVersion x < imgVersion b) | none => false) = true then some 1
  else if (match peer with | some x => apart (imgCompat x) (imgCompat b) | none => false) then some 2
  else if H.fw.waiting ≠ 0 then some 3
  else if k = 1 ∧ imgSver b < H.fw.sver then some 4
  else if s.safe then some 5
  else none
/-- FW_COMMIT (R518, R520, R521). From SAFE on it completes with BAD_STATE whatever its image (R512, R568). -/
def State.fwCommit (s : State) (c : Cmd) (h : HalfId) : State :=
  let p := c.params
  let k := leAt p 1 1
  let n := leAt p 4 4
  let H := s.half h
  s.checked c (if s.safe then [] else halfByte p ++ [(decide (1 ≤ k) && decide (k ≤ 5), 1)] ++ zeros p 2 2) (fun s =>
    let b := H.fw.staging.readBytes 0 (min stagingSize (256 + imgLength (H.fw.staging.readBytes 0 256)))
    match H.fw.badImage b k (some n) false with
    | some d => if s.safe then s.fail c stBadState (s.safeDetail c h) else s.fail c stBadImage d
    | none => match s.commitBad h k b with
      | some d => s.fail c stBadState d
      | none =>
        let floor := if (leAt b 0x1A 1).testBit 0 then max H.fw.keyFloor (imgSigner b) else H.fw.keyFloor
        let H := ({ H with fw := { H.fw with waiting := k, waitLen := n, keyFloor := floor } }.lifeAdd 0x34 4 1).lifeDue
        (s.putHalf h H).done c (leBytes 4 (imgVersion b)))
def execFwCommit (id tm : Nat) (s : State) : Res := opcode 0x0702 id tm (fun s c h => s.fwCommit c h) s

/-- The slot table of R535. -/
def Firmware.table (f : Firmware) : Bytes :=
  let ver (x : Slot) : Nat := if x.state = 0 ∨ x.state = 4 then 0 else imgVersion x.image
  let com (x : Slot) : Nat := if x.state = 0 ∨ x.state = 4 then 0 else imgCompat x.image
  let row (k : Nat) : Bytes :=
    let c := f.comp k
    leBytes 1 k ++ leBytes 1 c.active ++ leBytes 1 c.a.state ++ leBytes 1 c.b.state ++ leBytes 4 (ver c.a) ++ leBytes 4 (ver c.b) ++
      leBytes 2 (com c.a) ++ leBytes 2 (com c.b) ++ leBytes 4 f.gen ++ leBytes 4 0
  leBytes 1 f.keyFloor ++ leBytes 1 f.waiting ++ leBytes 2 f.sver ++ leBytes 4 0 ++ [1, 2, 3, 4, 5].flatMap row
/-- FW_QUERY (R535). -/
def State.fwQuery (s : State) (c : Cmd) (h : HalfId) : State :=
  s.checked c (halfByte c.params ++ zeros c.params 1 3) (fun s => s.done c (s.half h).fw.table)
def execFwQuery (id tm : Nat) (s : State) : Res := opcode 0x0703 id tm (fun s c h => s.fwQuery c h) s

/-- The slot of a component that is not active. -/
def Component.other (c : Component) : Nat := 1 - c.active
/-- FW_COPY (R522): after READY a waiting image goes into the inactive slot, is checked again and marked trial. -/
def execFwCopy (h : HalfId) (tm : Nat) (s : State) : Res :=
  let s := s.at tm
  let H := s.half h
  let f := H.fw
  if !s.runs || !H.serves || !H.boot.ready || !f.copyDue || decide (f.waiting = 0) then stay s
  else
    let b := f.staging.readBytes 0 f.waitLen
    let c := f.comp f.waiting
    let ok := (f.badImage b f.waiting none false).isNone
    let f := { f.putComp f.waiting (c.putSlot c.other { state := if ok then 2 else 4, image := b }) with waiting := 0, waitLen := 0, copyDue := false }
    .next (s.putHalf h { H with fw := f })

/-- TRIAL_RESTART (R469, R523): the processor in charge first passes the charge on with PASS; then it stops and restarts into the trial
slot. -/
def execTrialRestart (h : HalfId) (tm : Nat) (s : State) : Res :=
  let s := s.at tm
  let H := s.half h
  let c := H.fw.comp 1
  if !s.runs || !H.serves || !H.boot.ready || decide (c.a.state ≠ 2 ∧ c.b.state ≠ 2) || decide (0 < H.auth.passLeft) then stay s
  else if H.auth.role = .inCharge then .next (s.putHalf h { H with auth := { H.auth with passLeft := 5 } })
  else
    let i := if c.a.state = 2 then 0 else 1
    let f := { H.fw.putComp 1 (c.mark i 3) with restart := some s.time, prevSlot := c.active }
    .next (s.putHalf h { H with fw := f, sp := { H.sp with spRestart := true, spFault := none, spTime := s.time },
                                auth := { H.auth with role := if H.auth.role = .isolated then .isolated else .starting, claiming := none } })
/-- TRIAL_RESTART_TIMEOUT (R523): after 40 ms the boot ROM restarts the pair from the previous slot and refuses the trial one. -/
def execTrialRestartTimeout (h : HalfId) (tm : Nat) (s : State) : Res :=
  let s := s.at tm
  let H := s.half h
  match H.fw.restart with
  | none => stay s
  | some t =>
    if !s.runs || decide (s.time < t + 40000000) then stay s
    else
      let c := H.fw.comp 1
      let c := if c.a.state = 3 then c.mark 0 4 else if c.b.state = 3 then c.mark 1 4 else c
      .next (s.putHalf h { H with fw := { H.fw.putComp 1 { c with active := H.fw.prevSlot } with restart := none } })

/-- TRAINING_TABLES_WRITE (R523): after a full training the half's own tables go to the inactive slot of component 5, with SIGNER 0 and a
CRC-32 for a signature, and are marked trial. -/
def execTrainingTablesWrite (h : HalfId) (version : BitVec 32) (body : Bytes) (tm : Nat) (s : State) : Res :=
  let s := s.at tm
  let H := s.half h
  if !s.runs || !H.serves || !H.boot.ready || !H.fw.tables || decide (slotSize 5 < 256 + body.length) then stay s
  else
    let c := H.fw.comp 5
    let compat := match H.fw.image 5 with | some b => imgCompat b | none => 0
    let a := "DNFWIMG1".toList.map (fun c => BitVec.ofNat 8 c.toNat) ++ leBytes 2 0x0256 ++ leBytes 1 0xA1 ++ leBytes 1 5 ++ leBytes 4 version.toNat ++
      leBytes 2 compat ++ leBytes 1 1 ++ leBytes 1 0 ++ leBytes 4 body.length ++ leBytes 2 0 ++ leBytes 1 0 ++ List.replicate 5 0
    let hd := a ++ sha384 (a ++ body)
    let b := hd ++ leBytes 4 (crc32 hd) ++ List.replicate 172 0 ++ body
    .next (s.putHalf h { H with fw := { H.fw.putComp 5 (c.putSlot c.other { state := 2, image := b }) with tables := false } })

end Sys2Proof.Machine
end

