-- ==== Sys2Proof/Machine/Monitor.lean ====
section
/-! DEFINITION. Monitors, core voltage, throttle ladder and lifetime record: their events and their commands (R470 to R492). -/
namespace Sys2Proof.Machine
open Sys2Proof

/-- The monitors of a class (R470): their number, their records by index, and the distance at which a crossing is forgotten (R473). -/
def monCount (k : Nat) : Nat := match k with | 0 => 32 | 1 => 24 | _ => 64
def Monitors.get (m : Monitors) (k i : Nat) : Monitor :=
  match k with
  | 0 => Sparse.get thermalReset m.thermal i
  | 1 => Sparse.get (voltageReset m.io33) m.voltage i
  | _ => Sparse.get ringReset m.ring i
def Monitors.put (m : Monitors) (k i : Nat) (x : Monitor) : Monitors :=
  match k with
  | 0 => { m with thermal := Sparse.set thermalReset m.thermal i x }
  | 1 => { m with voltage := Sparse.set (voltageReset m.io33) m.voltage i x }
  | _ => { m with ring := Sparse.set ringReset m.ring i x }
def monMargin (k : Nat) : Int := match k with | 0 => 16 | 1 => 40 | _ => 10
/-- A 16-bit reading or limit of a class: thermal ones are signed (R470). -/
def monWord (k v : Nat) : Int := if k = 0 then signed 16 v else (v : Int)

def Half.setMon (H : Half) (m : Monitors) : Half := { H with mon := m }
def State.setMon (s : State) (h : HalfId) (m : Monitors) : State := s.putHalf h ((s.half h).setMon m)
/-- DATA of a MONITOR event (R483). -/
def monData (kind cls idx value stage source : Nat) : Nat :=
  kind + cls * 2 ^ 4 + idx * 2 ^ 8 + value % 2 ^ 16 * 2 ^ 16 + stage * 2 ^ 32 + source * 2 ^ 34
/-- A MONITOR event after which the half stands at stage `stage` of the ladder. -/
def State.monEventAt (s : State) (h : HalfId) (stage kind cls idx : Nat) (value : Int) (source : Nat) : State :=
  s.event h 0x000A 0xFFFF 0 (monData kind cls idx (unsigned 16 value) stage source)
def State.monEvent (s : State) (h : HalfId) (kind cls idx : Nat) (value : Int) (source : Nat) : State :=
  s.monEventAt h (s.half h).mon.stage kind cls idx value source

/-- The lowest stage that a half may hold (R475, R477). -/
def Monitors.floor (m : Monitors) : Nat := if m.floor2 then 2 else if m.avsFault then 1 else 0
/-- The half at another stage of the ladder (R479, R480, R483). -/
def State.setStage (s : State) (h : HalfId) (k : Nat) : State :=
  let m := (s.half h).mon
  if m.stage = k then s
  else
    let m : Monitors := { m with stage := k, stageAt := s.time, ladderAt := if k = 3 ∨ m.stage = 3 then s.time else m.ladderAt }
    (s.setMon h m).monEvent h 2 0 0 (s.half h).thalf 0
def stageEnter (k : Nat) : Int := match k with | 1 => 1080 | 2 => 1136 | _ => 1184
def stageLeave (k : Nat) : Int := match k with | 1 => 1048 | 2 => 1104 | _ => 1152
/-- The stage after an update: one step up or down by T_half, and at once the lowest that the half may hold (R475, R477, R479). -/
def Half.nextStage (H : Half) (time : Nat) : Nat :=
  let m := H.mon
  let t := H.thalf
  if m.stage < m.floor then m.floor
  else if m.stage < 3 ∧ stageEnter (m.stage + 1) ≤ t then m.stage + 1
  else if 0 < m.stage ∧ t < stageLeave m.stage ∧ m.floor < m.stage ∧ m.stageAt + 1000000000 ≤ time then m.stage - 1
  else m.stage
/-- The ladder at an update of the thermal sensors. -/
def State.ladder (s : State) (h : HalfId) : State := s.setStage h ((s.half h).nextStage s.time)

/-- A monitor's reading against its limits (R473): the monitor, and whether it has just crossed one. -/
def Monitor.read (x : Monitor) (k : Nat) (v : Int) : Monitor × Bool :=
  let lo := if v < x.low then true else if x.low + monMargin k ≤ v then false else x.below
  let hi := if x.high < v then true else if v + monMargin k ≤ x.high then false else x.above
  ({ x with value := v, below := lo, above := hi }, (lo && !x.below) || (hi && !x.above))
def insertInt (v : Int) : List Int → List Int
  | [] => [v]
  | a :: t => if v ≤ a then v :: a :: t else a :: insertInt v t
/-- Twice the median of the thermal sensors of a half, with an even number of them the mean of the middle two. -/
def Monitors.median2 (m : Monitors) : Int :=
  let l := ((List.range 32).map (fun i => (m.get 0 i).value)).foldl (fun a v => insertInt v a) []
  l.getD 15 0 + l.getD 16 0
/-- Whether a thermal sensor has just failed (R474), and its count of updates far from the median. -/
def Monitors.sensor (m : Monitors) (i : Nat) : Monitor × Bool :=
  let x := m.get 0 i
  let off := 2 * x.value - m.median2
  let n := if 320 < off ∨ off < -320 then x.streak + 1 else 0
  let bad := decide (x.value < -440) || decide (1400 < x.value) || decide (10 ≤ n)
  ({ x with streak := min n 10, failed := x.failed || bad }, bad && !x.failed)

/-- T_MAX brought up to T_half (R484). -/
def Half.lifeHot (H : Half) : Half :=
  if signed 16 (H.life.image.readNat 0x58 2) < H.thalf then H.lifePut 0x58 2 (unsigned 16 H.thalf) else H
/-- Thermal sensor `i` after an update, and whether it has just failed (R474, R475, R484). -/
def Half.thermal (H : Half) (i : Nat) : Half × Bool :=
  let r := H.mon.sensor i
  let m := H.mon.put 0 i r.1
  let n := ((List.range 32).filter (fun j => (m.get 0 j).failed)).length
  ((H.setMon { m with floor2 := m.floor2 || decide (8 < n) }).lifeHot, r.2)
/-- Whether the service processor of a half is at work on its monitors and record: the device runs, and the half is not held in reset. -/
def State.operates (s : State) (h : HalfId) : Bool := s.runs && !(s.half h).sp.down && !(s.half h).boot.failed
/-- MONITOR_UPDATE (R470, R473 to R475, R479, R483): the events carry the stage that stands after them. -/
def execMonitorUpdate (h : HalfId) (cls idx : Nat) (value : Int) (tm : Nat) (s : State) : Res :=
  if 3 ≤ cls ∨ monCount cls ≤ idx then noUnit
  else
    let s := s.at tm
    let v := if cls = 0 then clamp (-32768) 32767 value else clamp 0 65535 value
    if !s.operates h then stay s
    else
      let H := s.half h
      let r := (H.mon.get cls idx).read cls v
      let H := H.setMon (H.mon.put cls idx r.1)
      let p := if cls = 0 then H.thermal idx else (H, false)
      let k := if cls = 0 then p.1.nextStage s.time else p.1.mon.stage
      let s := s.putHalf h p.1
      let s := if r.2 then s.monEventAt h k 1 cls idx v 0 else s
      let s := if p.2 then s.monEventAt h k 3 0 idx v 0 else s
      .next (s.setStage h k)

/-- Of two lanes the one that the ladder pauses first (R480): the lower PRIO, then the higher number. -/
def ladderChoice (ls : List (Nat × Lane)) : Option (Nat × Lane) :=
  ls.foldl (fun a p => match a with
    | some q => if p.2.prio < q.2.prio ∨ (p.2.prio = q.2.prio ∧ q.1 < p.1) then some p else a
    | none => some p) none
/-- LADDER_PAUSE (R480, R481). -/
def execLadderPause (h : HalfId) (tm : Nat) (s : State) : Res :=
  let s := s.at tm
  let H := s.half h
  if s.operates h = false ∨ H.mon.stage ≠ 3 ∨ H.thalf < 1184 ∨ s.time < H.mon.ladderAt then stay s
  else match ladderChoice (H.held.filter (fun p => decide (p.2.phase = .running) && !p.2.pauseDue.any)) with
    | none => stay s
    | some (i, L) =>
      let s := s.putLane (laneNo h i) { L with pauseDue := { L.pauseDue with ladder := true } }
      let m := (s.half h).mon
      .next (s.setMon h { m with ladder := laneNo h i :: m.ladder, ladderAt := s.time + 100000000 })
/-- LADDER_RESUME (R480, R481): the lane paused last; one that a command has paused stays. -/
def execLadderResume (h : HalfId) (tm : Nat) (s : State) : Res :=
  let s := s.at tm
  let m := (s.half h).mon
  match m.ladder with
  | [] => stay s
  | l :: rest =>
    if s.operates h = false ∨ m.stage = 3 ∨ s.time < m.ladderAt then stay s
    else
      let L := s.lane l
      let s := s.setMon h { m with ladder := rest, ladderAt := s.time + 100000000 }
      let w := { L.pausedFor with ladder := false }
      if L.phase = .paused ∧ L.pausedFor.ladder = true then
        (if w.any || L.snap.isSome then .next (s.putLane l { L with pausedFor := w }) else .next (s.resumeLane l 4))
      else .next (s.putLane l { L with pauseDue := { L.pauseDue with ladder := false }, pausedFor := w })

/-- The core voltage that the service processor asks for next, in mV (R476). -/
def Half.avsTarget (H : Half) : Nat :=
  let sum := ((List.range 64).map (fun i => (H.mon.get 2 i).value)).foldl (· + ·) 0
  let base := if 64 * 10500 ≤ sum then 720 else if 64 * 9500 ≤ sum then 750 else 780
  base + (if H.thalf < 0 then 10 else 0)
def Half.avsNext (H : Half) : Nat :=
  let v := H.avsTarget
  let p := H.mon.avsMv
  if p < v then min v (p + 5) else max v (p - 5)
/-- Whether a read-back lies within 15 mV of the request. -/
def avsClose (mv readback : Nat) : Bool := decide (readback ≤ mv + 15) && decide (mv ≤ readback + 15)
/-- AVS_UPDATE (R476, R477). -/
def execAvsUpdate (h : HalfId) (acked : Bool) (readback tm : Nat) (s : State) : Res :=
  let s := s.at tm
  let H := s.half h
  if !s.operates h || !H.boot.ready || H.mon.avsFault then stay s
  else
    let mv := H.avsNext
    let n := if acked then 0 else H.mon.avsNacks + 1
    let off := if avsClose mv readback then none else some (H.mon.avsOffSince.getD s.time)
    let long := match off with | some t => decide (t + 10000000 ≤ s.time) | none => false
    let bad := decide (3 ≤ n) || long
    let s := (s.emit (.avs h mv)).setMon h { H.mon with avsMv := mv, avsNacks := n, avsOffSince := off, avsFault := bad }
    let k := max 1 (s.half h).mon.stage
    .next (if bad then (s.monEventAt h k 4 0 0 0 0).setStage h k else s)
/-- AVS_RETRY (R477). -/
def execAvsRetry (h : HalfId) (acked : Bool) (readback tm : Nat) (s : State) : Res :=
  let s := s.at tm
  let H := s.half h
  if !s.operates h || !H.mon.avsFault then stay s
  else
    let mv := H.avsNext
    let ok := acked && avsClose mv readback
    .next ((s.emit (.avs h mv)).setMon h { H.mon with avsMv := mv, avsNacks := 0, avsOffSince := none, avsFault := !ok })

/-- DROOP_START (R478): excursions on several monitors of one rail are one droop. -/
def execDroopStart (h : HalfId) (rail tm : Nat) (s : State) : Res :=
  if 8 ≤ rail then noUnit
  else
    let s := s.at tm
    let m := (s.half h).mon
    if !s.operates h || (assoc rail m.droops).isSome then stay s else .next (s.setMon h { m with droops := m.droops ++ [(rail, s.time)] })
/-- The bin of a depth in mV (R487). -/
def droopBin (d : Nat) : Nat :=
  if d < 35 then 0 else if d < 45 then 1 else if d < 60 then 2 else if d < 80 then 3 else if d < 100 then 4 else if d < 130 then 5
  else if d < 170 then 6 else 7
/-- DROOP_END (R478, R487): `depth` in mV below the droop target. -/
def execDroopEnd (h : HalfId) (rail depth tm : Nat) (s : State) : Res :=
  if 8 ≤ rail then noUnit
  else
    let s := s.at tm
    let m := (s.half h).mon
    match assoc rail m.droops with
    | none => stay s
    | some t =>
      if s.operates h = false ∨ depth < 25 ∨ s.time < t + 1000 then stay s
      else .next ((s.setMon h { m with droops := m.droops.filter (fun p => decide (p.1 ≠ rail)) }).lifeAdd h (0x2C0 + 32 * rail + 4 * droopBin depth) 4 1)

/-- The lanes of a half with their clocks stopped for good (R482). -/
def Half.frozen (H : Half) : Half :=
  let stop (L : Lane) : Lane := { L with phase := .paused, pausedFor := { L.pausedFor with fault := true } }
  H.held.foldl (fun H p => if p.2.live then H.putLane p.1 (stop p.2) else H) H
/-- THERMTRIP (R482, R489): the clocks of both halves stop, and the trip word of each counts it. Power-on reset releases it (R498), so none comes
about there. -/
def execThermtrip (tm : Nat) (s : State) : Res :=
  let s := s.at tm
  if s.thermtrip || !s.powered then stay s
  else
    let half (H : Half) : Half := let F := H.frozen
      { F with mon := { F.mon with trip := true }, life := { F.life with tripWord := satBits 32 (F.life.tripWord + 1) } }
    .next { s with thermtrip := true, east := half s.east, west := half s.west }

/-- The bin of the temperature histogram (R485). -/
def tempBin (t : Int) : Nat := (clamp 0 23 ((t + 320).fdiv 64)).toNat
/-- LIFE_SECOND (R484, R485, R490): a second of POWER_ON_S, of which every 600th has a flush. -/
def execLifeSecond (h : HalfId) (tm : Nat) (s : State) : Res :=
  let s := s.at tm
  if !s.operates h then stay s else
  let H := s.half h
  let k := H.mon.stage
  let H := (H.lifeAdd 0x18 8 1).lifeAdd (0x60 + 4 * tempBin H.thalf) 4 1
  let H := if k = 0 then H else H.lifeAdd (0xC0 + 4 * (k - 1)) 4 1
  .next (s.putHalf h { H with life := { H.life with seconds := H.life.seconds + 1, nextS := if H.life.nextS ≤ 1 then 600 else H.life.nextS - 1, due := H.life.due || decide (H.life.nextS ≤ 1) } })
/-- LIFETIME_FLUSH (R490): a flush that is due. -/
def execLifetimeFlush (h : HalfId) (tm : Nat) (s : State) : Res :=
  let s := s.at tm
  if s.operates h && (s.half h).life.due then .next (s.flush h false) else stay s
/-- MIRROR_WRITE (R491): the image of half `h` reaches the peer's mirror of the same parity, or is skipped. -/
def execMirrorWrite (h : HalfId) (reached : Bool) (s : State) : Res :=
  let H := s.half h
  match H.life.toMirror with
  | none => stay s
  | some b =>
    let g := HalfId.peer h
    let ok := reached && !(s.half g).sp.down
    let s := s.putHalf h { H with life := { H.life with toMirror := none, mirrorOk := ok } }
    if ok then
      let P := s.half g
      .next (s.putHalf g { P with life := { P.life with mram := Sparse.set noImage P.life.mram (2 + leAt b 8 8 % 2) (some b) } })
    else .next s

/-- MON_READ (R420, R472). -/
def State.monRead (s : State) (c : Cmd) (h : HalfId) : State :=
  let p := c.params
  let k := leAt p 1 1
  let a := leAt p 2 2
  let n := leAt p 4 2
  let most := if c.src = .smbus then 8 else 64
  let m := (s.half h).mon
  let entry (i : Nat) : Bytes := let x := m.get k i
    leBytes 2 (unsigned 16 x.value) ++ leBytes 2 (unsigned 16 x.low) ++ leBytes 2 (unsigned 16 x.high) ++
      leBytes 1 (x.below.toNat + 2 * x.above.toNat + 4 * x.failed.toNat) ++ [0]
  s.checked c (halfByte p ++ [(decide (k < 3), 1), (decide (a < monCount k), 2), (decide (1 ≤ n) && decide (n ≤ most) && decide (a + n ≤ monCount k), 4)] ++
    zeros p 6 2) (fun s => s.done c ((List.range n).flatMap (fun i => entry (a + i))))
def execMonRead (id tm : Nat) (s : State) : Res := opcode 0x0501 id tm (fun s c h => s.monRead c h) s
/-- MON_LIMITS (R473). -/
def State.monLimits (s : State) (c : Cmd) (h : HalfId) : State :=
  let p := c.params
  let k := leAt p 1 1
  let i := leAt p 2 2
  s.checked c (halfByte p ++ [(decide (k < 3), 1), (decide (i < monCount k), 2)]) (fun s =>
    let m := (s.half h).mon
    (s.setMon h (m.put k i { m.get k i with low := monWord k (leAt p 4 2), high := monWord k (leAt p 6 2) })).done c [])
def execMonLimits (id tm : Nat) (s : State) : Res := opcode 0x0502 id tm (fun s c h => s.monLimits c h) s

/-- The counters of the merged image that take the sum of the halves, as offset and width (R484, R492). -/
def lifeSums : List (Nat × Nat) :=
  [(0x2C, 4), (0x30, 4), (0x34, 4), (0x38, 4), (0x3C, 4), (0x40, 8), (0x48, 8), (0x50, 8)] ++
    (List.range 24).map (fun i => (0x60 + 4 * i, 4)) ++ (List.range 3).map (fun i => (0xC0 + 4 * i, 4)) ++ (List.range 8).map (fun i => (0xD0 + 4 * i, 4)) ++
    (List.range 48).map (fun i => (0x140 + 8 * i, 8)) ++ (List.range 64).map (fun i => (0x2C0 + 4 * i, 4))
def lifeMaxes : List (Nat × Nat) := [(0x18, 8), (0x20, 4), (0x24, 4), (0x28, 4)]
/-- The merged image (R492). -/
def mergedLife (a b : Mem) : Bytes :=
  let put (m : Mem) (q : Nat × Nat) (v : Nat) : Mem := m.writeBytes q.1 (leBytes q.2 (satBits (8 * q.2) v))
  let m := lifeSums.foldl (fun m q => put m q (a.readNat q.1 q.2 + b.readNat q.1 q.2)) []
  let m := lifeMaxes.foldl (fun m q => put m q (max (a.readNat q.1 q.2) (b.readNat q.1 q.2))) m
  let t := max (signed 16 (a.readNat 0x58 2)) (signed 16 (b.readNat 0x58 2))
  let m := put (put m (0x58, 2) (unsigned 16 t)) (8, 8) (a.readNat 8 8 + b.readNat 8 8)
  let x := ((lifeFixed .east m).writeBytes 0x13 [0xFF]).readBytes 0 0xFFC
  x ++ leBytes 4 (crc32 x)
/-- LIFE_READ (R420, R492). -/
def State.lifeRead (s : State) (c : Cmd) (h : HalfId) : State :=
  let p := c.params
  let k := leAt p 0 1
  let o := leAt p 4 4
  let n := leAt p 8 4
  let most := if c.src = .smbus then 64 else 4096
  s.checked c ([(decide (k ≤ 2), 0)] ++ zeros p 1 3 ++ [(decide (o < 4096), 4), (decide (1 ≤ n) && decide (n ≤ most) && decide (o + n ≤ 4096), 8)]) (fun s =>
    if k = 2 ∧ (s.half h).auth.role = .isolated then s.fail c stIsolated 0
    else
      let b := if k = 2 then mergedLife s.east.life.image s.west.life.image else lifeBytes h (s.half h).life.image
      s.done c (slice b o n))
def execLifeRead (id tm : Nat) (s : State) : Res := opcode 0x0503 id tm (fun s c h => s.lifeRead c h) s
/-- LIFE_FLUSH (R490): the halves both flush. -/
def execLifeFlush (id tm : Nat) (s : State) : Res :=
  opcode 0x0504 id tm (fun s c _ => ((s.flush .east false).flush .west false).done c []) s

end Sys2Proof.Machine
end

