-- ==== Sys2Proof/Machine/Rings.lean ====
section
/-! DEFINITION. The transports of commands: submission and completion rings, event rings, MSI-X, the control flow and SMBus
(R409, R410, R414 to R420, R429 to R431, R541, R569). -/
namespace Sys2Proof.Machine
open Sys2Proof

def Half.qp (H : Half) (q : Nat) : QueuePair := Sparse.get qpReset H.qps q
def Half.putQp (H : Half) (q : Nat) (x : QueuePair) : Half := { H with qps := Sparse.set qpReset H.qps q x }
def State.putQp (s : State) (h : HalfId) (q : Nat) (x : QueuePair) : State := s.putHalf h ((s.half h).putQp q x)
/-- The replies and results of ring commands that are not written any more (R416, R418): those completed leave, the others leave when
they complete. -/
def State.discardReplies (s : State) (p : Source → Bool) : State :=
  { s with cmds := (s.cmds.filter (fun c => !(p c.src && c.reply.isSome))).map (fun c => if p c.src then { c with discard := true } else c) }

/-- A write of SVC_QP_CFG (R416). -/
def QueuePair.configure (x : QueuePair) (v : Nat) : QueuePair :=
  let sq := v % 16
  let cq := v / 16 % 16
  let y := { x with vec := v / 256 % 64, ien := v.testBit 14 }
  if x.en then { y with en := v.testBit 15 }
  else
    let y := { y with sqlog := sq, cqlog := cq }
    if !v.testBit 15 then y
    else if cq < sq ∨ sq < 4 ∨ 12 < sq ∨ cq < 4 ∨ 12 < cq then { y with errCfg := true }
    else { y with en := true, errCfg := false, errDma := false, sqHead := 0, tail := 0, cqHead := 0, slot := 0, phase := true }
/-- SVC_QP_CFG of a queue pair written: clearing EN discards the replies of its commands. -/
def State.writeQpCfg (s : State) (h : HalfId) (q v : Nat) : State :=
  let x := (s.half h).qp q
  let t := s.putQp h q (x.configure v)
  if x.en && !v.testBit 15 then t.discardReplies (fun r => decide (r = .ring h q)) else t
/-- A write that reaches the registers of a queue pair, where `c` holds of its value. -/
def queueRow (h : HalfId) (q : Nat) (c : Bool) (f : State → State) (s : State) : Res :=
  if 32 ≤ q then noUnit else if !s.pfUp h || !c then stay s else .next (f s)
/-- QUEUE_PAIR_ENABLE: a write of SVC_QP_CFG with EN 1 (R416). -/
def execQueuePairEnable (h : HalfId) (q : Nat) (v : BitVec 32) (s : State) : Res :=
  queueRow h q (v.toNat.testBit 15) (fun s => s.writeQpCfg h q v.toNat) s
/-- QUEUE_PAIR_DISABLE: a write of SVC_QP_CFG with EN 0 (R416). -/
def execQueuePairDisable (h : HalfId) (q : Nat) (v : BitVec 32) (s : State) : Res :=
  queueRow h q (!v.toNat.testBit 15) (fun s => s.writeQpCfg h q v.toNat) s
/-- The index that a 12-bit INDEX keeps of a value, for a ring of 2^log entries (R415). -/
def ringIndex (log v : Nat) : Nat := v % 4096 % 2 ^ log
def QueuePair.writeTail (x : QueuePair) (v : Nat) : QueuePair := { x with tail := ringIndex x.sqlog v }
def QueuePair.writeHead (x : QueuePair) (v : Nat) : QueuePair := { x with cqHead := ringIndex x.cqlog v }
/-- SQ_TAIL_WRITE (R415). -/
def execSqTailWrite (h : HalfId) (q : Nat) (v : BitVec 32) (s : State) : Res :=
  queueRow h q true (fun s => s.putQp h q (((s.half h).qp q).writeTail v.toNat)) s
/-- CQ_HEAD_WRITE (R415). -/
def execCqHeadWrite (h : HalfId) (q : Nat) (v : BitVec 32) (s : State) : Res :=
  queueRow h q true (fun s => s.putQp h q (((s.half h).qp q).writeHead v.toNat)) s

def Half.putEv (H : Half) (e : EventRing) : Half := { H with ev := e }
/-- A write of SVC_EV_CFG (R416, R429). -/
def EventRing.configure (x : EventRing) (v : Nat) : EventRing :=
  let cq := v / 16 % 16
  let y := { x with vec := v / 256 % 64, ien := v.testBit 14 }
  if x.en then { y with en := v.testBit 15 }
  else
    let y := { y with sqlog := v % 16, cqlog := cq }
    if !v.testBit 15 then y
    else if cq < 4 ∨ 12 < cq then { y with errCfg := true }
    else { y with en := true, errCfg := false, head := 0, slot := 0, phase := true }
/-- A write that reaches the event-ring registers of a half. -/
def eventRow (h : HalfId) (c : Bool) (f : EventRing → EventRing) (s : State) : Res :=
  if !s.pfUp h || !c then stay s else .next (s.putHalf h ((s.half h).putEv (f (s.half h).ev)))
/-- EVENT_RING_ENABLE: a write of SVC_EV_CFG with EN 1 (R416, R429). -/
def execEventRingEnable (h : HalfId) (v : BitVec 32) (s : State) : Res := eventRow h (v.toNat.testBit 15) (fun e => e.configure v.toNat) s
def EventRing.writeHead (x : EventRing) (v : Nat) : EventRing := { x with head := ringIndex x.cqlog v }
/-- EV_HEAD_WRITE (R415, R429). -/
def execEvHeadWrite (h : HalfId) (v : BitVec 32) (s : State) : Res := eventRow h true (fun e => e.writeHead v.toNat) s

/-- Whether the slot that a ring is about to write is the one before its head (R417). -/
def ringFull (log slot head : Nat) : Bool := decide ((slot + 1) % 2 ^ log = head % 2 ^ log)
/-- The next event to be written: EVENT_LOST first where events have been lost (R429), else the oldest in the buffer. -/
def EventRing.take (e : EventRing) (time : Nat) : Option (Event × EventRing) :=
  if e.lostPend then
    some ({ code := 0x000E, lane := 0xFFFF, eseq := e.eseq + 1, frame := 0, time := time, data := e.lost },
      { e with lostPend := false, lost := 0, eseq := e.eseq + 1 })
  else match e.buf with
    | [] => none
    | x :: r => some (x, { e with buf := r })
/-- A slot of a ring passed: the next slot, and PHASE inverted at the wrap (R417). -/
def nextSlot (log slot : Nat) (phase : Bool) : Nat × Bool := if slot + 1 = 2 ^ log then (0, !phase) else (slot + 1, phase)
/-- EVENT_RING_WRITE (R417, R429, R431). -/
def execEventRingWrite (h : HalfId) (tm : Nat) (s : State) : Res :=
  let s := s.at tm
  let H := s.half h
  let e := H.ev
  if !s.pfUp h || !H.serves || !e.en || ringFull e.cqlog e.slot e.head then stay s
  else match e.take s.time with
    | none => stay s
    | some (x, f) =>
      let n := nextSlot e.cqlog e.slot e.phase
      let s := s.putHalf h (H.putEv { f with slot := n.1, phase := n.2 })
      let s := s.emit (.hostWrite h (e.base.toNat + 32 * e.slot) (x.bytes e.phase))
      let s := if e.lostPend then
          (match (s.half h).net.control with
          | some c => if c.mask.testBit x.code then
              let r := (s.half h).sendReply h s.time (replyBytes 0 0xFFFF 32 0 0 0 0 ++ x.bytes false)
              r.2.foldl State.emit (s.putHalf h r.1) else s
          | none => s) else s
      .next (if e.ien then s.message h e.vec else s)

/-- A pending message of a vector that nothing masks any more goes at once, or when the spacing ends (R569). -/
def State.sendPending (s : State) (h : HalfId) (vec : Nat) : State :=
  let H := s.half h
  let v := Sparse.get msixReset H.msix vec
  if v.pending && !v.masked && H.msixOpen then
    (s.putHalf h { H with msix := Sparse.set msixReset H.msix vec { v with pending := false } }).message h vec
  else s
/-- The mask of a vector's table entry cleared (R569). -/
def State.unmask (s : State) (h : HalfId) (vec : Nat) : State :=
  let H := s.half h
  let v := Sparse.get msixReset H.msix vec
  (s.putHalf h { H with msix := Sparse.set msixReset H.msix vec { v with masked := false } }).sendPending h vec
/-- A write of the message control word of the function's MSI-X capability: bit 15 enables MSI-X, bit 14 masks the function (R569; PRESUMED: the
bits are those of PCI Express). -/
def State.writeMsixControl (s : State) (h : HalfId) (v : Nat) : State :=
  (List.range 64).foldl (fun s k => s.sendPending h k) (s.putHalf h { s.half h with msixEnable := v.testBit 15, msixMask := v.testBit 14 })
/-- MSIX_VECTOR_UNMASK (R569): the mask of the vector's table entry is cleared. -/
def execMsixVectorUnmask (h : HalfId) (vec tm : Nat) (s : State) : Res :=
  if 64 ≤ vec then noUnit
  else
    let s := s.at tm
    if !s.pfUp h then stay s else .next (s.unmask h vec)
/-- MSIX_DEFERRED_SEND (R569): the spacing of a vector ends with a message due. -/
def execMsixDeferredSend (h : HalfId) (vec tm : Nat) (s : State) : Res :=
  if 64 ≤ vec then noUnit
  else
    let s := s.at tm
    let v := Sparse.get msixReset (s.half h).msix vec
    if !s.pfUp h || !v.due || (match v.lastSent with | some t => decide (s.time < t + 1000) | none => false) then stay s
    else .next ((s.putHalf h { s.half h with msix := Sparse.set msixReset (s.half h).msix vec { v with due := false } }).message h vec)

/-- A function-level reset of a PF (R411, R418). -/
def State.resetFunction (s : State) (h : HalfId) : State :=
  let H := s.half h
  let e := H.ev
  let ev : EventRing := { EventRing.reset with errCfg := e.errCfg, lost := e.lost, lostPend := e.lostPend, buf := e.buf, eseq := e.eseq }
  (s.putHalf h { H with qps := [], msix := [], msixEnable := false, msixMask := false, ev := ev }).discardReplies
    (fun r => match r with | .ring g _ => decide (g = h) | .control _ | .smbus => false)
/-- FUNCTION_LEVEL_RESET (R418, R498). -/
def execFunctionLevelReset (h : HalfId) (s : State) : Res := if !s.pfUp h then stay s else .next (s.resetFunction h)

/-- SUBMISSION_FETCH (R410, R414, R415, R418): the next entry of a queue pair, with its parameter block, as the host gives them;
none for a fetch that fails. -/
def execSubmissionFetch (h : HalfId) (q : Nat) (entry params : Option Bytes) (tm : Nat) (s : State) : Res :=
  if 32 ≤ q then noUnit
  else
    let s := s.at tm
    let x := (s.half h).qp q
    if !s.pfUp h || !(s.half h).serves || !(s.half h).boot.ready || !x.en || x.errDma || decide (x.sqHead = x.tail) ||
        decide (1024 ≤ s.cmds.length) || decide (2 ^ x.sqlog ≤ s.inFlight (.ring h q)) then stay s
    else
      let stopped := s.putQp h q { x with errDma := true }
      let passed := s.putQp h q { x with sqHead := ringIndex x.sqlog (x.sqHead + 1) }
      match entry with
      | none => .next stopped
      | some e =>
        let e := (e ++ List.replicate 64 0).take 64
        let b := e.take 32
        let n := hPlen b
        if n ≤ 32 then .next (passed.accept (.ring h q) b (slice e 32 n))
        else if 4096 < n then .next (passed.accept (.ring h q) b [])
        else match params with
          | none => .next stopped
          | some p => .next (passed.accept (.ring h q) b ((p ++ List.replicate n 0).take n))

/-- The first completed command of a queue pair. -/
def State.completed (s : State) (h : HalfId) (q : Nat) : Option (Cmd × Reply) :=
  s.cmds.findSome? (fun c => if c.src = .ring h q then c.reply.map (fun r => (c, r)) else none)
/-- The completion entry of a command (R417, R423). -/
def completionEntry (x : QueuePair) (q : Nat) (c : Cmd) (r : Reply) (status detail : Nat) : Bytes :=
  let flags := (decide (c.rmax < r.result.length)).toNat + 2 * (decide (r.status = stTagBusy)).toNat
  replyBytes status c.tag r.result.length flags detail x.sqHead (q + 2 ^ 15 * x.phase.toNat)
/-- COMPLETION_WRITE (R417, R418, R423, R424): `ok` says that the result was written. -/
def execCompletionWrite (h : HalfId) (q : Nat) (ok : Bool) (tm : Nat) (s : State) : Res :=
  if 32 ≤ q then noUnit
  else
    let s := s.at tm
    let x := (s.half h).qp q
    if !s.pfUp h || !(s.half h).serves || !x.en || ringFull x.cqlog x.slot x.cqHead then stay s
    else match s.completed h q with
      | none => stay s
      | some (c, r) =>
        let data := r.result.take c.rmax
        let lost := !ok && !data.isEmpty
        let s := if data.isEmpty || lost then s else s.emit (.hostWrite h c.raddr data)
        let entry := completionEntry x q c r (if lost then stDmaError else r.status) (if lost then 0 else r.detail)
        let n := nextSlot x.cqlog x.slot x.phase
        let s := ((s.dropCmd c.id).emit (.hostWrite h (x.cqBase.toNat + 16 * x.slot) entry)).putQp h q { x with slot := n.1, phase := n.2 }
        .next (if x.ien then s.message h x.vec else s)

/-- A packet that the device has no room for completes at once (R410). -/
def State.busy (s : State) (src : Source) (b p : Bytes) : State :=
  let c : Cmd := { id := s.nextCmd, src := src, opcode := hOp b, tag := hTag b, target := hTarget b, flags := hFlags b, params := p,
                   deadline := 0, raddr := 0, rmax := 0, header := b, begun := true, reply := none, discard := false }
  ({ s with cmds := s.cmds ++ [c], nextCmd := s.nextCmd + 1 }).finish c.id stBusy 0 []
/-- A packet from a source of `most` commands in flight. -/
def State.offer (s : State) (src : Source) (most : Nat) (b p : Bytes) : State :=
  if 1024 ≤ s.cmds.length ∨ most ≤ s.inFlight src then s.busy src b p else s.accept src b p
/-- A packet on the control flow of half `o` (R419). -/
def State.controlPacket (s : State) (o : HalfId) (c : Control) (p : Bytes) : State :=
  let b := p.take 32
  match c.kept.find? (fun k => decide (k.1 = b) && decide (s.time ≤ k.2.2 + 10000000000)) with
  | some k =>
    let r := (s.half o).sendReply o s.time k.2.1
    r.2.foldl State.emit (s.putHalf o r.1)
  | none => if s.cmds.any (fun d => decide (d.src = .control o) && decide (d.header = b)) then s else s.offer (.control o) 256 b (p.drop 32)
/-- COMMAND (R316, R321, R356, R419): the flow is bound to the source of its latest valid COMMAND. -/
def execCommand (h : HalfId) (rx : Rx) (tm : Nat) (s : State) : Res :=
  let s := s.at tm
  match s.receive h rx with
  | .bad k => .next (s.discard h k)
  | .msg _ (.viewer _ _) _ _ _ => stay s
  | .msg o (.control c) _ fl p =>
    let H := s.half o
    if !H.serves then stay s
    else
      let c := { c with flow := { fl with bound := some (rx.src, rx.sport) } }
      .next ((s.putHalf o { H with net := { H.net with control := some c } }).controlPacket o c p)

/-- The half that answers on SMBus: the one in charge, while its service processor runs (R409, R541, R468). -/
def State.smbusHalf (s : State) : Option HalfId :=
  match s.inCharge with
  | some h => if s.runs && (s.half h).serves then some h else none
  | none => none
/-- SMBUS_BLOCK_WRITE (R409, R410, R420): a packet of the length that PLEN gives, with a good PEC, and at most 4 in flight. -/
def execSmbusBlockWrite (packet : Bytes) (pecOk : Bool) (tm : Nat) (s : State) : Res :=
  let s := s.at tm
  match s.smbusHalf with
  | none => stay s
  | some _ =>
    if !pecOk || decide (packet.length < 32) || decide (packet.length ≠ 32 + hPlen packet) || decide (32 < hPlen packet) ||
        decide (4 ≤ s.inFlight .smbus) then .next (s.emit .smbusNack)
    else .next (s.offer .smbus 4 (packet.take 32) (packet.drop 32))
/-- SMBUS_BLOCK_READ (R420). -/
def execSmbusBlockRead (s : State) : Res :=
  match s.smbusHalf with
  | none => stay s
  | some _ => match s.smReplies with
    | [] => .next (s.emit (.smbus (List.replicate 16 0)))
    | r :: rest => .next ({ s with smReplies := rest }.emit (.smbus r))
/-- SMBUS_ALERT_RESPONSE (R541): answered while a reply waits. -/
def execSmbusAlertResponse (s : State) : Res :=
  match s.smbusHalf with
  | none => stay s
  | some h => if s.smReplies.isEmpty then stay s else .next (s.emit (.smbusAddress (0x58 + (s.half h).pins.strapAddr)))

end Sys2Proof.Machine
end

