-- ==== Sys2Proof/Machine/Pins.lean ====
section
/-! DEFINITION. MFIO pins: what a pad drives, writes of MFIO_MUX and MFIO_CFG, pin interrupts, AUTHORITY sampling, straps
(R540 to R552). -/
namespace Sys2Proof.Machine
open Sys2Proof

def Half.setPins (H : Half) (p : Pins) : Half := { H with pins := p }
/-- THERM_ALERT_N is pulled low (R541). -/
def Half.hot (H : Half) : Bool :=
  decide (1 ≤ H.mon.stage) || (List.range 32).any (fun i => let m := Sparse.get thermalReset H.mon.thermal i; m.below || m.above)
/-- The level of LEDj: low, high, or a square wave of 1 Hz or 4 Hz, whose phase the manual leaves open (a free value). -/
def State.ledLevel (s : State) (h : HalfId) (j : Nat) : Nat :=
  match bits (s.half h).pins.led (2 * j) 2 with
  | 0 => 0
  | 1 => 1
  | k => Config.freeNat (halfDraw h (s.half h) + k) % 2
/-- What a function drives on pin `i`: the value, and whether the output is on (R540, R541). -/
def State.fnDrive (s : State) (h : HalfId) (i : Nat) (f : PinFn) : Nat × Nat :=
  let H := s.half h
  let p := H.pins
  let pull (on : Bool) : Nat × Nat := (0, on.toNat)
  match f with
  | .gpio =>
    let v := (bit p.out i).toNat
    (v, if bit (p.conf h i) 7 ∧ v = 1 then 0 else (bit p.oe i).toNat)
  | .smbAlertN => pull (decide (s.smbusHalf = some h) && !s.smReplies.isEmpty)
  | .uartTx => (1, 1)
  | .safe => (1, s.safe.toNat)
  | .thermAlertN => pull H.hot
  | .led j => (s.ledLevel h j, 1)
  | .smbScl | .smbSda | .uartRx | .serviceBtn | .serviceJmp | .seal | .ejectN | .authority | .boardId _ => (0, 0)
/-- What the pad of a pin drives: nothing while PWRGD is low or in reset (R505, R543), its held state during a switch of function, nothing in analogue mode (R548, R550). -/
def State.padDrive (s : State) (h : HalfId) (i : Nat) : Nat × Nat :=
  let p := (s.half h).pins
  if !s.powered || s.inReset then (0, 0)
  else match p.held i with
  | some x => x
  | none => if p.analog h i then (0, 0) else s.fnDrive h i (p.fn h i)

/-- Whether a guarded write is let through (R542). -/
def State.mayGuard (s : State) : Bool := s.granted && !s.presence.lockdown
def State.deny (s : State) (h : HalfId) : State :=
  let H := s.half h
  s.putHalf h (H.setPins { H.pins with deny := satBits 16 (H.pins.deny + 1) })
/-- The function of a pin switched (R547, R548). -/
def State.switchPin (s : State) (h : HalfId) (i sel : Nat) : State :=
  let H := s.half h
  let p := H.pins
  let drive := s.padDrive h i
  let wasLive := p.live h
  let q : Pins := { p with mux := Sparse.set (muxReset h) p.mux i sel, holds := Sparse.set noHold p.holds i (some drive) }
  let q : Pins := { q with seen := q.seen ||| ((q.live h ||| wasLive) ^^^ wasLive) }
  (s.putHalf h ({ H.setPins q with draws := H.draws + 1 })).senseSeal h
/-- A write of MFIO_MUX[i] (R540, R542, R548). -/
def State.writeMux (s : State) (h : HalfId) (i v : Nat) : State :=
  let p := (s.half h).pins
  let sel := v % 8
  let guards := guardedFns.contains (p.fn h i) || (decide (sel < 4) && guardedFns.contains (pinFn i sel))
  if guards && !s.mayGuard then s.deny h
  else if 4 ≤ sel ∨ sel = p.sel h i then s
  else s.switchPin h i sel
/-- Whether the condition of MFIO_IRQ_CFG.MODE holds at a level after another (R551). -/
def irqHolds (mode : Nat) (old new : Bool) : Bool :=
  match mode with
  | 1 => !old && new
  | 2 => old && !new
  | 3 => old != new
  | 4 => new
  | 5 => !new
  | _ => false
/-- Bits of MFIO_IRQ_STAT set: a bit that goes from 0 to 1 sends the message of VEC where IEN is 1 (R552). -/
def State.raisePins (s : State) (h : HalfId) (m : Word) : State :=
  let H := s.half h
  let p := H.pins
  let s := s.putHalf h (H.setPins { p with irqStat := p.irqStat ||| m })
  if m &&& ~~~ p.irqStat ≠ 0 ∧ bit p.irqCtl 6 = true then s.message h (bits p.irqCtl 0 6) else s
/-- The pins whose level condition holds now (R551). -/
def Pins.levels (p : Pins) (h : HalfId) : Word :=
  (List.range 32).foldl (fun w i =>
    let k := Sparse.get zeroNat p.irqMode i
    if (k = 4 ∨ k = 5) ∧ p.analog h i = false ∧ irqHolds k (bit p.pad i) (bit p.pad i) = true then putBit w i true else w) 0
/-- A write of MFIO_CFG[i] (R542, R550); a level that ANA hid is tested again (R551). -/
def State.writePinCfg (s : State) (h : HalfId) (i v : Nat) : State :=
  let H := s.half h
  let p := H.pins
  if guardedFns.contains (p.fn h i) && !s.mayGuard then s.deny h
  else
    let w := w64 (v % 256)
    let adc := if bit w 6 then p.adc else Sparse.set zeroNat p.adc i 0
    let q : Pins := { p with cfg := Sparse.set (cfgReset h) p.cfg i w, adc := adc }
    ((s.putHalf h (H.setPins q)).raisePins h (q.levels h)).senseSeal h
/-- A host write that reaches the registers of pin `i` of a half. -/
def pinRow (h : HalfId) (i : Nat) (f : State → State) (s : State) : Res :=
  if 32 ≤ i then noUnit else if !s.pfUp h || !(s.half h).boot.ready then stay s else .next (f s)
/-- MFIO_MUX_WRITE (R542, R548). -/
def execMfioMuxWrite (h : HalfId) (i : Nat) (v : BitVec 32) (s : State) : Res := pinRow h i (fun s => s.writeMux h i v.toNat) s
/-- MFIO_CFG_WRITE (R542, R550). -/
def execMfioCfgWrite (h : HalfId) (i : Nat) (v : BitVec 32) (s : State) : Res := pinRow h i (fun s => s.writePinCfg h i v.toNat) s
/-- MFIO_SWITCH_HOLD_END (R548). -/
def execMfioSwitchHoldEnd (h : HalfId) (i : Nat) (s : State) : Res :=
  if 32 ≤ i then noUnit
  else
    let H := s.half h
    if (H.pins.held i).isNone then stay s
    else .next (s.putHalf h (H.setPins { H.pins with holds := Sparse.set noHold H.pins.holds i none }))

/-- PIN_INTERRUPT (R551, R552): the synchronised level of a pad, and the condition tested on it. -/
def execPinInterrupt (h : HalfId) (i : Nat) (level : Bool) (tm : Nat) (s : State) : Res :=
  if 32 ≤ i then noUnit
  else
    let s := s.at tm
    if !s.runs || (s.half h).boot.failed || (s.half h).sp.down then stay s
    else
      let H := s.half h
      let p := H.pins
      let old := bit p.pad i
      let s := s.putHalf h (H.setPins { p with pad := putBit p.pad i level })
      .next (if p.analog h i || !irqHolds (Sparse.get zeroNat p.irqMode i) old level then s else s.raisePins h (putBit 0 i true))

/-- What the two samples of AUTHORITY name (R466, R541): 0 undriven, 1 East, 2 West. -/
def authorityPin (up down : Bool) : Nat := if up && !down then 0 else if up then 2 else if down then 0 else 1
/-- The level of AUTHORITY as a half samples it: undriven where no pin gives it, low in analogue mode (R541, R550). -/
def State.authority (s : State) (h : HalfId) (up down : Bool) : Nat :=
  let p := (s.half h).pins
  match p.input h .authority with
  | some i => if p.analog h i then 1 else authorityPin up down
  | none => 0
/-- AUTHORITY_SAMPLE (R541): every 1 ms; `up` and `down` are the levels under the two pulls. -/
def execAuthoritySample (h : HalfId) (up down : Bool) (s : State) : Res :=
  let H := s.half h
  if !s.runs || !H.serves then stay s
  else .next (s.putHalf h { H with auth := { H.auth with pin := s.authority h up down } })

/-- The straps and SERVICE_JMP as half `h` latches them from the pins (R539, R543). -/
def Pins.latch (h : HalfId) (x : PinLevels) : Pins :=
  let b := 32 * halfNo h
  let at' (i : Nat) : Nat := (x.high.contains (b + i)).toNat
  let pref := at' 16
  let mode := at' 17 + 2 * at' 18
  let addr := at' 19 + 2 * at' 20 + 4 * at' 21
  { Pins.reset h with strapPref := pref, strapMode := mode, strapAddr := addr, ownPref := pref, ownMode := mode, ownAddr := addr,
                      jmp := decide (at' 6 = 0), v33 := (x.v33.contains (2 * halfNo h)).toNat + 2 * (x.v33.contains (2 * halfNo h + 1)).toNat,
                      pad := x.high.foldl (fun w n => if n / 32 = halfNo h then putBit w (n % 32) true else w) 0 }

end Sys2Proof.Machine
end

