-- ==== Sys2Proof/Machine/Power.lean ====
section
/-! DEFINITION. Power, resets and boot (R495 to R505, R524, R543, R544). -/
namespace Sys2Proof.Machine
open Sys2Proof

/-- The newest valid generation of its own image in a half's MRAM (R488), and whether the drain flush wrote it (R489). -/
def Lifetime.own (f : Lifetime) (h : HalfId) : Option Bytes := newerLife h (Sparse.get noImage f.mram 0) (Sparse.get noImage f.mram 1)
def Lifetime.drained (f : Lifetime) (h : HalfId) : Bool := match f.own h with | some b => (leAt b 0x15 1).testBit 0 | none => false
/-- A half under reset (R498): flash, MRAM, the retired units (R454), the rows that wait for hard repair and the levels of PERSTn_N and the clocks stay. -/
def Half.device (H : Half) (h : HalfId) (p : Pins) (b : Boot) : Half :=
  { Half.reset h with
    fw := { H.fw with copyDue := false, restart := none, tables := false },
    life := { Lifetime.reset with mram := H.life.mram, tripWord := H.life.tripWord },
    boot := { b with perstHeld := H.boot.perstHeld, ethClk := H.boot.ethClk, pcieClk := H.boot.pcieClk, cycle := b.cycle || H.boot.cycle },
    sp := { Sparing.reset h with pendingRows := H.sp.pendingRows, retired := H.sp.retired },
    auth := .reset h p.strapPref, pins := p, mon := { Monitors.reset with io33 := p.v33 } }
/-- The device at the end of a reset, its straps latched (R499): device time starts at 0 (R325), the grant has ended, lockdown stays. -/
def State.device (s : State) (e w : Half) : State :=
  let p := s.presence
  { s with time := 0, ready := false, safe := false, east := e, west := w, cmds := [], smReplies := [],
           presence := { Presence.reset with tamper := p.lockdown, tamperAt := if p.lockdown then p.tamperAt else 0, lockdown := p.lockdown } }

/-- The device in power-on reset (R498): everything but MRAM and flash is lost; what the settings block says of lockdown stays. -/
def State.powerDown (s : State) : State :=
  let b : Boot := { Boot.reset with stage := 0, running := false }
  { s.device (s.east.device .east (.reset .east) b) (s.west.device .west (.reset .west) b) with powered := false, thermtrip := false }
/-- PWRGD_FALL (R495, R498). -/
def execPwrgdFall (s : State) : Res := if s.powered then .next s.powerDown else stay s
/-- Lockdown lifted by the jumper (R532). -/
def State.unlockdown (s : State) : State :=
  let free (H : Half) : Half := { H with fw := { H.fw with setLockdown := false, setGen := H.fw.setGen + 1 } }
  ({ s with presence := { s.presence with lockdown := false, tamper := false, tamperAt := 0 }, east := free s.east, west := free s.west }).presEvent 6 0 0
/-- PWRGD_RISE (R489, R497, R498, R501, R532): stage 0 begins, the straps are latched. A lockdown ends where a half's jumper is fitted. Without REFCLK_AON the
device stays in power-on reset. -/
def execPwrgdRise (pins : PinLevels) (tm : Nat) (s : State) : Res :=
  let s := s.at tm
  if s.powered || pins.missing.contains .aon then stay s
  else
    let half (h : HalfId) : Half :=
      let H := s.half h
      let b : Boot := { Boot.reset with stage := 0, por := true, cycle := true, trip := decide (H.life.tripWord ≠ 0), safeLast := H.life.drained h }
      let D := H.device h (.latch h pins) b
      { D with boot := { D.boot with ethClk := !pins.missing.contains (.eth h), pcieClk := !pins.missing.contains (.pcie h) } }
    let lock := s.presence.lockdown || s.east.fw.setLockdown || s.west.fw.setLockdown
    let s := { s.device (half .east) (half .west) with powered := true, thermtrip := false }
    let s := { s with presence := { s.presence with lockdown := lock, tamper := lock } }
    .next (if lock && (s.east.pins.jmp || s.west.pins.jmp) then s.unlockdown else s)
/-- RESET_N_ASSERT (R498, R500): a device reset stops every lane at once. -/
def execResetNAssert (tm : Nat) (s : State) : Res :=
  let s := s.at tm
  if !s.powered || s.inReset then stay s
  else
    let b : Boot := { Boot.reset with stage := 0, running := false }
    .next { s.device (s.east.device .east (.reset .east) b) (s.west.device .west (.reset .west) b) with inReset := true }
/-- RESET_N_RELEASE (R498, R499, R501): the straps are latched and boot runs from stage 1. -/
def execResetNRelease (pins : PinLevels) (tm : Nat) (s : State) : Res :=
  let s := s.at tm
  if !s.inReset then stay s
  else
    let half (h : HalfId) : Half :=
      let H := s.half h
      H.device h (.latch h pins) { Boot.reset with stage := if H.boot.por then H.boot.stage else 1, por := H.boot.por, trip := H.boot.trip,
                                                   pinReset := true, safeLast := H.life.drained h }
    .next { s.device (half .east) (half .west) with inReset := false }

/-- PERST_RELEASE (R502). -/
def execPerstRelease (h : HalfId) (tm : Nat) (s : State) : Res :=
  let s := s.at tm
  .next (s.putHalf h { s.half h with boot := { (s.half h).boot with perstHeld := false } })
def Half.setBoot (H : Half) (b : Boot) : Half := { H with boot := b }
/-- The other half records a half that is down (R453, R503, R457): ACTION 9, class 13 (the manual names no class for it). -/
def State.noteDown (s : State) (h : HalfId) (cls : Nat) : State :=
  let g := HalfId.peer h
  if (s.half g).sp.down || (s.half g).boot.failed then s
  else s.recordOther g h cls 9 2
/-- A half held in reset (R453, R503): what has no reset (MRAM, flash, pins, the straps, what boot has found, the rows that wait for hard repair and the
retired units) stays, and it has no charge (R464). -/
def Half.heldInReset (H : Half) (h : HalfId) : Half :=
  let R := Half.reset h
  { R with sp := { R.sp with retired := H.sp.retired, pendingRows := H.sp.pendingRows }, auth := { R.auth with role := .starting, pref := H.auth.pref },
           life := { R.life with mram := H.life.mram, tripWord := H.life.tripWord }, fw := H.fw, pins := H.pins,
           mon := { R.mon with io33 := H.mon.io33 }, boot := H.boot }
/-- A boot that fails (R503, R504): the half is held in reset. -/
def State.failBoot (s : State) (h : HalfId) (err : Nat) : State :=
  let H := s.half h
  (s.putHalf h ((H.heldInReset h).setBoot { H.boot with failed := true, err := err, running := false })).noteDown h 13

/-- The slots of components chosen at a stage (R523): none where a component has no slot that passes. -/
def Half.chooseSlots (H : Half) (ks : List Nat) : Half × Bool :=
  ks.foldl (fun a k =>
    let r := a.1.fw.choose k
    ({ a.1 with fw := r.1, boot := { a.1.boot with fallback := a.1.boot.fallback || (r.2.2 && r.2.1.isSome) } }, a.2 && r.2.1.isSome)) (H, true)
/-- COMPAT compared at stage 5 (R524): the subordinate half takes its other valid slot of a component where that is near enough; false
where a component has none. -/
def Half.alignCompat (H : Half) (P : Half) : Half × Bool :=
  [1, 2, 3, 4, 5].foldl (fun a k =>
    let f := a.1.fw
    match f.image k, P.fw.image k with
    | some x, some y =>
      let near (u v : Nat) : Bool := decide (u ≤ v + 1) && decide (v ≤ u + 1)
      if near (imgCompat x) (imgCompat y) then a
      else
        let c := f.comp k
        let o := c.slot c.other
        if o.state = 1 ∧ near (imgCompat o.image) (imgCompat y) = true then ({ a.1 with fw := f.putComp k { c with active := c.other } }, a.2) else (a.1, false)
    | _, _ => a) (H, true)
/-- The straps in use after stage 5 (R544), and the roles (R464, R469): the half that AUTH_PREF names takes charge, unless it has heard ROLE 1 or the
other half has charge already. -/
def State.compareStraps (s : State) (h : HalfId) : State :=
  let H := s.half h
  let P := s.half (HalfId.peer h)
  let p := H.pins
  let q := P.pins
  let differ := !P.sp.down && !P.boot.failed && decide ((p.ownPref, p.ownMode, p.ownAddr) ≠ (q.ownPref, q.ownMode, q.ownAddr))
  let e := if h = .east then p else q
  let p := if differ then { p with strapPref := e.ownPref, strapMode := e.ownMode, strapAddr := e.ownAddr, mismatch := true } else p
  s.putHalf h { H with pins := p, auth := { H.auth with pref := p.strapPref, role := if (p.strapPref = 0) = (h = .east) ∧ H.auth.heardRole1 = false ∧ P.auth.role ≠ .inCharge then .inCharge else .subordinate } }

/-- The bits of a bit map of the record, as the units of a kind (R454, R484). -/
def lifeUnits (m : Mem) (u : UnitKind) (n : Nat) : List (UnitKind × Nat) :=
  ((List.range n).filter (fun i => (m.readNat (retiredAt u + i / 8) 1).testBit (i % 8))).map (fun i => (u, i))
/-- What a half has counted since reset added to the image that it loads (R484, R488). -/
def joinLife (m acc : Mem) : Mem :=
  let m := (lifeSums ++ lifeMaxes).foldl (fun m q => m.writeBytes q.1 (leBytes q.2 (satBits (8 * q.2) (m.readNat q.1 q.2 + acc.readNat q.1 q.2)))) m
  m.writeBytes 0x58 (leBytes 2 (unsigned 16 (max (signed 16 (m.readNat 0x58 2)) (signed 16 (acc.readNat 0x58 2)))))
/-- The lifetime image loaded at start (R488, R489): its trip word added and cleared, a power-on reset and an insertion counted. -/
def State.loadLife (s : State) (h : HalfId) : State :=
  let H := s.half h
  let P := s.half (HalfId.peer h)
  let own := H.life.own h
  let mirror := newerLife h (Sparse.get noImage P.life.mram 2) (Sparse.get noImage P.life.mram 3)
  let src := if own.isSome then 0 else if mirror.isSome && !P.sp.down then 1 else 2
  let b := match own, (if P.sp.down then none else mirror) with | some x, _ => x | none, some y => y | none, none => []
  let m := joinLife (Mem.writeBytes [] 0 b) H.life.image
  let safe := (leAt b 0x15 1).testBit 0
  let H : Half := { H with life := { H.life with image := m, gen := leAt b 8 8, source := src } }
  let H := H.lifeAdd 0x28 4 H.life.tripWord
  let H := if H.boot.cycle then H.lifeAdd 0x20 4 1 else H
  let H := if safe then H.lifeAdd 0x24 4 1 else H
  let H : Half := { H with life := { H.life with tripWord := 0 }, boot := { H.boot with cycle := false } }
  let old := H.sp.retired
  let us := lifeUnits m .laneUnit 132 ++ lifeUnits m .core 17 ++ lifeUnits m .serdes 8 ++ lifeUnits m .nearSram 128 ++ lifeUnits m .pseudoChannel 64 ++
    lifeUnits m .fordWire 64
  let new := old.filter (fun u => !us.contains u)
  let H := new.foldl (fun H u => H.lifeBit (retiredAt u.1) u.2) H
  let us := us ++ new
  let pcs := (us.filter (fun u => decide (u.1 = .pseudoChannel))).map (·.2)
  let spares := H.sp.spares.filter (fun u => !us.contains (.laneUnit, u - luBase h))
  let core := if us.contains (.core, 16) then none else H.sp.spareCore
  let p : Sparing := { H.sp with retired := us, spared := pcs, spares := spares, spareCore := core }
  let H : Half := { H with sp := p }
  let s := s.putHalf h H
  if src = 0 then s else s.monEvent h 5 0 0 0 src
/-- A retired lane unit or core that would serve gives its place to a spare (R454, R567). DESIGN CHOICE: each takes the first spare in the
order of the list; R16 does not say which. -/
def Half.replaceRetired (H : Half) (h : HalfId) : Half :=
  let H := (List.range 128).foldl (fun H n =>
    if H.isRetired .laneUnit (H.luOf h n - luBase h) then
      (match H.sp.spares with
      | u :: r => { H with sp := { H.sp with luMap := Sparse.set (luDefault h) H.sp.luMap n u, spares := r } }
      | [] => H)
    else H) H
  (List.range 16).foldl (fun H c =>
    if H.isRetired .core (H.coreOf c) then
      (match H.sp.spareCore with
      | some q => { H with sp := { H.sp with coreMap := Sparse.set coreDefault H.sp.coreMap c q, spareCore := none } }
      | none => H)
    else H) H
/-- The system threads started in contexts 14 and 15 of every core in service (R72, R501). -/
def Half.startSystem (H : Half) : Half := (List.range 16).foldl (fun H c => H.restartSystem c) H
/-- The port as the settings block has it (R501, R525). -/
def Half.loadSettings (H : Half) : Half :=
  let c := H.fw.setCfg
  { H with net := { H.net with mode := c.mode, foEn := c.foEn, fb := c.fb, foScale := c.foScale, idle := c.idle, subs := H.fw.setSubs } }

/-- Whether a stage may end: Ford trains, and the roles are taken, with both halves at stage 5, unless the other is down or has failed; a processor has
then listened for 20 µs (R469, R501). -/
def State.stageMayEnd (s : State) (h : HalfId) : Bool :=
  let P := s.half (HalfId.peer h)
  decide ((s.half h).boot.stage ≠ 5) ||
    ((decide (5 ≤ P.boot.stage) || P.boot.failed || P.sp.down) && decide ((s.half h).auth.claimUntil ≤ s.time))
/-- At stage 5 the service processor sends ROLE 3 and listens (R469). -/
def Half.listens (H : Half) (time : Nat) : Half :=
  { H with auth := { H.auth with role := .starting, heardRole1 := false, claiming := none, claimUntil := time + 20000 } }
/-- A stage of boot that ends as it should (R501): the work of it. -/
def State.endStage (s : State) (h : HalfId) (full : Bool) : State :=
  let H := s.half h
  let k := H.boot.stage
  let s := s.putHalf h (H.setBoot { H.boot with stage := if k = 6 ∧ H.boot.ports = true then 8 else min 8 (k + 1) })
  let H := s.half h
  match k with
  | 1 =>
    let r := H.chooseSlots [1]
    if r.2 then s.putHalf h { r.1 with fw := r.1.fw.migrate (if (r.1.fw.comp 1).a.state = 3 then 0 else if (r.1.fw.comp 1).b.state = 3 then 1 else (r.1.fw.comp 1).active) }
    else (s.putHalf h (r.1.setBoot { r.1.boot with stage := 1 })).failBoot h 1
  | 3 =>
    let r := H.chooseSlots [5]
    s.putHalf h (r.1.setBoot { r.1.boot with fullTrain := full || !r.2 })
  | 4 => s.putHalf h ({ H with sp := { H.sp with pendingRows := [] }, sysMem := [] }.listens s.time)
  | 5 =>
    let s := s.compareStraps h
    let H := s.half h
    let P := s.half (HalfId.peer h)
    if H.auth.role = .subordinate ∧ P.sp.down = false ∧ P.boot.failed = false then
      let r := H.alignCompat P
      let s := s.putHalf h r.1
      if r.2 then s else (s.putHalf h ((s.half h).setBoot { (s.half h).boot with stage := 5 })).failBoot h 6
    else s
  | 6 =>
    let r := H.chooseSlots [2, 3, 4]
    if r.2 then
      let s := (s.putHalf h r.1).loadLife h
      (s.putHalf h (((s.half h).replaceRetired h).startSystem)).checkHalt h
    else (s.putHalf h (r.1.setBoot { r.1.boot with stage := 6 })).failBoot h 6
  | 7 => s.putHalf h (H.loadSettings.setBoot { H.boot with ports := true })
  | 8 =>
    let b := { H.boot with stage := 8, ready := true, running := false, bootMs := (s.time - H.boot.since) / 1000000 % 2 ^ 32 }
    let f := { H.fw.settle with copyDue := decide (H.fw.waiting ≠ 0), tables := H.boot.fullTrain }
    s.putHalf h ({ H.setBoot b with fw := f }.flush h false)
  | _ => s
/-- BOOT_STAGE_COMPLETE (R501, R504, R523, R524). -/
def execBootStageComplete (h : HalfId) (r : StageResult) (tm : Nat) (s : State) : Res :=
  let s := s.at tm
  let H := s.half h
  if !s.runs || H.sp.down || H.boot.failed || H.boot.ready then stay s
  else match r with
    | .failed e => if 1 ≤ e ∧ e ≤ 6 then .next (s.failBoot h e) else stay s
    | .ports => if 3 ≤ H.boot.stage ∧ H.boot.stage ≤ 6 ∧ H.boot.ports = false then .next (s.putHalf h (H.loadSettings.setBoot { H.boot with ports := true })) else stay s
    | .done => if s.stageMayEnd h then .next (s.endStage h false) else stay s
    | .slots full => if s.stageMayEnd h then .next (s.endStage h full) else stay s
/-- DEVICE_READY (R503, R526): with the jumper as the source of presence, the grant opens. -/
def execDeviceReady (tm : Nat) (s : State) : Res :=
  let s := s.at tm
  match s.inCharge with
  | none => stay s
  | some h =>
    let H := s.half h
    let P := s.half (HalfId.peer h)
    let late := if H.boot.fallback || P.boot.fallback then 4150000000 else 4000000000
    if s.ready || !s.runs || !H.boot.ready || !(P.boot.ready || P.boot.failed || decide (H.boot.since + late ≤ s.time)) then stay s
    else
      let s := { s with ready := true }
      .next (if H.pins.strapMode = 1 ∧ (H.pins.jmp || P.pins.jmp) = true then s.grantAction 2 else s)

end Sys2Proof.Machine
end

