-- ==== Sys2Proof/Machine/Drain.lean ====
section
/-! DEFINITION. Drain and SAFE (R506 to R514). -/
namespace Sys2Proof.Machine
open Sys2Proof

def Half.setDrain (H : Half) (d : Drain) : Half := { H with drain := d }
def State.setDrain (s : State) (h : HalfId) (d : Drain) : State := s.putHalf h ((s.half h).setDrain d)
/-- Whether a half can take part in a drain. -/
def Half.drains (H : Half) : Bool := !H.sp.down && !H.boot.failed
/-- The lanes that a half has to drain. -/
def Half.toDrain (H : Half) (h : HalfId) : List Nat := H.held.map (fun p => laneNo h p.1)
/-- Free pool less the estimates of the images in pre-copy (R508, R511). -/
def Half.stagingFree (H : Half) : Nat :=
  H.poolFree - H.held.foldl (fun n p => n + (match p.2.snap with
    | some z => if z.drain && z.image.isNone then p.2.imageEstimate else 0
    | none => 0)) 0
/-- The drain of one lane begins where the free pool holds its estimate (R508, R513): a running lane in pre-copy, a paused one at its final
round; a lane that rolls back begins when it runs again. -/
def State.drainLane (s : State) (l : Nat) : State :=
  let L := s.lane l
  match L.snap with
  | some z => if z.drain then s else s.putLane l { L with snap := some { z with drain := true } }
  | none =>
    if L.drainFrozen || decide ((s.half (halfOf l)).stagingFree < L.imageEstimate) then s
    else if L.phase = .running ∨ L.phase = .paused then s.beginSnap l none true true
    else s.putLane l { L with snap := some { cmd := none, live := true, drain := true, rounds := 0, todo := 0, dirty := [], began := s.time, frozen := false, image := none } }
/-- The lanes of a half that wait for staging, in rising number. -/
def State.drainMore (s : State) (h : HalfId) : State :=
  if (s.half h).drain.buffersOver then s else (s.half h).drain.lanes.foldl (fun s l => s.drainLane l) s

/-- The bytes of a half's part of the buffer, and the offset at which the part begins (R509). -/
def Drain.part (d : Drain) : Nat := (d.size - 8192) / 8192 * 4096
def Drain.start (d : Drain) (h : HalfId) : Nat := if h = .east then 8192 else 8192 + d.part
/-- The entries of a half as the buffer is set: 1 for the lanes that drain, 3 for those whose images are lost already, 0 for the others. -/
def State.writeDirectory (s : State) (h : HalfId) : State :=
  let d := (s.half h).drain
  if !s.pfUp h then s
  else s.emit (.hostWrite h (d.addr + 4096 * halfNo h) ((List.range 128).flatMap (fun n =>
    let l := laneNo h n
    dirEntry (if d.lanes.contains l then 1 else if d.gone.contains l then 3 else 0) l 0 0 0)))
/-- A half with the buffer of the drain. -/
def State.setBuffer (s : State) (h : HalfId) (dest addr size : Nat) : State :=
  let d := (s.half h).drain
  let d : Drain := { d with buf := true, dest := dest, addr := addr, size := size }
  (s.setDrain h { d with nextOff := d.start h }).writeDirectory h
/-- A half begins to drain (R506, R508). -/
def State.beginDrain (s : State) (h : HalfId) (eject cmd : Bool) (began : Nat) : State :=
  let d : Drain := { Drain.reset with state := 1, eject := eject, cmd := cmd, began := began, lanes := (s.half h).toDrain h }
  (s.setDrain h d).drainMore h
/-- A DRAIN event (R514). -/
def State.drainEvent (s : State) (h : HalfId) (kind lane data : Nat) : State := s.event h 0x000B lane 0 (kind + min data 65535 * 2 ^ 16)
/-- The lanes that the device drains: those left, written and lost, and those of a half that has not been told yet. -/
def State.drainCount (s : State) : Nat :=
  let n (h : HalfId) : Nat :=
    let d := (s.half h).drain
    if d.state = 0 then (if (s.half h).drains then ((s.half h).toDrain h).length else 0) else d.lanes.length + d.written + d.lost
  n .east + n .west

/-- EJECT (R506): the half in charge starts the drain; a half whose peer is down drains alone. -/
def execEject (h : HalfId) (tm : Nat) (s : State) : Res :=
  let s := s.at tm
  let P := s.half (HalfId.peer h)
  if !s.runs || !(s.half h).serves || ((s.half h).pins.input h .ejectN).isNone then stay s
  else match (match s.inCharge with | some g => some g | none => if P.drains then none else some h) with
    | none => stay s
    | some g =>
      if (s.half g).drain.state ≠ 0 ∨ (g ≠ h ∧ (s.half h).auth.role = .isolated) then stay s
      else let s := s.beginDrain g true false s.time; .next (s.drainEvent g 1 0xFFFF s.drainCount)
/-- DRAIN_NOTICE (R506, R468): the other half's drain reaches a half, with its buffer if there is one. -/
def execDrainNotice (h : HalfId) (tm : Nat) (s : State) : Res :=
  let s := s.at tm
  let d := (s.half (HalfId.peer h)).drain
  if !s.runs || !(s.half h).drains || decide ((s.half h).drain.state ≠ 0) || decide (d.state = 0) then stay s
  else
    let s := s.beginDrain h d.eject d.cmd d.began
    .next (if d.buf then s.setBuffer h d.dest d.addr d.size else s)

/-- The estimate of the buffer bytes needed (R507). -/
def State.bufferEstimate (s : State) : Nat :=
  let sum (h : HalfId) : Nat := (s.half h).held.foldl (fun n p => n + roundUp p.2.imageEstimate 4096) 0
  8192 + 2 * max (sum .east) (sum .west)
/-- The result of DRAIN (R507). -/
def State.drainResult (s : State) : Bytes := leBytes 2 s.drainCount ++ List.replicate 6 0 ++ leBytes 8 s.bufferEstimate
/-- The buffer set on every half that drains, with its event (R507, R514). -/
def State.bufferEverywhere (s : State) (h : HalfId) (dest addr size : Nat) : State :=
  let s := [HalfId.east, HalfId.west].foldl (fun s g => if (s.half g).drain.state ≠ 0 then s.setBuffer g dest addr size else s) s
  s.drainEvent h 3 0xFFFF 0
/-- DRAIN (R506, R507). -/
def State.drainCmd (s : State) (c : Cmd) (h : HalfId) : State :=
  let p := c.params
  let a := leAt p 8 8
  let n := leAt p 16 8
  let d := (s.half h).drain
  s.checked c ([(decide (leAt p 0 1 ≤ 1), 0)] ++ zeros p 1 7 ++ [(decide (a % 4096 = 0), 8), (decide (n = 0) || (decide (n % 4096 = 0) && decide (8192 ≤ n)), 16)]) (fun s =>
    if d.state = 0 then
      let s := s.beginDrain h false true s.time
      let s := s.drainEvent h 2 0xFFFF s.drainCount
      let s := if n = 0 then s else s.bufferEverywhere h (leAt p 0 1) a n
      s.done c s.drainResult
    else if n ≠ 0 ∧ d.buf = false ∧ d.waitOver = false ∧ (s.half h).drainPhase ≠ 4 then
      let s := s.bufferEverywhere h (leAt p 0 1) a n
      s.done c s.drainResult
    else s.fail c stBadState (s.half h).drainPhase)
def execDrain (id tm : Nat) (s : State) : Res := opcode 0x0806 id tm (fun s c h => s.drainCmd c h) s

/-- DRAIN_STATUS (R514). -/
def State.drainStatus (s : State) (h : HalfId) : Bytes :=
  let d := (s.half h).drain
  let e := s.east.drain
  let w := s.west.drain
  let ms := if d.state = 0 then 0 else satBits 32 ((s.time - d.began) / 1000000)
  leBytes 1 (s.half h).drainPhase ++ leBytes 1 (if d.eject then 1 else if d.cmd then 2 else 0) ++ leBytes 1 d.buf.toNat ++ [0] ++
    leBytes 2 (if d.state = 0 then 0 else s.drainCount) ++ leBytes 2 (e.written + w.written) ++ leBytes 2 (e.lost + w.lost) ++ [0, 0] ++ leBytes 4 ms ++ leBytes 8 (e.bytes + w.bytes)
def execDrainStatus (id tm : Nat) (s : State) : Res := opcode 0x0807 id tm (fun s c h => s.done c (s.drainStatus h)) s

/-- The image of a lane is lost (R508, R510). -/
def State.loseImage (s : State) (l : Nat) : State :=
  let h := halfOf l
  let s := s.writeEntry l (dirEntry 3 l 0 0 0)
  let keep := match (s.lane l).snap with | some z => if z.cmd.isSome then some z else none | none => none
  let s := s.putLane l { s.lane l with snap := keep }
  let d := (s.half h).drain
  let s := s.setDrain h { d with lanes := d.lanes.filter (fun k => decide (k ≠ l)), lost := d.lost + 1, gone := d.gone ++ [l] }
  let s := s.drainEvent h 6 l 0
  s.sendViewers l false 4 ((s.lane l).frameNow % 2 ^ 32)
/-- An image written to the buffer with its entry (R509, R510). -/
def State.writeImage (s : State) (l : Nat) (b : Bytes) : State :=
  let h := halfOf l
  let d := (s.half h).drain
  let frame := leAt b 0x18 4
  let s := s.emit (.hostWrite h (d.addr + d.nextOff) b)
  let s := s.emit (.hostWrite h (d.addr + 32 * l) (dirEntry 2 l frame d.nextOff b.length))
  let s := s.putLane l { s.lane l with snap := none }
  let s := s.setDrain h { d with lanes := d.lanes.filter (fun k => decide (k ≠ l)), written := d.written + 1, bytes := d.bytes + b.length,
                                 nextOff := roundUp (d.nextOff + b.length) 4096 }
  let s := s.drainEvent h 5 l 0
  if d.dest = 0 then s.sendViewers l true 4 frame else s.sendViewers l false 2 frame
/-- IMAGE_WRITE_OUT (R508 to R510): a frozen lane's image is written, or lost where it cannot be. -/
def execImageWriteOut (l tm : Nat) (s : State) : Res :=
  if 256 ≤ l then noUnit
  else
    let s := s.at tm
    let h := halfOf l
    let d := (s.half h).drain
    let L := s.lane l
    if d.state = 0 ∨ d.lanes.contains l = false ∨ L.drainFrozen = false then stay s
    else if d.buffersOver then .next (s.loseImage l)
    else match (match L.snap with | some z => z.image | none => none) with
      | none => stay s
      | some b =>
        if !s.pfUp h then .next ((s.loseImage l).drainMore h)
        else if !d.buf then stay s
        else if d.start h + d.part < d.nextOff + b.length then .next ((s.loseImage l).drainMore h)
        else .next ((s.writeImage l b).drainMore h)

/-- A half without a buffer at the end of the wait, or whose PCIe link goes down: every lane freezes at its next frame boundary, and no image is kept (R508). -/
def State.giveUpBuffer (s : State) (h : HalfId) : State :=
  let d := (s.half h).drain
  if d.state = 0 ∨ d.state = 4 then s
  else
    let s := s.setDrain h { d with buffersOver := true }
    d.lanes.foldl (fun s l =>
      let L := s.lane l
      let snap := match L.snap with | some z => if z.cmd.isSome then some z else none | none => none
      s.putLane l (if L.phase = .paused then { L with snap := snap, pausedFor := { L.pausedFor with drain := true } }
        else { L with snap := snap, pauseDue := { L.pauseDue with drain := true } })) s
/-- PERST_ASSERT (R498, R500): the half's PCIe function is reset; images that a drain has not written are lost (R508). -/
def execPerstAssert (h : HalfId) (s : State) : Res :=
  let s := (s.resetFunction h).giveUpBuffer h
  .next (s.putHalf h { s.half h with boot := { (s.half h).boot with perstHeld := true } })
/-- REFCLK_LOSS (R497): without REFCLK_AON the device is in power-on reset; a missing Ethernet clock keeps the half's port down, a missing
PCIe clock its function. -/
def execRefclkLoss (clk : RefClk) (s : State) : Res :=
  match clk with
  | .aon => if s.powered then .next s.powerDown else stay s
  | .eth h =>
    let H := s.half h
    let H := (List.range 4).foldl (fun H k => H.putSub k { H.sub k with up := false }) H
    .next (s.putHalf h { H with boot := { H.boot with ethClk := false } })
  | .pcie h =>
    let s := (s.resetFunction h).giveUpBuffer h
    .next (s.putHalf h { s.half h with boot := { (s.half h).boot with pcieClk := false } })

/-- DRAIN_BUFFER_TIMEOUT (R508, R514). -/
def execDrainBufferTimeout (tm : Nat) (s : State) : Res :=
  let s := s.at tm
  match (match s.inCharge with | some h => some h | none => if s.east.drain.state ≠ 0 then some .east else some HalfId.west) with
  | none => stay s
  | some h =>
    let d := (s.half h).drain
    if d.state = 0 ∨ d.state = 4 ∨ d.buf = true ∨ d.waitOver = true ∨ s.time < d.began + 2000000000 then stay s
    else
      let waited (s : State) (g : HalfId) : State := s.setDrain g { (s.half g).drain with waitOver := true }
      .next ((waited (waited ((s.giveUpBuffer .east).giveUpBuffer .west) .east) .west).drainEvent h 4 0xFFFF 0)

/-- MOVE is repeated until the drain completes (R345). -/
def Half.endMoves (H : Half) : Half :=
  let still (x : Viewer) : Viewer := match x.rep with
    | .move _ _ => { x with rep := .none }
    | .none | .leave _ _ _ => x
  { H with net := { H.net with viewers := H.net.viewers.map (fun p => (p.1, p.2.map still)) } }
/-- SAFE (R490, R512): the half in charge, or the half that drains alone, has drained, and the other half has, is down, or is isolated
with 10 s gone. -/
def execSafe (tm : Nat) (s : State) : Res :=
  let s := s.at tm
  let pick := match s.inCharge with | some h => some h | none => if s.east.drains then (if s.west.drains then none else some .east) else some HalfId.west
  match pick with
  | none => stay s
  | some h =>
    let g := HalfId.peer h
    let P := s.half g
    let d := (s.half h).drain
    if !s.runs || decide ((s.half h).drainPhase ≠ 3) ||
        !(decide (P.drainPhase = 3) || !P.drains || (decide (P.auth.role = .isolated) && decide (d.began + 10000000000 ≤ s.time))) then stay s
    else
      let n := s.east.drain.written + s.west.drain.written
      let safe (s : State) (k : HalfId) : State :=
        let H := ((s.half k).flush k true).endMoves
        s.putHalf k (H.setDrain { H.drain with state := 4 })
      let s := safe s h
      let s := if P.drains && decide (P.auth.role ≠ .isolated) then safe s g else s
      .next ({ s with safe := true }.drainEvent h 7 0xFFFF n)

end Sys2Proof.Machine
end

