-- ==== Sys2Proof/Machine/HostRegs.lean ====
section
/-! DEFINITION. The registers of BAR0 of a half as the host reads and writes them: SVC, queue, network and MSI-X windows and the lane
apertures (R4 to R6, R16, R78, R385, R408, R411, R412, R469, R492, R502, R504, R514, R535, R552, R569). -/
namespace Sys2Proof.Machine
open Sys2Proof

/-- A register as a read finds it: its bytes and its value. -/
abbrev RegValue := Nat × Nat
/-- The register of an array at `base`, `count` registers of `width` bytes behind one another: its index. -/
def regIx (base count width off : Nat) : Option Nat :=
  if base ≤ off ∧ (off - base) % width = 0 ∧ (off - base) / width < count then some ((off - base) / width) else none

/-- SVC_ID (R16, R17). -/
def Half.idReg (H : Half) (h : HalfId) : Nat :=
  0x0256 + 0xA1 * 2 ^ 16 + halfNo h * 2 ^ 24 + min H.sp.spares.length 255 * 2 ^ 32 + H.sp.spareCore.isSome.toNat * 2 ^ 40
/-- SVC_SLOT_TABLE of a core (R78). -/
def Half.slotReg (H : Half) (c : Nat) : Nat :=
  (List.range 16).foldl (fun n p => n + (Sparse.get slotReset H.slots (16 * c + p) - 1) * 2 ^ (4 * p)) 0
/-- SVC_CTX of context `x` of a core (R78). DESIGN CHOICE: SLOTS of a system context reads 0; R78 does not say whether the field counts
the position that context 14 or 15 always owns. -/
def Half.ctxReg (H : Half) (k : Nat) : Nat :=
  if 14 ≤ k % 16 then
    let t := Sparse.get sysReset H.sys k
    let st := if !t.active then 0 else if t.waiting then 2 else if t.sysHeld then 5 else if t.loadHeld then 4 else 1
    2 ^ 10 + t.admitted.toNat * 2 ^ 12 + st * 2 ^ 16 + t.loads.length * 2 ^ 20 + t.sb.length * 2 ^ 24
  else
    let v := Sparse.get noCtx H.ctxs k
    if v = 0 then 0
    else
      let l := (v - 1) / 4
      let t := (v - 1) % 4
      let L := H.lane (l % 128)
      let x := L.thread t
      l % 256 + t * 2 ^ 8 + L.det.toNat * 2 ^ 11 + 2 ^ 12 + x.slots * 2 ^ 13 + L.threadState t * 2 ^ 16 +
        min x.loads.length 4 * 2 ^ 20 + min x.sb.length 8 * 2 ^ 24
/-- SVC_CKPT and SVC_CKPT_CNT of a lane (R408). -/
def Lane.ckptReg (L : Lane) : Nat :=
  let g := L.ckpts.filter (fun c => c.good && c.mem.isSome)
  (match L.goodCkpt with | some c => c.frame % 2 ^ 32 | none => 0) + min g.length 2 * 2 ^ 32 + min L.pages.length 32768 * 2 ^ 36 +
    satBits 12 (L.inputs.length / 8) * 2 ^ 52
def Lane.ckptCntReg (L : Lane) : Nat := satBits 32 L.lostCkpts + satBits 32 L.rollbacks * 2 ^ 32
/-- SVC_AUTH (R469). -/
def roleNo : Role → Nat
  | .subordinate => 0
  | .inCharge => 1
  | .isolated => 2
  | .starting => 3
/-- Whether a valid word has arrived on wire `w` within 10 µs; `lastValid` holds the time after it. -/
def Authority.wireUp (a : Authority) (w time : Nat) : Bool :=
  let t := Sparse.get zeroNat a.lastValid w
  decide (0 < t) && decide (time + 1 < t + 10000)
def Authority.reg (a : Authority) (time : Nat) : Nat :=
  (if a.role = .starting then 0 else roleNo a.role) + a.pref * 2 ^ 2 + a.pin * 2 ^ 3 + (a.wireUp 0 time).toNat * 2 ^ 5 + (a.wireUp 1 time).toNat * 2 ^ 6 +
    a.claims * 2 ^ 16 + a.resLast * 2 ^ 32 + a.outcome * 2 ^ 48
/-- SVC_FAULT_STAT (R469). -/
def Half.faultReg (H : Half) : Nat :=
  let bare := H.held.any (fun p => p.2.live && p.2.goodCkpt.isNone)
  H.sp.last % 2 ^ 32 + H.sp.records.length * 2 ^ 32 + (H.sp.recovering || H.sp.spRestart).toNat * 2 ^ 45 + bare.toNat * 2 ^ 46
/-- Seconds since the test of the least recently tested unit of a kind that is not retired. -/
def Half.testAge (H : Half) (tested : Sparse Nat) (u : UnitKind) (n time : Nat) : Nat :=
  (((List.range n).filter (fun i => !H.isRetired u i)).map (fun i => (time - Sparse.get zeroNat tested i) / 1000000000)).foldl max 0
/-- SVC_ROT (R469). -/
def Half.rotReg (H : Half) (time : Nat) : Nat :=
  let p := H.sp
  p.luNext + p.luHalt.toNat * 2 ^ 9 + p.coreNext * 2 ^ 16 + p.coreHalt.toNat * 2 ^ 21 + satBits 16 (H.testAge p.luTested .laneUnit 132 time) * 2 ^ 32 +
    satBits 16 (H.testAge p.coreTested .core 17 time) * 2 ^ 48
/-- MON_STAT and LIFE_STAT (R492). -/
def Half.monReg (H : Half) : Nat :=
  let m := H.mon
  let failed := ((List.range 32).filter (fun i => (Sparse.get thermalReset m.thermal i).failed)).length
  m.stage + m.avsFault.toNat * 2 ^ 2 + failed * 2 ^ 8 + unsigned 16 H.thalf * 2 ^ 16 + m.avsMv * 2 ^ 32 + min m.ladder.length 255 * 2 ^ 48
def Half.lifeReg (H : Half) : Nat :=
  let f := H.life
  f.gen % 2 ^ 32 + f.mirrorOk.toNat * 2 ^ 32 + f.source * 2 ^ 33 + f.due.toNat * 2 ^ 35 + f.nextS * 2 ^ 48
/-- Whether the service processor of a half runs: not where boot failed at stage 1 (R504). -/
def Boot.spRuns (b : Boot) : Bool := !(b.failed && decide (b.stage ≤ 1))
/-- SVC_BOOT, SVC_RESET_CAUSE (R504): where the service processor does not run, the boot ROM's value of ERR alone. -/
def State.bootReg (s : State) (h : HalfId) : Nat :=
  let b := (s.half h).boot
  if !b.spRuns then b.err * 2 ^ 8
  else b.stage + b.ready.toNat * 2 ^ 4 + s.ready.toNat * 2 ^ 5 + b.fullTrain.toNat * 2 ^ 6 + b.failed.toNat * 2 ^ 7 + b.err * 2 ^ 8 + b.fallback.toNat * 2 ^ 12 +
    b.bootMs * 2 ^ 32
def Boot.cause (b : Boot) : Nat := b.por.toNat + b.pinReset.toNat * 2 + b.trip.toNat * 4 + b.safeLast.toNat * 8
/-- SVC_DRAIN (R514). -/
def Half.drainReg (H : Half) (time : Nat) : Nat :=
  let d := H.drain
  H.drainPhase + d.eject.toNat * 2 ^ 3 + d.cmd.toNat * 2 ^ 4 + d.buf.toNat * 2 ^ 5 + d.dest * 2 ^ 6 + d.lanes.length * 2 ^ 16 +
    (if d.state = 0 then 0 else satBits 32 ((time - d.began) / 1000000)) * 2 ^ 32
/-- SVC_PRES and SVC_FW_STAT (R535). -/
def State.presReg (s : State) (h : HalfId) : Nat :=
  let p := s.presence
  let H := s.half h
  H.pins.strapMode + (if p.lockdown then 2 else p.openAt.isSome.toNat) * 2 ^ 2 + p.source * 2 ^ 4 + p.tamper.toNat * 2 ^ 6 + H.band * 2 ^ 8 +
    satBits 16 s.grantLeft * 2 ^ 16 + satBits 16 (H.ohms / 10) * 2 ^ 32
def Half.fwReg (H : Half) : Nat := H.fw.waiting + (H.boot.ready && H.fw.copyDue).toNat * 2 ^ 3 + H.fw.keyFloor * 2 ^ 8 + H.fw.sver * 2 ^ 16
/-- MFIO_STRAP (R552). -/
def Pins.strapReg (p : Pins) (h : HalfId) : Nat :=
  let board (j : Nat) : Nat := match p.input h (.boardId j) with | some i => (p.level h i).toNat * 2 ^ j | none => 0
  p.strapPref + p.strapMode * 2 + p.strapAddr * 8 + p.mismatch.toNat * 2 ^ 6 + p.jmp.toNat * 2 ^ 7 +
    (board 0 + board 1 + board 2 + board 3) * 2 ^ 8 + p.v33 * 2 ^ 12
/-- MFIO_PAD (R550, R552). -/
def Pins.padReg (p : Pins) (h : HalfId) : Nat := (List.range 32).foldl (fun n i => n + (p.level h i).toNat * 2 ^ i) 0
/-- The MFIO registers. -/
def Pins.reg (p : Pins) (h : HalfId) (off : Nat) : Option RegValue :=
  match regIx 0x3000 32 4 off, regIx 0x3080 32 4 off, regIx 0x3100 32 4 off, regIx 0x3200 32 4 off with
  | some i, _, _, _ => some (4, p.sel h i)
  | _, some i, _, _ => some (4, (p.conf h i).toNat)
  | _, _, some i, _ => some (4, Sparse.get zeroNat p.irqMode i)
  | _, _, _, some i => some (4, if p.analog h i then Sparse.get zeroNat p.adc i else 0)
  | _, _, _, _ => match off with
    | 0x3180 => some (4, p.out.toNat)
    | 0x3184 => some (4, p.oe.toNat)
    | 0x3188 => some (4, p.padReg h)
    | 0x318C => some (4, p.irqStat.toNat)
    | 0x3190 => some (4, p.irqCtl.toNat)
    | 0x3194 => some (4, p.live h + p.seen * 2 ^ 16)
    | 0x3198 => some (4, p.strapReg h)
    | 0x319C => some (4, p.led.toNat)
    | 0x31A0 => some (4, p.deny)
    | _ => none
/-- SVC_CORE_MAP of a core (R17): while a migration of R450 runs, the core left, with VALID 0. -/
def Half.coreMapReg (H : Half) (c : Nat) : Nat :=
  match H.sp.coreMove.find? (fun m => decide (m.1 = c)) with
  | some m => m.2.1
  | none => H.coreOf c + 2 ^ 31
/-- The SVC window. -/
def State.svcReg (s : State) (h : HalfId) (off : Nat) : Option RegValue :=
  let H := s.half h
  if 0x3000 ≤ off then H.pins.reg h off
  else match regIx 0x100 128 4 off, regIx 0x300 16 4 off, regIx 0x400 16 8 off, regIx 0x480 16 8 off, regIx 0x800 256 8 off with
  | some n, _, _, _, _ => some (4, H.luMapReg h n)
  | _, some c, _, _, _ => some (4, H.coreMapReg c)
  | _, _, some c, _, _ => some (8, H.slotReg c)
  | _, _, _, some c, _ => some (8, (Sparse.get zeroWord H.coreStat c).toNat)
  | _, _, _, _, some k => some (8, H.ctxReg k)
  | _, _, _, _, _ => match regIx 0x1000 128 8 off, regIx 0x1400 128 8 off, regIx 0x2040 16 8 off with
    | some n, _, _ => some (8, (H.lane n).ckptReg)
    | _, some n, _ => some (8, (H.lane n).ckptCntReg)
    | _, _, some k => some (8, Sparse.get zeroNat H.sp.masked k + Sparse.get zeroNat H.sp.detected k * 2 ^ 32)
    | _, _, _ => match off with
      | 0x0000 => some (8, H.idReg h)
      | 0x1800 => some (8, satBits 32 H.sp.memCorr + satBits 16 H.sp.memUncorr * 2 ^ 32 + satBits 8 H.sp.repairs * 2 ^ 48 +
          (H.sp.spared.any (· < 32)).toNat * 2 ^ 56 + (H.sp.spared.any (32 ≤ ·)).toNat * 2 ^ 57)
      | 0x2000 => some (8, H.auth.reg s.time)
      | 0x2008 => some (8, H.faultReg)
      | 0x2100 => some (8, H.rotReg s.time)
      | 0x2200 => some (8, H.monReg)
      | 0x2300 => some (8, H.lifeReg)
      | 0x2400 => some (8, s.bootReg h)
      | 0x2408 => some (4, H.boot.cause)
      | 0x2410 => some (8, H.drainReg s.time)
      | 0x2500 => some (8, s.presReg h)
      | 0x2508 => some (8, H.fwReg)
      | _ => none
/-- The queue window (R413, R429). -/
def QueuePair.cfgReg (x : QueuePair) : Nat := x.sqlog + x.cqlog * 2 ^ 4 + x.vec * 2 ^ 8 + x.ien.toNat * 2 ^ 14 + x.en.toNat * 2 ^ 15
def Half.queueReg (H : Half) (off : Nat) : Option RegValue :=
  let e := H.ev
  if off < 0x400 then
    let x := H.qp (off / 0x20)
    match off % 0x20 with
    | 0x00 => some (8, x.sqBase.toNat)
    | 0x08 => some (8, x.cqBase.toNat)
    | 0x10 => some (4, x.cfgReg)
    | 0x14 => some (4, x.tail)
    | 0x18 => some (4, x.cqHead)
    | 0x1C => some (4, x.sqHead + x.errCfg.toNat * 2 ^ 16 + x.errDma.toNat * 2 ^ 17)
    | _ => none
  else match off with
    | 0x800 => some (8, e.base.toNat)
    | 0x808 => some (4, e.sqlog + e.cqlog * 2 ^ 4 + e.vec * 2 ^ 8 + e.ien.toNat * 2 ^ 14 + e.en.toNat * 2 ^ 15)
    | 0x80C => some (4, e.head)
    | 0x810 => some (4, e.errCfg.toNat + e.lost * 2 ^ 16)
    | _ => none
/-- The registers of a viewer (R385). -/
def Viewer.regs (x : Viewer) (k : Nat) : Nat :=
  match k with
  | 0 => 1 + x.player.toNat * 2 + (if x.player then x.slot else 0) * 2 ^ 2 + x.flow.sub * 2 ^ 4 + x.lmin * 2 ^ 6 + x.lmax * 2 ^ 8 + x.halfOk.toNat * 2 ^ 10 +
      x.lane % 128 * 2 ^ 16 + x.budget % 2 ^ 24 * 2 ^ 32
  | 1 => x.flow.id + x.flow.pmax * 2 ^ 32 + x.pace * 2 ^ 48
  | 2 => x.state + x.level * 2 ^ 2 + x.half.toNat * 2 ^ 4 + satBits 20 ((x.rtt.getD 0) / 1000) * 2 ^ 8 +
      unsigned 32 (clamp (-(2 ^ 31 : Int)) (2 ^ 31 - 1) x.t) * 2 ^ 32
  | _ => satBits 32 x.dropCount + x.shown % 2 ^ 32 * 2 ^ 32
/-- The reset values of a viewer's registers. -/
def viewerRegReset (k : Nat) : Nat := match k with | 0 => 2 * 2 ^ 8 + 2 ^ 10 | 1 => 1400 * 2 ^ 32 | _ => 0
/-- The network window (R385). -/
def Half.netReg (H : Half) (off : Nat) : Option RegValue :=
  let n := H.net
  let mask (f : SubPort → Bool) : Nat := (List.range 4).foldl (fun m k => m + (f (H.sub k)).toNat * 2 ^ k) 0
  match regIx 0x40 8 8 off, regIx 0x1000 128 8 off, regIx 0x2000 8192 8 off with
  | some k, _, _ => some (8, Sparse.get zeroNat n.rxd k)
  | _, some l, _ =>
    let x := Sparse.get netLaneReset n.lanes l
    some (8, x.pacer + x.pen.toNat * 2 ^ 11 + (H.lane l).inputDelay % 256 * 2 ^ 12 + unsigned 16 x.lead * 2 ^ 32 + x.lock.lock * 2 ^ 48)
  | _, _, some i => match H.viewer (i / 4) with
    | some x => some (8, x.regs (i % 4))
    | none => some (8, viewerRegReset (i % 4))
  | _, _, _ => match off with
    | 0x0 => some (8, n.mode + n.foEn.toNat * 2 ^ 2 + n.fb * 2 ^ 8 + n.foScale * 2 ^ 16 + n.idle * 2 ^ 24)
    | 0x8 => some (8, mask (·.up) + mask (·.failed) * 2 ^ 4 + mask (·.carry) * 2 ^ 8 + n.lateTx * 2 ^ 32)
    | _ => none
/-- The MSI-X table and its pending bits (R411, R569). -/
def Half.msixReg (H : Half) (off : Nat) : Option RegValue :=
  if off < 0x400 then
    let v := Sparse.get msixReset H.msix (off / 16)
    match off % 16 with
    | 0 => some (4, v.addr.toNat % 2 ^ 32)
    | 4 => some (4, v.addr.toNat / 2 ^ 32)
    | 8 => some (4, v.data.toNat % 2 ^ 32)
    | 12 => some (4, v.masked.toNat)
    | _ => none
  else if off = 0x1000 then some (8, (List.range 64).foldl (fun n k => n + (Sparse.get msixReset H.msix k).pending.toNat * 2 ^ k) 0)
  else none
/-- A lane aperture (R412): the timers and the LIC as the periods before BVT have left them. -/
def Lane.apertureReg (L : Lane) (off : Nat) : Option RegValue :=
  match findReg laneMap off with
  | none => none
  | some (d, i) =>
    let v :=
      if L.phase = .stopped then (d.reset i).toNat
      else if 0x18000 ≤ off ∧ off < 0x1A000 then (L.op.reg off).toNat
      else if 0x38000 ≤ off then
        (if 0x38040 ≤ off ∧ off < 0x38058 then (putBits (L.unit.reg off) 28 4 (L.audio.heardInputs ((off - 0x38040) / 4))).toNat
        else if off = 0x38060 then L.audio.actBits
        else if off = 0x38068 then satBits 16 L.audio.timeouts + satBits 16 L.audio.clips * 2 ^ 16
        else if off = 0x38070 then L.audio.pendBits
        else if 0x38080 ≤ off then (Sparse.get weirReset L.audio.weirs ((off - 0x38080) / 8)).stat (L.rate ((off - 0x38080) / 8))
        else (L.unit.reg off).toNat)
      else ({ L with unit := { L.unit with tim := L.unit.tim.before L.bvt, lic := L.unit.lic.before L.bvt } } : Lane).loadReg L.bvt L.bvt off
    some (d.width, v % 2 ^ (8 * d.width))
/-- The register at an offset of BAR0, before READY only SVC_ID and SVC_BOOT (R411, R502). -/
def State.barReg (s : State) (h : HalfId) (off : Nat) : Option RegValue :=
  let H := s.half h
  if off < 0x10000 then
    (if H.boot.ready || (H.boot.spRuns && decide (off = 0)) || decide (off = 0x2400) then s.svcReg h off else none)
  else if !H.boot.ready then none
  else if off < 0x20000 then H.queueReg (off - 0x10000)
  else if off < 0x40000 then H.netReg (off - 0x20000)
  else if off < 0x50000 then H.msixReg (off - 0x40000)
  else if 0x1000000 ≤ off ∧ off < 0x3000000 then (H.lane ((off - 0x1000000) / 0x40000)).apertureReg ((off - 0x1000000) % 0x40000)
  else none
/-- The value of the register at an offset, 0 where none stands there, as REG_READ gives it (R65, R443). -/
def State.barRead (s : State) (h : HalfId) (off : Nat) : Nat := match s.barReg h off with | some r => r.2 | none => 0
/-- What a host read of `width` bytes at an offset of BAR0 returns: 0 where no register stands there or its width is another (R4, R65). -/
def State.hostRead (s : State) (h : HalfId) (off width : Nat) : Nat :=
  match s.barReg h off with
  | some r => if r.1 = width then r.2 else 0
  | none => 0
/-- What a host read of `n` bytes at an offset of the frame-tap window of lane `l` returns: the tap's ring from window offset 0 on, 0
beyond it (R411, R413). -/
def State.tapRead (s : State) (l off n : Nat) : Nat :=
  let o := (s.lane l).op
  leNat ((List.range n).map (fun i => if off + i < o.ringBytes then o.tapRing.read (o.ringBase + off + i) else 0))

/-- A host write to the MFIO registers (R542, R551, R552). -/
def State.writePin (s : State) (h : HalfId) (off v : Nat) : State :=
  let H := s.half h
  let p := H.pins
  let put (q : Pins) : State := s.putHalf h (H.setPins q)
  match regIx 0x3000 32 4 off, regIx 0x3080 32 4 off, regIx 0x3100 32 4 off with
  | some i, _, _ => s.writeMux h i v
  | _, some i, _ => s.writePinCfg h i v
  | _, _, some i =>
    let q : Pins := { p with irqMode := Sparse.set zeroNat p.irqMode i (v % 8) }
    (s.putHalf h (H.setPins q)).raisePins h (q.levels h)
  | _, _, _ => match off with
    | 0x3180 => put { p with out := w64 (v % 2 ^ 32) }
    | 0x3184 => put { p with oe := w64 (v % 2 ^ 32) }
    | 0x318C =>
      put { p with irqStat := p.irqStat &&& (~~~ (w64 v) ||| p.levels h) }
    | 0x3190 => put { p with irqCtl := w64 (v % 128) }
    | 0x3194 => put { p with seen := (w64 p.seen &&& ~~~ (w64 (v / 2 ^ 16 % 2 ^ 12))).toNat }
    | 0x319C => put { p with led := w64 (v % 256) }
    | _ => s
/-- A host write to the queue window (R413 to R416, R429). -/
def State.writeQueue (s : State) (h : HalfId) (off v : Nat) : State :=
  let H := s.half h
  let base : Word := w64 (v / 64 * 64)
  if off < 0x400 then
    let q := off / 0x20
    let x := H.qp q
    match off % 0x20 with
    | 0x00 => if x.en then s else s.putQp h q { x with sqBase := base }
    | 0x08 => if x.en then s else s.putQp h q { x with cqBase := base }
    | 0x10 => s.writeQpCfg h q v
    | 0x14 => s.putQp h q (x.writeTail v)
    | 0x18 => s.putQp h q (x.writeHead v)
    | _ => s
  else match off with
    | 0x800 => if H.ev.en then s else s.putHalf h (H.putEv { H.ev with base := base })
    | 0x808 => s.putHalf h (H.putEv (H.ev.configure v))
    | 0x80C => s.putHalf h (H.putEv (H.ev.writeHead v))
    | _ => s
/-- A host write to the MSI-X table (R569, the layout of PCI Express). -/
def State.writeMsix (s : State) (h : HalfId) (off v : Nat) : State :=
  let H := s.half h
  let k := off / 16
  let x := Sparse.get msixReset H.msix k
  let put (y : MsixVector) : State := s.putHalf h { H with msix := Sparse.set msixReset H.msix k y }
  if 0x400 ≤ off then s
  else match off % 16 with
    | 0 => put { x with addr := putBits x.addr 0 32 v }
    | 4 => put { x with addr := putBits x.addr 32 32 v }
    | 8 => put { x with data := w64 (v % 2 ^ 32) }
    | 12 => if v % 2 = 1 then put { x with masked := true } else if x.masked then s.unmask h k else s
    | _ => s

/-- A write that reaches a window of BAR0: discarded where its width is not the register's (R4). -/
def State.hostWrite (s : State) (h : HalfId) (reg : Option RegValue) (width : Nat) (f : State → State) : Res :=
  if !s.pfUp h then stay s
  else match reg with
    | some r => if r.1 = width then .next (f s) else stay s
    | none => stay s
/-- A game thread's write of a register, at once or as the entry of the queue that stands for it (R42, R64). -/
def Lane.threadWrite (L : Lane) (t stamp off width v : Nat) : Option (Lane × Nat) :=
  match findReg threadMap off with
  | none => none
  | some (d, _) =>
    if d.width ≠ width then none
    else L.viaQueue (fun e => !e.read && decide (e.off = off) && decide (e.thread = t) && decide (e.stamp = stamp) && decide (e.data = v))
      (fun A => A.store { thread := t, stamp := stamp, off := off, width := width, data := v, read := false, applied := false } (max stamp A.bvt))
/-- REGISTER_WRITE (R4 to R6, R64, R411 to R413): one to a frame-tap window is discarded. -/
def execRegisterWrite (w : RegWrite) (s : State) : Res :=
  let v := w.value.toNat % 2 ^ (8 * w.width)
  match w.space with
  | .thread l t stamp => if 4 ≤ t then noUnit else s.onLane l (fun L => L.threadWrite t stamp w.off w.width v)
  | .aperture l =>
    if 256 ≤ l then noUnit
    else if w.off = 0x18808 ∧ w.width = 8 ∧ s.pfUp (halfOf l) = true then execCpsTapIdxWrite l w.value s else stay s
  | .svc h => s.hostWrite h (if (s.half h).boot.ready then s.svcReg h w.off else none) w.width (fun s => s.writePin h w.off v)
  | .queue h => s.hostWrite h ((s.half h).queueReg w.off) w.width (fun s => s.writeQueue h w.off v)
  | .net _ => stay s
  | .tap l => if 256 ≤ l then noUnit else stay s
  | .msix h => s.hostWrite h ((s.half h).msixReg w.off) w.width (fun s => s.writeMsix h w.off v)
  | .msixControl h => s.hostWrite h (if w.off = 0 then some (2, 0) else none) w.width (fun s => s.writeMsixControl h v)

end Sys2Proof.Machine
end

