-- ==== Sys2Proof/Machine/Authority.lean ====
section
/-! DEFINITION. The two service processors: heartbeat words, claims and roles (R464 to R469), restart (R452) and the end of half
recovery (R453). -/
namespace Sys2Proof.Machine
open Sys2Proof

def Half.setAuth (H : Half) (a : Authority) : Half := { H with auth := a }
/-- Whether the service processor of a half runs with Towpath up (R465, R501). -/
def State.talks (s : State) (h : HalfId) : Bool := s.runs && (s.half h).serves && decide (5 ≤ (s.half h).boot.stage)
/-- A heartbeat word (R465). The CRC takes the three low bytes in order (DEDUCED). -/
def heartbeatWord (role claim pass seq : Nat) : Nat :=
  let w := seq + role * 2 ^ 8 + claim * 2 ^ 10 + pass * 2 ^ 11
  w + crc8 (leBytes 3 w) * 2 ^ 24
def Authority.word (a : Authority) (seq : Nat) : Nat := heartbeatWord (roleNo a.role) a.claiming.isSome.toNat (decide (0 < a.passLeft)).toNat seq
/-- HEARTBEAT_SEND (R465, R466, R469): one word on each Towpath wire; with the first that carries PASS the
processor gives the charge up (R464). -/
def execHeartbeatSend (h : HalfId) (tm : Nat) (s : State) : Res :=
  let s := s.at tm
  if !s.talks h then stay s
  else
    let H := s.half h
    let a := H.auth
    let q (w : Nat) : Nat := (Sparse.get zeroNat a.seqTx w + 1) % 256
    let seqTx := Sparse.set zeroNat (Sparse.set zeroNat a.seqTx 0 (q 0)) 1 (q 1)
    let gives := decide (0 < a.passLeft) && decide (a.role = .inCharge)
    let b := { a with seqTx := seqTx, passLeft := a.passLeft - 1, role := if gives then .subordinate else a.role }
    .next (((s.putHalf h (H.setAuth b)).emit (.heartbeat h 0 (a.word (q 0)))).emit (.heartbeat h 1 (a.word (q 1))))

/-- Whether a word is valid on wire `w` (R465): its CRC is right, and its SEQ comes after that of the last valid word, in serial
order (DEDUCED). `seqRx` holds one more than that SEQ, 0 before any. -/
def Authority.validWord (a : Authority) (w n : Nat) : Bool :=
  let last := Sparse.get zeroNat a.seqRx w
  let d := (n % 256 + 257 - last) % 256
  decide (crc8 (leBytes 3 n) = n / 2 ^ 24) && (decide (last = 0) || (decide (1 ≤ d) && decide (d < 128)))
/-- What a valid word does (R465 to R467, R469). -/
def Authority.hear (a : Authority) (w n time : Nat) : Authority :=
  let role := bits (w64 n) 8 2
  let claim := bit (w64 n) 10
  let pass := bit (w64 n) 11
  let a := { a with seqRx := Sparse.set zeroNat a.seqRx w (n % 256 + 1), lastValid := Sparse.set zeroNat a.lastValid w (time + 1), peerLost := false }
  if pass && decide (a.role ≠ .isolated) then { a with role := .inCharge, claiming := none }
  else if a.claiming.isSome then
    { a with heardAny := true, heardRole1 := a.heardRole1 || (decide (role = 1) && !claim), heardClaim := a.heardClaim || claim }
  else if a.role = .starting then { a with heardRole1 := a.heardRole1 || decide (role = 1) }
  else if a.role = .inCharge ∧ claim = true then { a with claiming := some time, heardAny := true, heardRole1 := false, heardClaim := true }
  else a
/-- HEARTBEAT_RECEIVE (R465): no word comes over a wire that is lost (R463). -/
def execHeartbeatReceive (h : HalfId) (wire : Nat) (word : BitVec 32) (tm : Nat) (s : State) : Res :=
  if 2 ≤ wire then noUnit
  else
    let s := s.at tm
    let H := s.half h
    if !s.talks h || decide (s.time < Sparse.get zeroNat H.auth.wireOff wire) || !H.auth.validWord wire word.toNat then stay s
    else .next (s.putHalf h (H.setAuth (H.auth.hear wire word.toNat s.time)))

/-- Whether a miss stands (R465): 10 µs without a valid word on either wire. -/
def Authority.missed (a : Authority) (time : Nat) : Bool := !a.wireUp 0 time && !a.wireUp 1 time
/-- A claim begins (R466). -/
def Authority.claim (a : Authority) (time : Nat) : Authority :=
  { a with claiming := some time, heardAny := false, heardRole1 := false, heardClaim := false, claims := satBits 16 (a.claims + 1) }
/-- HEARTBEAT_MISS (R466, R467). -/
def execHeartbeatMiss (h : HalfId) (tm : Nat) (s : State) : Res :=
  let s := s.at tm
  let H := s.half h
  let a := H.auth
  if !s.talks h || !a.missed s.time || a.claiming.isSome then stay s
  else match a.role with
    | .subordinate => .next (s.putHalf h (H.setAuth (a.claim s.time)))
    | .inCharge => if a.peerLost then stay s else .next ((s.putHalf h (H.setAuth { a with peerLost := true })).recordOther h (HalfId.peer h) 10 7 2)
    | .isolated | .starting => stay s

/-- What AUTHORITY says of half `h`: 0 nothing, 1 that it is named, 2 that the other is. -/
def namesHalf (h : HalfId) (pin : Nat) : Nat := if pin = 0 then 0 else if pin = halfNo h + 1 then 1 else 2
/-- The outcome of a claim and the role that it gives (R467). Where only a word without CLAIM from a processor that is not in charge was heard,
the table has no row: the claimant stays as it is, OUTCOME 0 (DESIGN CHOICE). -/
def Authority.outcomeOf (a : Authority) (h : HalfId) (pin : Nat) : Nat × Role :=
  let own (b : Bool) : Role := if b then .inCharge else .isolated
  if a.heardRole1 then (1, .subordinate)
  else if a.heardClaim then
    (if pin = 0 then (5, own (decide (a.pref = halfNo h))) else (4, own (decide (namesHalf h pin = 1))))
  else if a.heardAny then (0, a.role)
  else if namesHalf h pin = 2 then (3, .isolated) else (2, .inCharge)
/-- CLAIM_RESOLVE (R466, R467, R457): `up` and `down` are the levels of AUTHORITY under the two pulls. -/
def execClaimResolve (h : HalfId) (up down : Bool) (tm : Nat) (s : State) : Res :=
  let s := s.at tm
  let H := s.half h
  let a := H.auth
  match a.claiming with
  | none => stay s
  | some t =>
    if !s.talks h || decide (s.time < t + 8000) then stay s
    else
      let pin := s.authority h up down
      let r := a.outcomeOf h pin
      let b := { a with pin := pin, claiming := none, outcome := r.1, role := r.2, resLast := satBits 16 ((s.time - t) / 40), peerLost := a.peerLost || decide (r.1 = 2) }
      let s := s.putHalf h (H.setAuth b)
      .next (match r.1 with
        | 1 => s.recordOther h (HalfId.peer h) 12 1 0
        | 2 => s.recordOther h (HalfId.peer h) 10 7 2
        | _ => if r.2 = .isolated then s.recordOther h h 12 14 2 else s)

/-- ROLE_LISTEN_END (R469): a processor that has started and listened for 20 µs becomes subordinate; with a miss before it, it claims. At stage 5
of boot the roles are taken with that stage (R501). -/
def execRoleListenEnd (h : HalfId) (tm : Nat) (s : State) : Res :=
  let s := s.at tm
  let H := s.half h
  let a := H.auth
  if !s.talks h || decide (a.role ≠ .starting) || decide (H.boot.stage = 5) || decide (s.time < a.claimUntil) then stay s
  else
    let b := { a with role := .subordinate }
    .next (s.putHalf h (H.setAuth (if !a.heardRole1 && a.missed s.time then b.claim s.time else b)))

/-- The commands that half `h` had begun. -/
def State.begun (s : State) (h : HalfId) : List Nat :=
  (s.cmds.filter (fun c => c.begun && c.reply.isNone && decide (s.executor c = some h))).map (·.id)
/-- The snapshot work that a command of lane `l` had begun is given up. -/
def State.abandonSnap (s : State) (l : Nat) : State :=
  let L := s.lane l
  match L.snap with
  | none => s
  | some z =>
    if z.cmd.isNone then s
    else if L.phase = .paused then s.thaw l L.pausedFor.command
    else if z.drain then s.putLane l { L with snap := some { z with cmd := none } }
    else s.putLane l { L with snap := none, pauseDue := { L.pauseDue with drain := false } }
/-- Every command that had begun completes with FAULT (R452). -/
def State.faultBegun (s : State) (h : HalfId) (rec' : Nat) : State :=
  let s := ((s.half h).held.map (fun p => laneNo h p.1)).foldl State.abandonSnap s
  let H := s.half h
  let s := s.putHalf h { H with sp := { H.sp with tests := H.sp.tests.map (fun t => { t with cmd := none }) } }
  (s.begun h).foldl (fun s id => s.finish id stFault rec' []) s
/-- The record that a service processor writes of its own fault, with the time of its detection (R452, R457). -/
def State.recordOwn (s : State) (h : HalfId) (f : FaultInfo) (time flags : Nat) : State :=
  let s := s.countFault h f.cls false
  let old := s.repeatsOf h (halfNo h) f.cls f.unitNo
  s.record h { number := 0, half := halfNo h, cls := f.cls, action := 7, levee := 2, unitNo := f.unitNo, lane := 0xFFFF, frame := 0, time := time,
               syndrome := f.syndrome, repeats := (old + 1) % 65536, rflags := flags }
/-- The slot from which a planned restart has come up is active (R523, R525). -/
def Firmware.restarted (f : Firmware) : Firmware :=
  if f.restart.isNone then f
  else
    let c := f.comp 1
    let k := if c.a.state = 3 then 0 else 1
    if (c.slot k).state ≠ 3 then { f with restart := none }
    else { ({ f.putComp 1 { c.mark k 1 with active := k } with restart := none } : Firmware).migrate k with restart := none }
/-- The faults that have waited for the restart, each with the time of its detection (R452, R455). -/
def State.faultsLater (s : State) (h : HalfId) : List (Nat × LateFault) → State
  | [] => s
  | (t, f) :: rest =>
    if (s.half h).sp.spRestart then s.putHalf h { s.half h with sp := { (s.half h).sp with later := (t, f) :: rest } }
    else
      let u : State := { s with time := t }
      let v := match f with | .fault f => u.fault f 0 | .hbm q row e => u.hbmRead h q row e 0
      ({ v with time := s.time } : State).faultsLater h rest
/-- SP_RESTART_COMPLETE (R452, R457, R469, R523): the pair serves again, sends ROLE 3 and listens; the faults that have waited are handled. -/
def execSpRestartComplete (h : HalfId) (tm : Nat) (s : State) : Res :=
  let s := s.at tm
  let H := s.half h
  let p := H.sp
  let late := match H.fw.restart with | some t => decide (t + 40000000 < s.time) | none => false
  if !s.runs || !p.spRestart || p.down || H.boot.failed || late then stay s
  else
    let a := { H.auth with role := if H.auth.role = .isolated then .isolated else .starting, claiming := none, heardAny := false, heardRole1 := false,
                           heardClaim := false, claimUntil := s.time + 20000 }
    let sp := { p with spRestart := false, spFault := none, later := [] }
    let s := s.putHalf h { H with auth := a, sp := sp, fw := H.fw.restarted }
    let s := match p.spFault with
      | some f => (s.faultBegun h (p.last + 1)).recordOwn h f p.spTime p.spFlags
      | none => s.faultBegun h 0
    .next (s.faultsLater h p.later)

/-- A half that is down (R453): held in reset until device reset; the other half records it. -/
def State.goDown (s : State) (h : HalfId) : State :=
  let H := s.half h
  let ids := s.begun h
  let R := H.heldInReset h
  let D : Half := { R with sp := { R.sp with down := true }, boot := { Boot.reset with perstHeld := H.boot.perstHeld, ethClk := H.boot.ethClk, pcieClk := H.boot.pcieClk } }
  let s := (s.putHalf h D).noteDown h 11
  let s := ids.foldl (fun s id => s.finish id stFault (s.half (HalfId.peer h)).sp.last []) s
  { s with cmds := s.cmds.filter (fun c => match c.src with | .ring g _ | .control g => decide (g ≠ h) | .smbus => true) }
/-- HALF_RECOVERY_END (R453): with the domain relocked and every lane rolled back, within 100 ms; otherwise the half is down. -/
def execHalfRecoveryEnd (h : HalfId) (ok : Bool) (tm : Nat) (s : State) : Res :=
  let s := s.at tm
  let H := s.half h
  if !s.runs || !H.sp.recovering || H.sp.down then stay s
  else if !ok || decide (H.sp.spTime + 100000000 < s.time) then .next (s.goDown h)
  else if H.held.any (fun p => decide (p.2.phase = .rolling)) then stay s
  else .next (s.putHalf h { H with sp := { H.sp with recovering := false } })

end Sys2Proof.Machine
end

