-- ==== Sys2Proof/Machine/Cache.lean ====
section
/-! DEFINITION. The instruction cache and the data cache of each core (R80, R82, R89): their lines, what fills them, and what writes
do to them. -/
namespace Sys2Proof.Machine
open Sys2Proof

/-- Whether a line is line `n` of memory `space` in the cache of a core. -/
def CacheLine.isAt (x : CacheLine) (core space n : Nat) : Bool :=
  decide (x.core = core) && decide (x.space = space) && decide (x.line = n)
/-- Whether a line of core `core` falls in the set, of `sets`, of line `n` of memory `space`. -/
def CacheLine.inSet (x : CacheLine) (sets core space n : Nat) : Bool :=
  decide (x.core = core) && decide (Config.cacheIndex x.space x.line % sets = Config.cacheIndex space n % sets)

/-- The bytes of a line that a cache holds. -/
def findLine (c : List CacheLine) (core space n : Nat) : Option Bytes := (c.find? (fun x => x.isAt core space n)).map (·.data)
/-- A line enters a cache of `sets` sets and `ways` ways. DESIGN CHOICE: where its set is full, which line goes is the free number
`pick`; R80 and R89 give no rule of replacement. -/
def addLine (c : List CacheLine) (sets ways pick core space n : Nat) (d : Bytes) : List CacheLine :=
  let set := c.filter (fun x => x.inSet sets core space n)
  let c := if set.length < ways then c else match set[pick % ways]? with
    | some v => c.filter (fun x => !x.isAt v.core v.space v.line)
    | none => c
  c ++ [{ core := core, space := space, line := n, data := d }]
/-- A store of a thread of core `core` updates the line that it hits (R89). -/
def writeLine (c : List CacheLine) (core space a : Nat) (b : Bytes) : List CacheLine :=
  c.map (fun x => if x.core = core ∧ x.space = space ∧ overlaps a b.length (64 * x.line) 64 = true then
    { x with data := (List.range 64).map (fun i =>
      if a ≤ 64 * x.line + i ∧ 64 * x.line + i < a + b.length then b.getD (64 * x.line + i - a) 0 else x.data.getD i 0) }
  else x)

/-- A line read through the instruction cache of a core, 4 ways of 128 sets, or through its data cache, 8 ways of 64 sets: a miss brings
`mem`, what the fabric holds (R80, R89). -/
def Half.cachedLine (H : Half) (h : HalfId) (code : Bool) (core space n : Nat) (mem : Bytes) : Bytes × Half :=
  match findLine (if code then H.icache else H.dcache) core space n with
  | some d => (d, H)
  | none =>
    let pick := Config.freeNat (halfDraw h H)
    (mem, { H with
      icache := if code then addLine H.icache 128 4 pick core space n mem else H.icache
      dcache := if code then H.dcache else addLine H.dcache 64 8 pick core space n mem
      draws := H.draws + 1 })
/-- `n` bytes at `a`, within one line, read through the data cache of a core (R89); `rd` reads the fabric. -/
def Half.cachedRead (H : Half) (h : HalfId) (core space a n : Nat) (rd : Nat → Bytes) : Bytes × Half :=
  let r := H.cachedLine h false core space (a / 64) (rd (a / 64 * 64))
  (slice r.1 (a % 64) n, r.2)

/-- What a fetch in progress finds of writes to one 64-byte line of video RAM, `read` telling whether its request has read that line. -/
def fetchSees (view : Mem) (taken : List Nat) (read : Bool) (ws : List (Nat × Bytes)) (k : Nat) : Mem × List Nat :=
  if taken.contains k then (view, taken)
  else if read then (view, k :: taken)
  else (ws.foldl (fun m w => m.writeBytes (w.1 - 0x20000000) w.2) view, taken)
/-- Writes of a normal-mode lane to one 64-byte line of video RAM, as the line fetches and sound fetches in progress find them (R177,
R274): a request that has not read the line yet finds them. The manual does not give when a request reads: a free choice for each fetch,
kept for later writes to that line. -/
def Lane.fetchesSee (l : Nat) (L : Lane) (ws : List (Nat × Bytes)) : Lane :=
  match ws with
  | [] => L
  | w :: _ =>
    if L.det || decide (windowOf w.1 ≠ .video) then L
    else
      let free (i : Nat) : Bool := Config.freeBool (laneDraw l { L with draws := L.draws + i })
      let r := L.unit.ras
      let n := r.lines.length
      let one (q : LineFetch × Nat) : LineFetch :=
        if q.1.complete then q.1
        else let z := fetchSees q.1.view q.1.taken (free q.2) ws (w.1 / 64); { q.1 with view := z.1, taken := z.2 }
      let snd (q : SndLine × Nat) : SndLine :=
        if q.1.mil ≤ L.bvt then q.1
        else
          let z := fetchSees q.1.view q.1.taken (free (n + q.2)) ws (w.1 / 64)
          { q.1 with view := z.1, echo := (fetchSees q.1.echo q.1.taken (free (n + q.2)) ws (w.1 / 64)).1, taken := z.2 }
      { L with unit := { L.unit with ras := { r with lines := r.lines.zipIdx.map one }
                                     snd := { L.unit.snd with lines := L.unit.snd.lines.zipIdx.map snd } }
               draws := L.draws + n + L.unit.snd.lines.length }

/-- A store of a thread of lane `l` in memory updates the line that it hits in its core's data cache (R89), and the fetches in
progress may find it. -/
def State.storeThrough (s : State) (l a : Nat) (b : Bytes) : State :=
  let H := s.half (halfOf l)
  let s := s.putHalf (halfOf l) { H with dcache := writeLine H.dcache (s.lane l).core (laneSpace l) a b }
  s.putLane l ((s.lane l).fetchesSee l [(a, b)])
/-- A store of a system thread of core `k` in memory. DESIGN CHOICE: the data caches of the other cores lose the line, so that a store
that has left its buffer is visible to every context (R93); R89 speaks of a lane's memory only, and the instruction caches keep their
lines (R82). -/
def Half.storeSys (H : Half) (k a : Nat) (b : Bytes) : Half :=
  { H with sysMem := H.sysMem.writeBytes a b
           dcache := (writeLine H.dcache k 0 a b).filter (fun x =>
             decide (x.core = k) || !(decide (x.space = 0) && overlaps a b.length (64 * x.line) 64)) }

end Sys2Proof.Machine
end

