-- ==== Sys2Proof/Machine/Blitter.lean ====
section
/-! DEFINITION. The blitter as commands (R255 to R268). -/
namespace Sys2Proof.Machine
open Sys2Proof

/-- BLT_START (R255, R256): a write of BLT_CTL with START. -/
def execBltStart (l : Nat) (v : BitVec 32) (vt : Nat) (s : State) : Res :=
  s.onLane l (fun L =>
    if !v.toNat.testBit 0 then none
    else L.viaQueue (fun e => !e.read && decide (e.off = 0x33000) && decide (e.data = v.toNat) && decide (L.serveVt e = vt))
      (fun A => A.storeSmall 0 vt vt 0x33000 v.toNat))

/-- A write of the blitter that lands at VT `e` (R49, R263, R264). -/
def bltStore (e : Nat) (w : Nat × Bytes) : LogStore :=
  { stamp := e, rank := 0, addr := w.1, data := w.2, gated := decide (windowOf w.1 = .video) }
/-- Writes that land, with the checkpoints abandoned. -/
def Lane.landAll (L : Lane) (ws : List LogStore) : Lane × Nat :=
  ws.foldl (fun (a : Lane × Nat) e => let q := a.1.land e; (q.1, a.2 + q.2)) (L, 0)

/-- Whether a group can run (R263): in deterministic mode every store below S is known; in normal mode, where its writes land at once, the
captures of the boundaries that the operation spans are complete (R397), and the memory of the newest checkpoint is settled (R394). -/
def Lane.canGroup (L : Lane) (o : BltOp) : Bool :=
  decide (L.phase = .running) && decide (o.next < o.groups) &&
    (if !L.det then L.ckpts.all (fun c => c.mem.isSome && (decide (c.vt ≤ o.s) || c.completeAt.isSome)) else (L.silent (fun _ => false) o.s && decide (o.s ≤ L.unit.snd.tick)))
/-- The next group (R260, R263, R266). -/
def Lane.bltGroup (l : Nat) (L : Lane) (title : Bytes) (o : BltOp) : Lane × Nat :=
  let rd (a : Nat) : Byte :=
    if L.det then overWrites o.writes a ((L.viewAt title o.s 0 a 1).getD 0 0) else L.baseByte title a
  let ws := o.run rd o.next
  let p : BltOp := { o with next := o.next + 1, writes := if L.det then o.writes ++ ws else [] }
  let A : Lane := { L with unit := { L.unit with blt := some p } }
  if L.det then (A, 0) else (A.fetchesSee l ws).landAll (ws.map (fun w => { bltStore L.bvt w with gated := false }))

/-- The destination bytes of an operation's next group: address and length (R260). -/
def BltOp.lineOf (o : BltOp) : Nat × Nat :=
  match o.group o.next with
  | some (r, j, n) => (o.dst + r * o.dpitch + j, n)
  | none => (0, 0)
/-- BLT_GROUP (R260): the cache lines of the bytes it may write are invalidated first (R82, R89, R264). -/
def execBltGroup (l : Nat) (s : State) : Res :=
  match (s.lane l).unit.blt with
  | none => s.onLane l (fun _ => none)
  | some o =>
    if (s.lane l).canGroup o then (s.dropWritten l o.lineOf.1 o.lineOf.2).onLane l (fun L => some (L.bltGroup l (s.title l) o))
    else s.onLane l (fun _ => none)

/-- Whether an operation can end (R262, R263, R268): every group has run; in deterministic mode the beam reaches E, the
accesses of the blitter window whose dot begins below E are served, and no write has to wait for a checkpoint (R396, R397). In a vblank hold an operation that ends at
its boundary is still pending (R265). -/
def Lane.bltOver (L : Lane) (o : BltOp) : Bool :=
  decide (L.phase = .running) && o.done &&
    (!L.det || (L.silent (fun _ => false) o.e && L.beamReach o.e && (decide (L.hold ≠ .vblank) || decide (o.e < L.bvt)) &&
      L.ckpts.all (fun c => decide (c.vt ≤ o.s) || decide (o.e < c.vt) || c.completeAt.isSome) &&
      (L.queue ++ L.coming).all (fun e => decide (e.off < 0x33000) || decide (0x34000 ≤ e.off) ||
        decide (o.e ≤ L.dotOf e)) &&
      o.writes.all (fun w => !L.ckptHold o.e w.1 w.2.length)))
/-- The end of an operation (R263, R268). -/
def Lane.bltEnd (L : Lane) (o : BltOp) : Lane × Nat :=
  ((if L.det then L.beamTo o.e else L).bltFinish o).landAll (o.writes.map (bltStore o.e))

/-- BLT_END (R263, R268). -/
def execBltEnd (l : Nat) (s : State) : Res :=
  s.onLane l (fun L => match L.unit.blt with
    | none => none
    | some o => if L.bltOver o then some (L.bltEnd o) else none)

end Sys2Proof.Machine
end

