-- ==== Sys2Proof/Machine/CmdDevice.lean ====
section
/-! DEFINITION. The commands of the device and its ports: CTRL_FLOW, DEV_INFO, PORT_CFG, PORT_ADDR, PORT_DRAIN, REG_READ, EVENT_SUB, NOP
(R356, R431, R432, R443), frames discarded and links that come up (R358, R385). -/
namespace Sys2Proof.Machine
open Sys2Proof

/-- A half with another control flow, or none (R356). -/
def Half.setControl (H : Half) (k : Option Control) : Half := { H with net := { H.net with control := k } }
/-- CTRL_FLOW (R356): it names, replaces or removes the control flow of a port. -/
def State.ctrlFlow (s : State) (c : Cmd) (h : HalfId) : State :=
  let p := c.params
  let H := s.half h
  let id := leAt p 4 4
  let b := slice p 4 4 ++ [0] ++ slice p 2 1 ++ slice p 1 1 ++ slice p 3 1 ++ List.replicate 8 0 ++ slice p 8 48
  let rest := [(decide (leAt p 1 1 ≤ 1), 1), (decide (leAt p 2 1 < subPorts H.net.mode), 2), (decide (leAt p 3 1 = 4) || decide (leAt p 3 1 = 6), 3)] ++ zeros p 8 3 ++
    [(decide (leAt p 0x0B 1 ≤ 15), 0x0B), (decide (leAt p 0x0E 1 ≤ 63), 0x0E), (decide (1 ≤ leAt p 0x0F 1), 0x0F)] ++ zeros p 0x16 2 ++
    (if leAt p 1 1 = 0 then zeros p 0x28 16 else [])
  s.checked c (halfByte p ++ (if id = 0 then [] else rest)) (fun s =>
    if id = 0 then (s.putHalf h (H.setControl none)).done c []
    else match H.holder id with
      | some (.viewer _ _) => s.fail c stBadState 0x0201
      | some (.control _) | none =>
        (s.putHalf h (H.setControl (some { flow := flowOf b 8192, mask := 0, kept := [] }))).done c [])
def execCtrlFlow (id tm : Nat) (s : State) : Res := opcode 0x0706 id tm (fun s c h => s.ctrlFlow c h) s

/-- The result of DEV_INFO. -/
def State.devInfo (s : State) : Bytes :=
  leBytes 8 (s.east.idReg .east) ++ leBytes 8 (s.west.idReg .west) ++ leBytes 1 (match s.inCharge with | some h => halfNo h | none => 0) ++
    leBytes 1 s.ready.toNat ++ [0, 0] ++ leBytes 4 s.cmds.length
/-- DEV_INFO (R432). -/
def execDevInfo (id tm : Nat) (s : State) : Res := opcode 0x0801 id tm (fun s c _ => s.done c s.devInfo) s

/-- Whether a port is drained (R443). -/
def Half.portDrained (H : Half) : Bool := H.net.drain && H.noViewers
/-- PORT_CFG (R443, R525): a change of MODE or FO_EN may begin or end a failover (R382). -/
def State.portCfg (s : State) (c : Cmd) (h : HalfId) : State :=
  let p := c.params
  let m := leAt p 1 1
  let H := s.half h
  let on (k off : Nat) (f : Nat → Bool) : Bool × Nat := (!m.testBit k || f (leAt p off 1), off)
  s.checked c (halfByte p ++ [(decide (m < 32), 1), on 0 2 (fun x => decide (x ≤ 3)), on 1 3 (fun x => decide (x ≤ 1)), on 2 4 (fun x => decide (1 ≤ x)), on 4 6 (fun x => decide (1 ≤ x))] ++ zeros p 7 1) (fun s =>
    let n := H.net
    let mode := if m.testBit 0 then leAt p 2 1 else n.mode
    if mode ≠ n.mode ∧ H.portDrained = false then s.fail c stNotDrained 0
    else
      let n : Net := { n with mode := mode, foEn := if m.testBit 1 then decide (leAt p 3 1 = 1) else n.foEn,
                              fb := if m.testBit 2 then leAt p 4 1 else n.fb, foScale := if m.testBit 3 then leAt p 5 1 else n.foScale,
                              idle := if m.testBit 4 then leAt p 6 1 else n.idle }
      ((s.putHalf h ({ H with net := n }).saveSettings).settlePorts).done c [])
def execPortCfg (id tm : Nat) (s : State) : Res := opcode 0x0802 id tm (fun s c h => s.portCfg c h) s
/-- PORT_ADDR (R443, R525). -/
def State.portAddr (s : State) (c : Cmd) (h : HalfId) : State :=
  let p := c.params
  let H := s.half h
  let k := leAt p 1 1
  let n4 := leAt p 8 1
  let n6 := leAt p 9 1
  s.checked c (halfByte p ++ [(decide (k < subPorts H.net.mode), 1), (decide (n4 ≤ 16), 8), (decide (n6 ≤ 16), 9)] ++ zeros p 10 6) (fun s =>
    let q : SubPort := { H.sub k with mac := slice p 2 6, ip4 := (List.range n4).map (fun i => slice p (16 + 4 * i) 4),
                                      ip6 := (List.range n6).map (fun i => slice p (16 + 4 * n4 + 16 * i) 16) }
    (s.putHalf h (H.putSub k q).saveSettings).done c [])
def execPortAddr (id tm : Nat) (s : State) : Res := opcode 0x0803 id tm (fun s c h => s.portAddr c h) s
/-- PORT_DRAIN (R443): with DRAIN 1 it completes when no viewer of the port remains. -/
def State.portDrain (s : State) (c : Cmd) (h : HalfId) : State :=
  let p := c.params
  let H := s.half h
  s.checked c (halfByte p ++ [(decide (leAt p 1 1 ≤ 1), 1)] ++ zeros p 2 2) (fun s =>
    if leAt p 1 1 = 0 then (s.putHalf h { H with net := { H.net with drain := false } }).done c []
    else (s.putHalf h { H with net := { H.net with drain := true, drainCmds := H.net.drainCmds ++ [c.id] } }).portEmpty h)
def execPortDrain (id tm : Nat) (s : State) : Res := opcode 0x0804 id tm (fun s c h => s.portDrain c h) s

/-- REG_READ (R443). -/
def State.regRead (s : State) (c : Cmd) (h : HalfId) : State :=
  let p := c.params
  let n := leAt p 1 1
  let off (i : Nat) : Nat := leAt p (8 + 4 * i) 4
  s.checked c (halfByte p ++ [(decide (1 ≤ n) && decide (n ≤ 64), 1)] ++ zeros p 2 6 ++ (List.range n).map (fun i => (decide (off i < 2 ^ 26), 8 + 4 * i))) (fun s =>
    s.done c ((List.range n).flatMap (fun i => leBytes 8 (s.barRead h (off i)))))
def execRegRead (id tm : Nat) (s : State) : Res := opcode 0x0805 id tm (fun s c h => s.regRead c h) s
/-- EVENT_SUB (R431). -/
def State.eventSub (s : State) (c : Cmd) : State :=
  s.checked c (zeros c.params 4 4) (fun s =>
    match c.src with
    | .control h => match (s.half h).net.control with
      | some k => (s.putHalf h ((s.half h).setControl (some { k with mask := leAt c.params 0 4 }))).done c []
      | none => s.done c []
    | .ring _ _ | .smbus => s.fail c stDenied 0)
def execEventSub (id tm : Nat) (s : State) : Res := opcode 0x0808 id tm (fun s c _ => s.eventSub c) s
/-- NOP (R432). -/
def execNop (id tm : Nat) (s : State) : Res := opcode 0x0809 id tm (fun s c _ => s.done c c.params) s

/-- RECEIVED_FRAME_DISCARD (R316, R358, R385). -/
def execReceivedFrameDiscard (h : HalfId) (f : RxFrame) (tm : Nat) (s : State) : Res :=
  let s := s.at tm
  match s.receive h f with
  | .bad k => .next (s.discard h k)
  | .msg _ _ _ _ _ => stay s
/-- SUBPORT_LINK_UP (R385, R484, R501): the SerDes are configured. A link that comes up after its sub-port has failed counts as a retrain of each of its
SerDes lanes (DEDUCED: R484 does not say what a retrain is). -/
def execSubportLinkUp (h : HalfId) (k tm : Nat) (s : State) : Res :=
  if 4 ≤ k then noUnit
  else
    let s := s.at tm
    let H := s.half h
    let n := subPorts H.net.mode
    if !s.runs || !H.boot.ethClk || !H.boot.ports || H.sp.down || H.boot.failed || decide (n ≤ k) || (H.sub k).up then stay s
    else
      let H := if (H.sub k).failed then (List.range (8 / n)).foldl (fun H j => H.lifeAdd (0xD0 + 4 * (8 / n * k + j)) 4 1) H else H
      .next (s.putHalf h (H.putSub k { H.sub k with up := true, upSince := s.time }))

end Sys2Proof.Machine
end

