-- ==== Sys2Proof/Machine/Entry.lean ====
section
/-! DEFINITION. The entry of an exception or an interrupt and the return from one: take points, the source that a vector read names,
chained returns, and an entry in progress (R86, R99, R100, R137 to R141, R146 to R152). -/
namespace Sys2Proof.Machine
open Sys2Proof

/-- The take point of an interrupt of thread `t` (R86, R99): its VT, or the point at which its divide is abandoned. -/
def Lane.takePoint (L : Lane) (t : Nat) : Option Nat :=
  let x := L.thread t
  match x.divide with
  | some (i, _) =>
    if L.det then L.abandonPoint t i (x.vt + 1) else if L.due t L.bvt then some L.bvt else none
  | none => if L.due t (L.issueVt t) then some (L.issueVt t) else none

/-- Whether the take point `p` of thread `t` is decided (R99): everything up to it has come about.  -/
def Lane.takeFixed (L : Lane) (t p : Nat) : Bool :=
  if (L.thread t).divide.isSome then L.fixed (p + 1) && L.silent (fun u => decide (u = t)) (p + 1) else L.licFixed t p

/-- The source that the vector read of an entry of thread `t` at take point `p`, whose virtual cycles are of `cpu` LCLK periods, names (R149, R151). In normal mode how many sources reach
the thread between the two positions of the entry is a free number. -/
def Lane.entrySource (L : Lane) (t p cpu free : Nat) : Option (Nat × Nat) :=
  let c := L.unit.lic
  let lvl := (L.thread t).level
  if L.det then c.deliver t p cpu lvl
  else match c.deliverLate t p cpu lvl (free % 65) with
    | some a => some a
    | none => c.take t p (2 * cpu) lvl

/-- The IE and LEVEL that the top frame restores (R140). -/
def Thread.restores (t : Thread) : Bool × Nat := (bit (t.top (·.estatus)) 0, bits (t.top (·.estatus)) 4 4)
/-- The frame popped (R140). -/
def Thread.pop (t : Thread) : Thread :=
  { t with ie := t.restores.1, level := t.restores.2, frames := t.frames.drop 1 }

/-- The source that an ERET of thread `t` at decision point `r` chains to (R141, R152): its event lies below the end of the decision cycle, of
`cpu` LCLK periods, and it would be taken at the LEVEL restored. DESIGN CHOICE: completions and withdrawals count up to the end of that cycle
too, with the events; R152 names only the events. -/
def Lane.chains (L : Lane) (t r cpu : Nat) : Option (Nat × Nat) :=
  let x := L.thread t
  match L.unit.lic.best t (r - 2 * cpu) (if L.det then r + cpu - 1 else r) (fun _ => true) with
  | some (n, p) => if x.restores.1 ∧ x.restores.2 < p then some (n, p) else none
  | none => none

/-- A chained return (R141): the frame stays, its CAUSE and LEVEL become those of the new source, whose vector is
read. DESIGN CHOICE: its BADADDR stays as it is; R141 names CAUSE and LEVEL. A vector outside its windows traps at the VT of its read. -/
def Thread.chain (e : CoreEnv) (n p : Nat) (t : Thread) : Thread :=
  let a := t.vectorAddr (1 + n)
  if vectorOk e a = false then (t.charge e 3).trap
  else (({ t.mapTop (fun f => { f with cause := interruptCause n p }) with level := p }).jump
      (entryPc (e.vector a))).charge e 6

/-- The vector read at VT `v` names source `n` (R146). -/
def Lane.acknowledge (L : Lane) (v n : Nat) : Lane := L.setLic ((L.unit.lic.mark v).acknowledge n)
/-- The vector read of an entry at VT `v` names source `n`, unless the thread has trapped. -/
def State.named (s : State) (c : Ctx) (v n : Nat) : State :=
  match c with
  | .game l _ => if (s.thread c).trapped then s else s.putLane l ((s.lane l).acknowledge v n)
  | .sys _ _ _ => s

/-- Whether the vector read of thread `t` at VT `v` names the source that it will name (R146, R149): every event up to it is fixed. -/
def Lane.readFixed (L : Lane) (t v : Nat) : Bool :=
  L.vectorFixed t v && L.fixed (v + 1) && L.silent (fun u => decide (u = t)) (v + 1)
/-- Whether an ERET of thread `t` at decision point `r` may decide (R152): every event below the end of its decision cycle is fixed, and,
where it chains, every event up to its vector read, at which the new source's PEND is cleared (R146). -/
def Lane.eretFixed (L : Lane) (t r cpu : Nat) : Bool :=
  !L.det || (L.fixed (r + cpu) && L.silent (fun u => decide (u = t)) (r + cpu) &&
    ((L.chains t r cpu).isNone || L.readFixed t (r + 3 * cpu)))
def State.eretFixed (s : State) : Ctx → Bool
  | .game l t => (s.lane l).eretFixed t ((s.lane l).thread t).vt (s.lane l).cpu
  | .sys _ _ _ => true

/-- What an entry or a return of thread `t` in progress leaves, once everything up to its vector read has come about: the thread, and the source
that the vector read names (R137, R141, R149, R152). Its virtual cycles are of the CPUDIV of its take point. -/
def Lane.entered (L : Lane) (title : Bytes) (t : Nat) (q : Entering) : Option (Thread × Option Nat) :=
  let x := (L.thread t).atPoint q
  let e : CoreEnv := { laneEnv L title t q.read with cpu := q.cpu }
  let grid (y : Thread) : Thread := { y with vt := L.onGrid q.point y.vt }
  match q.kind with
  | .except c b => if L.vectorFixed t q.read then some (grid (x.enter e 0 c b none), none) else none
  | .interrupt =>
    if L.readFixed t q.read then
      match L.entrySource t q.point q.cpu 0 with
      | some (n, p) => some (grid (x.enter e (1 + n) (interruptCause n p) 0 (some p)), some n)
      | none => some (x, none)
    else none
  | .ret =>
    if L.eretFixed t q.point q.cpu then
      match L.chains t q.point q.cpu with
      | some (n, p) => some (grid (x.chain e n p), some n)
      | none => some (grid ((x.pop.jump (x.top (·.epc))).charge e (jumpCost (x.top (·.epc)) 12 4)), none)
    else none
/-- An entry or a return in progress goes on (R100, R137): the context continues at the word it names. It holds, uncharged, until then,
while the lane's clock stops short of its vector read, and until the context is captured at a boundary before that. -/
def State.goOn (s : State) (l t : Nat) (q : Entering) : Res :=
  let L := s.lane l
  if (decide (L.phase = .running) || (decide (L.phase = .paused) && decide (q.read < L.bvt))) &&
      decide (L.tm.boundary q.read ≤ (L.thread t).capVt) then
    match L.entered (s.title l) t q with
    | some (y, n) =>
      let z := s.putThread (.game l t) y
      .next ((match n with | some n => z.named (.game l t) q.read n | none => z).afterThread (.game l t))
    | none => stay s
  else stay s

end Sys2Proof.Machine
end

