-- ==== Sys2Proof/Machine/Control.lean ====
section
/-! DEFINITION. Control transfers, system instructions, exceptions and interrupts (R107, R110, R116 to R118, R130 to
R142, R147 to R152). -/
namespace Sys2Proof.Machine
open Sys2Proof

/-- COMPARE_AND_BRANCH (R116). Outside deterministic mode a branch with a negative offset is predicted taken: where it is not, the
prefetch queue is refilled (R81, R84). -/
def execCompareAndBranch (c : Ctx) (fn : BrFn) (ra rb : RegNo) (off : BitVec 16) (s : State) : Res :=
  s.issue c (.br fn ra rb off) (fun e t =>
    if brTaken fn (t.gReg ra) (t.gReg rb) then
      (t.jump (brTarget t.pc off)).charge e (jumpCost (brTarget t.pc off) 12 2)
    else if !e.det && off.msb then t.jump (t.pc + 4)
    else t.next.charge e 1)

/-- J (R117). -/
def execJ (c : Ctx) (off : BitVec 26) (s : State) : Res :=
  s.issue c (.j off) (fun e t => (t.jump (jTarget t.pc off)).charge e (jumpCost (jTarget t.pc off) 12 2))

/-- JAL (R117): the link goes to g31. -/
def execJal (c : Ctx) (off : BitVec 26) (s : State) : Res :=
  s.issue c (.jal off) (fun e t =>
    ((t.setG 31 (t.pc + 4)).jump (jTarget t.pc off)).charge e (jumpCost (jTarget t.pc off) 12 2))

/-- JALR (R117): a target with bits [1:0] other than 0 raises Instruction alignment. -/
def execJalr (c : Ctx) (rd ra : RegNo) (imm : BitVec 16) (s : State) : Res :=
  let a := effAddr ((s.thread c).gReg ra) imm
  if a.toNat % 4 ≠ 0 then s.fails c (.jalr rd ra imm) (.instrAlign a)
  else s.issue c (.jalr rd ra imm) (fun e t => ((t.setG rd (t.pc + 4)).jump a).charge e (jumpCost a 12 2))

/-- MFS (R107, R130, R132). -/
def execMfs (c : Ctx) (rd : RegNo) (n : BitVec 12) (s : State) : Res :=
  let i := NInstr.mfs rd n
  if 0x800 ≤ n.toNat then
    match c with
    | .game _ _ => s.fails c i (.privileged (nencode i))
    | .sys _ _ _ => if !ctxOk c then noUnit else if s.issues c i then .refused .firmware else stay s
  else if sysRegs.contains n.toNat then
    s.issue c i (fun e t => ((t.setG rd (t.readSys e n.toNat)).next).charge e 1)
  else s.fails c i (.illegal (nencode i))

/-- MTS (R107, R130, R132). -/
def execMts (c : Ctx) (ra : RegNo) (n : BitVec 12) (s : State) : Res :=
  let i := NInstr.mts ra n
  if 0x800 ≤ n.toNat then
    match c with
    | .game _ _ => s.fails c i (.privileged (nencode i))
    | .sys _ _ _ => if !ctxOk c then noUnit else if s.issues c i then .refused .firmware else stay s
  else if sysRegs.contains n.toNat then
    s.issue c i (fun e t => ((t.writeSys e n.toNat (t.gReg ra)).next).charge e 1)
  else s.fails c i (.illegal (nencode i))

/-- ECALL (R130, R142). -/
def execEcall (c : Ctx) (n : BitVec 12) (s : State) : Res := s.fails c (.ecall n) (.ecall n)
/-- EBREAK (R130, R142). -/
def execEbreak (c : Ctx) (s : State) : Res := s.fails c .ebreak .ebreak

/-- ERET (R140, R141, R152): in a deterministic lane its return is in progress until its chaining is decided. DESIGN CHOICE: an ERET of a system
context never chains; its sources are not the manual's, and each of them arrives by an INTERRUPT_ENTRY of its own. -/
def execEret (c : Ctx) (s : State) : Res :=
  let x := s.thread c
  if x.frames.isEmpty then s.fails c .eret (.illegal (nencode .eret))
  else if !ctxOk c then noUnit
  else if !s.issues c .eret then stay s
  else
    let e := s.env c
    let back := (x.stampNow e).pop
    let a := x.top (·.epc)
    let z := s.tookSlot c
    let plain := z.putThread c ((back.jump a).charge e (jumpCost a 12 4))
    match c with
    | .game l t =>
      if !s.eretFixed c then .next (z.putThread c (x.begin e.cpu x.vt (min (jumpCost a 12 4) 6) .ret))
      else match (z.lane l).chains t ((z.lane l).issueVt t) e.cpu with
        | some (n, p) => .next (((z.putThread c ((x.stampNow e).chain e n p)).named c ((z.lane l).issueVt t + (if e.det then 3 * e.cpu else 0)) n).afterThread c)
        | none => .next plain
    | .sys _ _ _ => .next plain

/-- WAIT (R131): it completes at once where a source is pending for the thread, and waits otherwise. -/
def execWait (c : Ctx) (s : State) : Res :=
  let now := match c with
    | .game l t => let p := (s.lane l).issueVt t; if (s.lane l).det then ((s.lane l).ahead p).wakeAt t p else (s.lane l).wakeAt t p
    | .sys _ _ _ => false
  s.issue c .wait (fun e t => ({ t.next with waiting := !now }).charge e 1)

/-- WAIT_RESUME (R47, R131). In a deterministic lane the thread resumes at the VT at which the source is pending for it,
rounded up to a virtual cycle. The sources of a system context are its own: one of them has arrived. -/
def execWaitResume (c : Ctx) (s : State) : Res :=
  if !ctxOk c then noUnit
  else
    let x := s.thread c
    if !(x.active && x.waiting) then stay s
    else
      match c with
      | .game l t =>
        let L := s.lane l
        if L.det then
          match L.wakePoint t (maxL (L.wakePoints t)) with
          | some w =>
            if (decide (L.phase = .running) || (decide (L.phase = .paused) && decide (w < L.bvt))) && L.fixed (w + 1) &&
                L.silent (fun u => decide (u = t)) w then
              .next (s.putThread c { x with waiting := false, vt := roundUp w L.cpu })
            else stay s
          | none => stay s
        else if decide (L.phase = .running) && L.wakeAt t L.bvt then .next (s.putThread c { x with waiting := false })
        else stay s
      | .sys _ _ _ => .next (s.putThread c { x with waiting := false })

/-- MBAR (R93). -/
def execMbar (c : Ctx) (s : State) : Res :=
  if (s.thread c).sb.isEmpty && (s.thread c).loads.isEmpty then s.issue c .mbar (fun e t => t.next.charge e 1)
  else if !ctxOk c then noUnit else stay s

/-- The instruction-cache lines that ISYNC invalidates (R82): those of the thread's lane, or of the system threads of
the core. -/
def State.dropCode (s : State) : Ctx → State
  | .game l _ =>
    let H := s.half (halfOf l)
    s.putHalf (halfOf l) { H with icache := H.icache.filter (fun x => decide (x.space ≠ laneSpace l)) }
  | .sys h k _ => s.putHalf h { s.half h with icache := (s.half h).icache.filter (fun x => decide (x.core ≠ k) || decide (x.space ≠ 0)) }

/-- ISYNC (R82). -/
def execIsync (c : Ctx) (s : State) : Res :=
  if !(s.thread c).sb.isEmpty then (if !ctxOk c then noUnit else stay s)
  else if !ctxOk c then noUnit
  else if s.issues c .isync then
    .next (((s.tookSlot c).putThread c ((({ ((s.thread c).stampNow (s.env c)).next with prefetch := [], lineBuf := none }).charge
      (s.env c) 1))).dropCode c)
  else stay s

/-- SYSX (R107): Privileged instruction at game level; at system level an operation of firmware that the manual does not
describe. -/
def execSysx (c : Ctx) (bits : BitVec 26) (s : State) : Res :=
  match c with
  | .game _ _ => s.fails c (.sysx bits) (.privileged (nencode (.sysx bits)))
  | .sys _ _ _ => if !ctxOk c then noUnit else if s.issues c (.sysx bits) then .refused .firmware else stay s

/-- ILLEGAL_INSTRUCTION (R110): the word at the pc decodes to no instruction. -/
def execIllegalInstruction (c : Ctx) (w : BitVec 32) (s : State) : Res :=
  if !ctxOk c then noUnit
  else
    let x := s.thread c
    if s.mayIssue c && x.active && !x.waiting && !x.trapped && decide (x.word = some w) && decide (ndecode w = none) then
      s.except c (.illegal w)
    else stay s

/-- DETAIL of an Instruction access fault (R65, R135). -/
def fetchDetail (a : Nat) : Nat :=
  match windowOf a with
  | .title => 2
  | .outside => 0
  | .near | .work | .video | .regs => 4

/-- INSTRUCTION_ACCESS_FAULT (R118): the pc of a game thread stands outside the executable windows. -/
def execInstructionAccessFault (c : Ctx) (s : State) : Res :=
  if !ctxOk c then noUnit
  else
    match c with
    | .game l t =>
      let x := s.thread c
      if !s.thermtrip && (s.lane l).issueOk t && x.active && !x.waiting && !x.trapped && !executable x.pc.toNat (s.lane l).titleLen then
        s.except c (.instrAccess x.pc (fetchDetail x.pc.toNat))
      else stay s
    | .sys _ _ _ => stay s

/-- INTERRUPT_ENTRY (R86, R98, R99, R137, R149): an interrupt that is due is taken between instructions, after every
outstanding load; the vector read names the highest source that has arrived by then, and the entry is in progress until it is known.
DESIGN CHOICE: the positions that an entry takes (R100) count as idle (R78), those of an exception but for one; the spec is silent. The source and the priority of a
system context's interrupt are its own controller's. -/
def execInterruptEntry (c : Ctx) (s : State) : Res :=
  if !ctxOk c then noUnit
  else
    let x := s.thread c
    if !(x.active && !x.waiting && x.loads.isEmpty && x.entering.isNone) then stay s
    else
      match c with
      | .game l t =>
        let L := s.lane l
        match L.takePoint t with
        | none => stay s
        | some p =>
          let c3 := if L.det then L.divCpu t else L.cpu
          let v := p + 3 * c3
          if !((decide (L.phase = .running) || (decide (L.phase = .paused) && L.det && decide (p < L.bvt))) &&
              L.vtCanAt t p && (!L.det || L.takeFixed t p)) then stay s
          else if L.det && !L.readFixed t v && decide (x.frames.length < 16) then
            let y := (x.abandon p).begin c3 p 6 .interrupt
            .next (s.putThread c { y with vt := L.onGrid p y.vt })
          else
            match L.entrySource t p c3 (Config.freeNat (laneDraw l L)) with
            | none => stay s
            | some (n, q) =>
              let y := (x.abandon p).enter { laneEnv L (s.title l) t v with cpu := c3 } (1 + n) (interruptCause n q) 0 (some q)
              .next ((((s.putLane l { L with draws := L.draws + 1 }).putThread c { y with vt := L.onGrid p y.vt }).named c (if L.det then v else p) n).afterThread c)
      | .sys _ _ _ =>
        if x.ie && decide (x.level < 15) then
          let f := Config.freeNat s.draw
          let n := f % 64
          let q := x.level + 1 + f / 64 % (15 - x.level)
          .next (({ s with freeCtr := s.freeCtr + 1 }).putThread c
            (x.enter (s.env c) (1 + n) (interruptCause n q) 0 (some q)))
        else stay s

end Sys2Proof.Machine
end

