-- ==== Sys2Proof/Machine/Rotation.lean ====
section
/-! DEFINITION. Rotation of lane units and cores through their spares, tests of units, and the commands that ask for them (R454, R458 to
R462, R567). -/
namespace Sys2Proof.Machine
open Sys2Proof

def Half.setSp (H : Half) (p : Sparing) : Half := { H with sp := p }
/-- Whether rotation goes on in a half (R458, R460). -/
def State.rotates (s : State) (h : HalfId) : Bool := s.runs && (s.half h).serves && (s.half h).boot.ready
/-- The first unit in service from `i` on, in rising number and wrapping at `n`, that is not retired. -/
def Half.nextUnit (H : Half) (k : UnitKind) (n i : Nat) (serves : Nat → Bool) : Option Nat :=
  ((List.range n).map (fun j => (i + j) % n)).find? (fun j => serves j && !H.isRetired k j)
/-- LANE_UNIT_ROTATION (R458, R459): a unit whose lane's clock runs waits for the hand-off at a boundary; another is swapped at once. -/
def execLaneUnitRotation (h : HalfId) (tm : Nat) (s : State) : Res :=
  let s := s.at tm
  let H := s.half h
  let b := luBase h
  if !s.rotates h || H.sp.luHalt || H.sp.handoff.isSome then stay s
  else match H.sp.spares, H.nextUnit .laneUnit 132 (H.sp.luNext - b) (fun j => (H.indexOf h (b + j)).isSome) with
    | u :: rest, some j => match H.indexOf h (b + j) with
      | none => stay s
      | some n =>
        let l := laneNo h n
        let next := b + (j + 1) % 132
        let ph := (s.lane l).phase
        if ph = .running ∨ ph = .rolling then .next (s.putHalf h (H.setSp { H.sp with spares := rest, handoff := some (l, u), luNext := next }))
        else .next (((s.putHalf h (H.setSp { H.sp with luNext := next })).mapUnit h n u).freed h .laneUnit j)
    | _, _ => stay s

/-- Whether lane `L` can be handed off now (R459): at a frame boundary where it is not deferred, or paused. -/
def Lane.canHandOff (L : Lane) : Bool :=
  match L.phase with
  | .paused => true
  | .running => decide (L.bvt = L.tm.boundary L.bvt) && !L.late && decide (L.hold = .none) &&
      !L.inputs.any (fun i => decide (i.kind = 6) && decide (i.slot = 0) && decide (i.vt = L.bvt))
  | .stopped | .starting | .rolling => false
/-- SPARE_HANDOFF (R459): the lane's index takes the spare unit, and the old one is freed. The lane's state is that of its index. -/
def execSpareHandoff (l tm : Nat) (s : State) : Res :=
  if 256 ≤ l then noUnit
  else
    let s := s.at tm
    let h := halfOf l
    let H := s.half h
    match H.sp.handoff with
    | none => stay s
    | some (k, u) =>
      if k ≠ l ∨ s.rotates h = false ∨ (s.lane l).canHandOff = false then stay s
      else
        let old := H.luOf h (l % 128) - luBase h
        .next (((s.putHalf h (H.setSp { H.sp with handoff := none })).mapUnit h (l % 128) u).freed h .laneUnit old)

/-- Whether every context of logical core `c` of a half has an empty store buffer and no load outstanding (R94). -/
def Half.coreDrained (H : Half) (c : Nat) : Bool :=
  (H.held.filter (fun q => decide (q.2.core = c))).all (fun q => decide (q.2.phase = .rolling) || q.2.drained) &&
    [14, 15].all (fun x => let t := Sparse.get sysReset H.sys (16 * c + x); t.sb.isEmpty && t.loads.isEmpty)
/-- CORE_SWAP (R94, R460): the contexts and slots of the next core in service move to the spare, and the old core is freed, once the
stores and loads of its contexts are done. -/
def execCoreSwap (h : HalfId) (tm : Nat) (s : State) : Res :=
  let s := s.at tm
  let H := s.half h
  if !s.rotates h || H.sp.coreHalt then stay s
  else match H.sp.spareCore, H.nextUnit .core 17 H.sp.coreNext (fun p => (H.logicalOf p).isSome) with
    | some q, some p => match H.logicalOf p with
      | none => stay s
      | some c =>
        if !H.coreDrained c then stay s else
        let sp := { H.sp with coreMap := Sparse.set coreDefault H.sp.coreMap c q, spareCore := none, coreNext := (p + 1) % 17 }
        .next ((s.putHalf h (H.setSp sp)).freed h .core p)
    | _, _ => stay s

/-- The numbers of the units of a kind (R462). -/
def unitCount : UnitKind → Nat
  | .laneUnit => 132
  | .core => 17
  | .serdes => 8
  | .pseudoChannel => 64
  | .nearSram => 128
  | .fordWire => 0
/-- The lanes that a unit serves. -/
def Half.served (H : Half) (h : HalfId) (u : UnitKind) (i : Nat) : List Nat :=
  match u with
  | .laneUnit => match H.indexOf h (luBase h + i) with | some n => [laneNo h n] | none => []
  | .nearSram => [laneNo h i]
  | .core => match H.logicalOf i with
    | some c => (H.held.filter (fun q => decide (q.2.core = c) && H.admitted (laneNo h q.1))).map (fun q => laneNo h q.1)
    | none => []
  | .serdes | .pseudoChannel | .fordWire => []
/-- Whether a unit is out of the way of its lanes, so that its test can end: none runs on it. -/
def State.clear (s : State) (h : HalfId) (u : UnitKind) (i : Nat) : Bool :=
  ((s.half h).served h u i).all (fun l =>
    let L := s.lane l
    decide (L.phase = .stopped) || (decide (L.phase = .paused) && (L.pausedFor.test || L.pausedFor.fault)))
/-- A lane paused for a test resumes, where nothing else holds it (R462). -/
def State.endTest (s : State) (l : Nat) : State :=
  let L := s.lane l
  if L.phase ≠ .paused ∨ L.pausedFor.test = false then s
  else
    let w := { L.pausedFor with test := false }
    let s := s.putLane l { L with pausedFor := w }
    if w.any || L.snap.isSome then s else s.resumeLane l 4
/-- The fault that a test has found in a unit (class 14, R449). -/
def latent (h : HalfId) (unitNo : Nat) (lane : Option Nat) : FaultInfo :=
  { half := h, cls := 14, unitNo := unitNo, lane := lane, kind := .detected, syndrome := 0 }
/-- A lane paused for a test whose unit has failed stays paused, with ACTION 11 (R567); the fault is counted once, at its own record. -/
def State.keepPaused (s : State) (h : HalfId) (l unitNo : Nat) : State :=
  let L := s.lane l
  if L.phase ≠ .paused ∨ L.pausedFor.test = false then s
  else (s.putLane l { L with pausedFor := { L.pausedFor with test := false, fault := true } }).recordFault (latent h unitNo (some l)) 11 1 0 0
/-- The UNIT of a record for a unit of a half (R455). -/
def recordUnit (h : HalfId) (u : UnitKind) (i : Nat) : Nat := match u with | .laneUnit => luBase h + i | _ => i
/-- A unit that has passed (R458, R460): a freed lane unit or core is a spare again. -/
def State.passUnit (s : State) (h : HalfId) (u : UnitKind) (i : Nat) : State :=
  let H := s.half h
  let p := H.sp
  let p : Sparing := match u with
    | .laneUnit =>
      let n := luBase h + i
      let p := { p with luTested := Sparse.set zeroNat p.luTested i s.time }
      if (H.indexOf h n).isNone && !H.isRetired .laneUnit i && !p.spares.contains n then { p with spares := p.spares ++ [n] } else p
    | .core =>
      let p := { p with coreTested := Sparse.set zeroNat p.coreTested i s.time }
      if (H.logicalOf i).isNone && !H.isRetired .core i && p.spareCore.isNone then { p with spareCore := some i } else p
    | _ => p
  (s.putHalf h (H.setSp p)).checkHalt h
/-- A unit retired at the end of its test (R454, R567): its lanes stay paused or move where a spare or room is. -/
def State.takeOut (s : State) (h : HalfId) (u : UnitKind) (i : Nat) : State :=
  let ls := (s.half h).served h u i
  let s := s.retire h u i
  match u with
  | .laneUnit => match (s.half h).sp.spares, (s.half h).indexOf h (luBase h + i), ls.any (fun l => (s.lane l).pausedFor.test) with
    | x :: _, some n, false => (s.mapUnit h n x).checkHalt h
    | _, _, _ => ls.foldl (fun s l => s.keepPaused h l (luBase h + i)) s
  | .core =>
    let s := ls.foldl (fun s l => let L := s.lane l; s.putLane l { L with pausedFor := { L.pausedFor with test := false } }) s
    (s.leaveCore (latent h i none) 0).checkHalt h
  | .nearSram => ls.foldl (fun s l => s.keepPaused h l i) s
  | .pseudoChannel =>
    let H := s.half h
    s.putHalf h ((H.setSp { H.sp with spared := H.sp.spared ++ [i] }).lifeAdd 0x3C 4 1)
  | .serdes | .fordWire => s
/-- UNIT_TEST_COMPLETE (R454, R458, R460 to R462, R567). -/
def execUnitTestComplete (h : HalfId) (u : UnitKind) (idx : Nat) (pass : Bool) (tm : Nat) (s : State) : Res :=
  if unitCount u ≤ idx then noUnit
  else
    let s := s.at tm
    let H := s.half h
    let mine := H.sp.tests.filter (fun t => decide (t.kind = u) && decide (t.idx = idx))
    if mine.isEmpty || !s.runs || !H.serves || !s.clear h u idx then stay s
    else
      let ls := H.served h u idx
      let s := s.putHalf h (H.setSp { H.sp with tests := H.sp.tests.filter (fun t => !(decide (t.kind = u) && decide (t.idx = idx))) })
      let ask := mine.filterMap (fun t => if t.retire then none else t.cmd)
      let out := mine.filterMap (fun t => if t.retire then t.cmd else none)
      let s := if pass then s else s.report (latent h (recordUnit h u idx) none) 12 0 0
      let rec' := if pass then 0 else (s.half h).sp.last
      let s := if pass && mine.all (fun t => !t.retire) then ls.foldl State.endTest (s.passUnit h u idx) else s.takeOut h u idx
      let s := ask.foldl (fun s id => s.finish id stOk 0 (leBytes 4 pass.toNat ++ leBytes 4 rec')) s
      .next (out.foldl (fun s id => s.finish id stOk 0 []) s)

/-- The unit kinds of SELFTEST by UNIT. -/
def unitKind (n : Nat) : UnitKind :=
  match n with
  | 0 => .laneUnit
  | 1 => .core
  | 2 => .serdes
  | 3 => .pseudoChannel
  | _ => .nearSram
/-- A test of a unit is asked for by command `id`. -/
def State.addTest (s : State) (h : HalfId) (u : UnitKind) (i id : Nat) (retire : Bool) : State :=
  let H := s.half h
  (s.putHalf h (H.setSp { H.sp with tests := H.sp.tests ++ [{ kind := u, idx := i, cmd := some id, retire := retire }] })).checkHalt h
/-- FORCE: the lanes of a unit are paused under R62 for its test (R462). -/
def State.pauseForTest (s : State) (l : Nat) : State :=
  let L := s.lane l
  match L.phase with
  | .stopped => s
  | .paused => s.putLane l { L with pausedFor := { L.pausedFor with test := true } }
  | .starting | .running | .rolling => s.putLane l { L with pauseDue := { L.pauseDue with test := true } }
/-- A unit in service without a spare (R462): NO_SPARE, or with FORCE its lanes are paused for the test. -/
def State.forceTest (s : State) (c : Cmd) (h : HalfId) (u : UnitKind) (i : Nat) (force retire : Bool) : State :=
  if force then (((s.half h).served h u i).foldl State.pauseForTest s).addTest h u i c.id retire else s.fail c stNoSpare 0
/-- SELFTEST and UNIT_RETIRE past their parameters' checks (R462). DESIGN CHOICE: a spare or freed unit leaves the spares, and with them the
LU_SPARE and CORE_SPARE of R17, until its test has passed; R17 names no such moment. -/
def State.askTest (s : State) (c : Cmd) (h : HalfId) (u : UnitKind) (i : Nat) (force retire : Bool) : State :=
  let H := s.half h
  let p := H.sp
  match u with
  | .laneUnit =>
    let n := luBase h + i
    if (H.indexOf h n).isNone then (s.putHalf h (H.setSp { p with spares := p.spares.filter (fun x => decide (x ≠ n)) })).addTest h u i c.id retire
    else if p.spares.isEmpty then s.forceTest c h u i force retire
    else (s.putHalf h (H.setSp { p with luNext := n })).addTest h u i c.id retire
  | .core =>
    if (H.logicalOf i).isNone then
      (s.putHalf h (H.setSp { p with spareCore := if p.spareCore = some i then none else p.spareCore })).addTest h u i c.id retire
    else if p.spareCore.isNone then s.forceTest c h u i force retire
    else (s.putHalf h (H.setSp { p with coreNext := i })).addTest h u i c.id retire
  | .serdes => if H.portDrained then s.addTest h u i c.id retire else if retire then s.fail c stBadState 0 else s.fail c stNotDrained 0
  | .pseudoChannel =>
    let used := (p.spared ++ p.pcFailing).any (fun q => decide (q / 32 = i / 32)) ||
      p.tests.any (fun t => decide (t.kind = .pseudoChannel) && decide (t.idx / 32 = i / 32))
    if used then s.fail c stNoSpare 0 else s.addTest h u i c.id retire
  | .nearSram => if (H.lane i).phase = .stopped then s.addTest h u i c.id retire else s.forceTest c h u i force retire
  | .fordWire => s
/-- The checks of SELFTEST and UNIT_RETIRE (R462): `flags` is the highest FLAGS. -/
def State.unitCmd (s : State) (c : Cmd) (h : HalfId) (flags : Nat) (retire : Bool) : State :=
  let p := c.params
  let u := unitKind (leAt p 1 1)
  let i := leAt p 2 2
  s.checked c (halfByte p ++ [(decide (leAt p 1 1 ≤ 4), 1), (decide (i < unitCount u) && !(s.half h).isRetired u i, 2), (decide (leAt p 4 4 ≤ flags), 4)])
    (fun s => s.askTest c h u i (decide (leAt p 4 4 = 1)) retire)
/-- SELFTEST (R462). -/
def execSelftest (id tm : Nat) (s : State) : Res := opcode 0x0601 id tm (fun s c h => s.unitCmd c h 1 false) s
/-- UNIT_RETIRE (R462). -/
def execUnitRetire (id tm : Nat) (s : State) : Res := opcode 0x0603 id tm (fun s c h => s.unitCmd c h 0 true) s

end Sys2Proof.Machine
end

