-- ==== Sys2Proof/Machine/FaultRows.lean ====
section
/-! DEFINITION. Faults as they are detected, injected and read, and the scrub of HBM (R386 to R390, R445 to R457, R463). -/
namespace Sys2Proof.Machine
open Sys2Proof

/-- The half in which a clock domain of R25 lies. -/
def domainHalf (d : Nat) : HalfId := if d < 132 then .east else if d < 264 then .west else if d < 283 then .east else .west
/-- Whether the block number of a fault names a unit of its half (R455). -/
def unitOk (h : HalfId) (cls unitNo : Nat) : Bool :=
  match cls with
  | 0 => decide (unitNo < 17)
  | 2 => decide (unitNo < 128)
  | 3 => decide (luBase h ≤ unitNo) && decide (unitNo < luBase h + 132)
  | 6 => decide (unitNo < 64)
  | 8 => decide (unitNo < 8)
  | 11 => decide (unitNo < 302) && decide (domainHalf unitNo = h)
  | _ => true
/-- FAULT_DETECTED (R445, R449 to R453). A fault while the service processor restarts waits for it; a half that is down meets none; class 14
faults are found by tests. -/
def execFaultDetected (f : FaultInfo) (tm : Nat) (s : State) : Res :=
  if 16 ≤ f.cls ∨ unitOk f.half f.cls f.unitNo = false ∨ (match f.lane with | some l => decide (256 ≤ l ∨ halfOf l ≠ f.half) | none => false) = true then noUnit
  else
    let s := s.at tm
    let H := s.half f.half
    if !s.runs || H.sp.down || decide (f.cls = 14) then stay s
    else .next (s.detect f)

/-- FAULT_READ (R455). -/
def FaultRecord.bytes (r : FaultRecord) : Bytes :=
  leBytes 4 r.number ++ leBytes 1 r.half ++ leBytes 1 r.cls ++ leBytes 1 r.action ++ leBytes 1 r.levee ++ leBytes 2 r.unitNo ++ leBytes 2 r.lane ++
    leBytes 4 r.frame ++ leBytes 8 r.time ++ leBytes 4 r.syndrome ++ leBytes 2 r.repeats ++ leBytes 2 r.rflags
def State.faultRead (s : State) (c : Cmd) (h : HalfId) : State :=
  let p := c.params
  let k := leAt p 8 4
  let rs := (s.half h).sp.records
  s.checked c (halfByte p ++ zeros p 1 3 ++ [(decide (1 ≤ k) && decide (k ≤ 64), 8)]) (fun s =>
    if rs.any (fun r => decide (r.number = leAt p 4 4)) then
      s.done c (((rs.filter (fun r => decide (leAt p 4 4 ≤ r.number))).take k).flatMap FaultRecord.bytes)
    else s.fail c stNotFound 0)
def execFaultRead (id tm : Nat) (s : State) : Res := opcode 0x0602 id tm (fun s c h => s.faultRead c h) s

/-- SCRUB (R388, R389, R452). -/
def execScrub (h : HalfId) (addr : Nat) (e : HbmError) (tm : Nat) (s : State) : Res :=
  if 48 * 2 ^ 30 ≤ addr then noUnit
  else
    let s := s.at tm
    let H := s.half h
    let q := pseudoChannelOf addr
    let row := Config.hbmRow addr
    if !s.runs || H.sp.down then stay s
    else if H.sp.spRestart then .next (if e = .none then s else s.putHalf h (H.putOff (.hbm q row e) s.time))
    else .next (s.hbmRead h q row e 0)
/-- PSEUDO_CHANNEL_SPARE (R389): the copy is complete, and accesses move to the spare. -/
def execPseudoChannelSpare (h : HalfId) (pc : Nat) (s : State) : Res :=
  if 64 ≤ pc then noUnit
  else
    let H := s.half h
    if !s.runs || H.sp.down || !H.sp.pcFailing.contains pc then stay s
    else
      let p := { H.sp with pcFailing := H.sp.pcFailing.filter (fun q => decide (q ≠ pc)), spared := H.sp.spared ++ [pc] }
      .next (s.putHalf h ((H.setSp p).lifeAdd 0x3C 4 1))

/-- The number of INDEX values of a site of FAULT_INJECT, from `base` on (R463). -/
def siteRange (h : HalfId) (site : Nat) : Nat × Nat :=
  match site with
  | 0 | 1 | 2 => (luBase h, 132)
  | 3 | 4 => (0, 17)
  | 5 => (0, 16)
  | 6 | 11 => (0, 2)
  | 7 | 8 => (0, 64)
  | 9 => (0, 302)
  | 10 => (0, 1)
  | _ => (0, 128)
/-- The fault of a site (R463): none where it lies in a context that holds no thread. -/
def State.siteFault (s : State) (h : HalfId) (site idx x : Nat) : Option FaultInfo :=
  let H := s.half h
  let f (cls : Nat) (lane : Option Nat) (k : FaultKind) : Option FaultInfo :=
    some { half := h, cls := cls, unitNo := idx, lane := lane, kind := k, syndrome := Config.freeNat s.draw % 2 ^ 32 }
  match site with
  | 0 => f 3 none .corrected
  | 1 => f 3 none .uncorrected
  | 2 => f 3 none .detected
  | 3 => match H.logicalOf idx with
    | none => none
    | some c =>
      if 14 ≤ x then f 0 none .detected
      else match Sparse.get noCtx H.ctxs (16 * c + x) with
        | 0 => none
        | v + 1 => f 0 (some (v / 4)) .context
  | 4 => f 0 none .detected
  | 5 => f 5 none .masked
  | 6 => f 7 none .masked
  | 9 => f 11 none .detected
  | 10 => f 10 none .detected
  | 11 => f 12 none .masked
  | 12 => f 2 (if (s.lane (laneNo h idx)).live then some (laneNo h idx) else none) (.memory 0)
  | _ => none
/-- A Towpath wire lost for 1 s: neither half hears a word on it (R463 site 11). -/
def State.loseWire (s : State) (w : Nat) : State :=
  let off (H : Half) : Half := { H with auth := { H.auth with wireOff := Sparse.set zeroNat H.auth.wireOff w (s.time + 1000000000) } }
  { s with east := off s.east, west := off s.west }
/-- An injected fault is handled as a real one, its record with INJECTED. -/
def State.afterInject (s : State) (f : FaultInfo) : State := { s with freeCtr := s.freeCtr + 1 }.fault f 1
/-- One fault of FAULT_INJECT. -/
def State.injectOne (s : State) (h : HalfId) (site idx x : Nat) : State :=
  if (s.half h).sp.spRestart || (s.half h).sp.down then s
  else if site = 7 then { s with freeCtr := s.freeCtr + 1 }.hbmRead h idx (Config.freeNat s.draw) .corrected 1
  else if site = 8 then s.hbmRead h idx 0 .uncorrected 1
  else match s.siteFault h site idx x with
    | some f => (if site = 11 then s.loseWire idx else s).afterInject f
    | none => s
/-- The repeats of FAULT_INJECT, 1 ms apart. -/
def State.injectMore (s : State) (h : HalfId) (site idx x : Nat) : Nat → State
  | 0 => s
  | n + 1 => ((s.at (s.time + 1000000)).injectOne h site idx x).injectMore h site idx x n
/-- FAULT_INJECT (R463): the result names the first record, or 0. -/
def State.faultInject (s : State) (c : Cmd) (h : HalfId) : State :=
  let p := c.params
  let site := leAt p 1 1
  let i := leAt p 2 2
  let w := leAt p 4 4
  let r := siteRange h site
  let x := w / 2 ^ 16 % 16
  s.checked c (halfByte p ++ [(decide (site ≤ 12), 1), (decide (r.1 ≤ i) && decide (i < r.1 + r.2) && (decide (site ≠ 9) || decide (domainHalf i = h)), 2),
      (decide (w / 64 % 4 = 0) && decide (1 ≤ w / 256 % 256) && decide (w / 2 ^ 20 = 0) && (decide (site = 3) || decide (x = 0)), 4)]) (fun s =>
    let old := (s.half h).sp.last
    let s := s.injectOne h site i x
    let first := if (s.half h).sp.last = old then 0 else old + 1
    let s := s.injectMore h site i x (w / 256 % 256 - 1)
    if (s.half h).sp.spRestart then s else s.done c (leBytes 4 first))
def execFaultInject (id tm : Nat) (s : State) : Res := opcode 0x0604 id tm (fun s c h => s.faultInject c h) s

end Sys2Proof.Machine
end

