-- ==== Sys2Proof/Machine/Integer.lean ====
section
/-! DEFINITION. The integer and floating-point instructions and the results of the units beside the pipe (R70, R85,
R112 to R115, R125 to R129). -/
namespace Sys2Proof.Machine
open Sys2Proof

/-- An operation handed to a unit beside the pipe (R85). -/
def Thread.dispatch (t : Thread) (u : PipeUnit) (w : List (Dest × Word)) (div : Option (Nat × Word × Nat)) : Thread :=
  { t with units := t.units ++ [{ unit := u, writes := w, div := div }] }

/-- ALU_OP (R112). -/
def execAluOp (c : Ctx) (fn : AluFn) (rd ra rb rc : RegNo) (s : State) : Res :=
  s.issue c (.alu fn rd ra rb rc) (fun e t =>
    ((t.setG rd (aluResult fn (t.gReg ra) (t.gReg rb) (t.gReg rc))).next).charge e 1)

/-- IMMEDIATE_OP (R113). -/
def execImmediateOp (c : Ctx) (fn : ImmFn) (rd ra : RegNo) (imm : BitVec 16) (s : State) : Res :=
  s.issue c (.imm fn rd ra imm) (fun e t => ((t.setG rd (immResult fn (t.gReg ra) imm)).next).charge e 1)

/-- The register writes of a multiply (R114). -/
def mulWrites (fn : MulFn) (rd rc : RegNo) (a b c : Word) : List (Dest × Word) :=
  match mulResult fn a b c with
  | (lo, some hi) => [(.g rd, lo), (.g rc, hi)]
  | (lo, none) => [(.g rd, lo)]

/-- MUL_OP (R114). -/
def execMulOp (c : Ctx) (fn : MulFn) (rd ra rb rc : RegNo) (s : State) : Res :=
  s.issue c (.mul fn rd ra rb rc) (fun e t =>
    ((t.dispatch .pipelined (mulWrites fn rd rc (t.gReg ra) (t.gReg rb) (t.gReg rc)) none).next).charge e 3)

/-- DIV_OP (R115). The divide keeps the VT, the PC and the CPUDIV at which it issued (R86). -/
def execDivOp (c : Ctx) (fn : DivFn) (rd ra rb rc : RegNo) (s : State) : Res :=
  s.issue c (.div fn rd ra rb rc) (fun e t =>
    let q := divResult fn (t.gReg ra) (t.gReg rb)
    ((t.dispatch .divider [(.g rd, q.1), (.g rc, q.2)] (some (t.vt, t.pc, e.cpu))).next).charge e 66)

/-- Virtual cycles of an FP operation (R143). -/
def fpCost : FpFn → Nat
  | .fadd | .fsub | .fmul => 4
  | .fdiv => 28
  | .fsqrt => 30
  | .fminn | .fmaxn | .fminp | .fmaxp | .fcmp | .fcmps | .fclass => 2
  | .ftoi | .itof | .ftof => 4
  | .fsign | .fbitsG | .fbitsF => 1

/-- The unit of an FP operation (R85). -/
def fpUnit : FpFn → PipeUnit
  | .fdiv | .fsqrt => .fpIter
  | .fadd | .fsub | .fmul | .fminn | .fmaxn | .fminp | .fmaxp | .fcmp | .fcmps | .fclass | .ftoi | .itof | .ftof | .fsign | .fbitsG
  | .fbitsF => .pipelined

/-- FP_OP (R127). The result comes from the FP unit; the sticky flags are set as the instruction issues. -/
def execFpOp (c : Ctx) (p : FpPrec) (fn : FpFn) (rd ra rb rc : RegNo) (s : State) : Res :=
  s.issue c (.fp p fn rd ra rb rc) (fun e t =>
    let x := if fpReadsG fn then t.gReg ra else t.fReg ra
    let r := fpResult p fn t.fcsr x (t.fReg rb) rb rc
    let d : Dest := if fpWritesG fn then .g rd else .f rd
    ((({ t with fcsr := fcsrOr t.fcsr r.2 }).dispatch (fpUnit fn) [(d, r.1)] none).next).charge e (fpCost fn))

/-- FMA_OP (R129). -/
def execFmaOp (c : Ctx) (p : FpPrec) (np na : Bool) (rd ra rb rc : RegNo) (s : State) : Res :=
  s.issue c (.fma p np na rd ra rb rc) (fun e t =>
    let r := fpFma p (fcsrRm t.fcsr) np na (t.fReg ra) (t.fReg rb) (t.fReg rc)
    ((({ t with fcsr := fcsrOr t.fcsr r.2 }).dispatch .pipelined [(.f rd, r.1)] none).next).charge e 5)

/-- Whether the divide of thread `t` completes (R86, R99): every event inside its span is fixed and none abandons it. -/
def Lane.divideDone (L : Lane) (t : Nat) : Bool :=
  let x := L.thread t
  if L.det then
    L.quiet x.vt && (match x.divide with
      | some (i, _) => (L.abandonPoint t i (x.vt + 1)).isNone
      | none => true)
  else !L.due t L.bvt
/-- Whether a unit may deliver a result of a context. -/
def State.unitDone (s : State) (c : Ctx) (u : UnitPend) : Bool :=
  match c with
  | .game l t => u.div.isNone || (s.lane l).divideDone t
  | .sys _ _ _ => true

/-- UNIT_RESULT_WRITE (R70, R114, R115): result `k` of the context's units is written. -/
def execUnitResultWrite (c : Ctx) (k : Nat) (s : State) : Res :=
  if !ctxOk c then noUnit
  else
    let x := s.thread c
    match x.units[k]? with
    | some u =>
      if s.unitDone c u then
        .next (s.putThread c (u.writes.foldl (fun t w => t.setDest w.1 w.2) { x with units := x.units.eraseIdx k }))
      else stay s
    | none => stay s

end Sys2Proof.Machine
end

