-- ==== Sys2Proof/Machine/LoadStore.lean ====
section
/-! DEFINITION. Loads, stores, atomic operations, the store buffer, the video gate and the prefetch queue (R79 to R97,
R119 to R124, R179, R180). -/
namespace Sys2Proof.Machine
open Sys2Proof

/-- The cost of a load by window (R143). -/
def loadCost (a : Nat) : Nat :=
  match windowOf a with
  | .near => 2
  | .regs => 4
  | .work | .video | .title | .outside => 24
/-- The cost of an AMO by window (R143). -/
def amoCost (a : Nat) : Nat :=
  match windowOf a with
  | .near => 3
  | .work | .video | .title | .regs | .outside => 25

/-- The buffered entries that meet a load (R91), the oldest first. -/
def Thread.meets (t : Thread) (a n : Nat) : List SbEntry := t.sb.filter (fun e => overlaps a n e.addr e.data.length)
/-- The bytes that the store buffer forwards to a load (R91): those of the youngest entry that meets it, where it covers
the load. -/
def Thread.forward (t : Thread) (a n : Nat) : Option Bytes :=
  match (t.meets a n).getLast? with
  | some e => if e.addr ≤ a ∧ a + n ≤ e.addr + e.data.length then some (slice e.data (a - e.addr) n) else none
  | none => none
/-- Whether a load waits for entries that meet it to leave (R91). -/
def Thread.partly (t : Thread) (a n : Nat) : Bool := !(t.meets a n).isEmpty && (t.forward a n).isNone

/-- How many stores, from the oldest buffered on, leave before a load of `n` bytes at `a` goes on: up to the youngest beam-side entry for
a load from the beam side (R92), up to the youngest entry that meets it for a load that they cover in part (R91). -/
def Thread.loadWait (t : Thread) (beam : Bool) (a n : Nat) : Nat :=
  let upTo (f : SbEntry → Bool) : Nat := (t.sb.zipIdx.filter (fun p => f p.1)).foldl (fun _ p => p.2 + 1) 0
  if beam then upTo (fun e => decide (windowOf e.addr = .regs))
  else if t.partly a n then upTo (fun e => overlaps a n e.addr e.data.length) else 0

/-- The register-window loads of thread `t` that can leave enter the beam-write queue (R85, R92): in program order, behind the
older beam-side stores of the context, while a slot is free. -/
def Lane.sendReads (L : Lane) (t : Nat) : Lane :=
  (L.thread t).loads.zipIdx.foldl (fun A q =>
    let p := q.1
    if p.beam && !p.sent && decide (p.wait = 0) && decide (A.queue.length < 64) then
      let y := A.thread t
      { A.setThread t { y with loads := y.loads.set q.2 { p with sent := true } } with
          queue := A.queue ++ [{ thread := t, stamp := p.stamp, off := regOff p.addr, width := loadWidth p.fn, data := 0,
                                 read := true, applied := false }] }
    else A) L
/-- `sendReads` for the lane of a context. -/
def State.sendReads (s : State) : Ctx → State
  | .game l t => s.putLane l ((s.lane l).sendReads t)
  | .sys _ _ _ => s

/-- A load begun: outstanding until its data returns (R88, R91). -/
def Thread.beginLoad (t : Thread) (e : CoreEnv) (fn : LoadFn) (rt : RegNo) (a : Nat) : Thread :=
  let n := loadWidth fn
  let beam := !e.sys && decide (windowOf a = .regs)
  let p : LoadPend :=
    { dest := if loadIsF fn then .f rt else .g rt, fn := fn, addr := a, stamp := t.vt, beam := beam, sent := false,
      wait := t.loadWait beam a n,
      reply := if beam || e.det then none else (t.forward a n).map leNat, split := none }
  ({ t.next with loads := t.loads ++ [p] }).charge e (loadCost a)

/-- LOAD (R95 to R97, R119 to R121). The manual gives system threads no address map: which of their accesses fail, and which meet a register
at a wrong width, is free (R4, R97). DESIGN CHOICE: every other access of theirs reaches plain memory. -/
def execLoad (c : Ctx) (fn : LoadFn) (rt base : RegNo) (off : BitVec 16) (s : State) : Res :=
  let x := s.thread c
  let a := effAddr (x.gReg base) off
  if !ctxOk c then noUnit
  else if !s.issues c (.load fn rt base off) then stay s
  else
    let e := s.env c
    let y := (x.stampNow e).beginLoad e fn rt a.toNat
    match c with
    | .game l _ =>
      match loadFault (s.lane l).titleLen a (loadWidth fn) with
      | some k => s.except c k
      | none => .next (((s.tookSlot c).putThread c y).sendReads c)
    | .sys _ _ _ =>
      match sysFault false a.toNat (loadWidth fn) with
      | some d => s.except c (.loadAccess a d.1 d.2)
      | none => .next ((s.tookSlot c).putThread c y)

/-- What memory holds for a context that does not follow virtual time. DESIGN CHOICE: a system thread's address reaches plain memory (R97),
and the memory that several cores cache is one (R93). -/
def State.plainRead (s : State) : Ctx → Nat → Nat → Bytes
  | .game l _, a, n => (List.range n).map (fun i => (s.lane l).baseByte (s.title l) (a + i))
  | .sys h _ _, a, n => (List.range n).map (fun i => (s.half h).sysMem.read ((a + i) % 2 ^ 64))

/-- Whether a store of thread `t` writes 1 to EXIT of its own LSYS_THR_CTL (R66); thread 0's is ignored. -/
def exitStore (t a : Nat) (data : Bytes) : Bool :=
  decide (t ≠ 0) && decide (a = 0xF00340C0 + 8 * t) && (leNat data).testBit 1

/-- STORE (R32, R66, R90, R95 to R97, R119 to R121): a thread that writes its own EXIT ends after this instruction; a store to the beam
side holds while the beam-write queue is full. A system thread's checks come before either half is buffered, and a half of the wrong width for
a register is discarded (R4, R97). -/
def execStore (c : Ctx) (fn : StoreFn) (rt base : RegNo) (off : BitVec 16) (s : State) : Res :=
  let x := s.thread c
  let a := effAddr (x.gReg base) off
  let n := storeWidth fn
  let data := leBytes n (if storeIsF fn then x.fReg rt else x.gReg rt).toNat
  if !ctxOk c then noUnit
  else if !s.issues c (.store fn rt base off) then stay s
  else
    let e := s.env c
    let x := x.stampNow e
    match c with
    | .game l t =>
      match storeFault (s.lane l).titleLen a n with
      | some k => s.except c k
      | none =>
        if windowOf a.toNat = .regs ∧ 64 ≤ (s.lane l).queue.length then stay s
        else
          let ent : SbEntry := { addr := a.toNat, data := data, stamp := x.vt }
          let z := ({ x.next with sb := x.sb ++ [ent] }).charge e 1
          .next ((s.tookSlot c).putThread c (if exitStore t a.toNat data then { z with active := false } else z))
    | .sys _ _ _ =>
      match sysFault true a.toNat n with
      | some d => s.except c (.storeAccess a d.1 d.2)
      | none =>
      let parts := splitAt a.toNat n
      if 8 < x.sb.length + parts.length then stay s
      else
        let es := (parts.filter (fun p => !Config.sysMisfit (p.1 % 2 ^ 64) p.2)).map (fun p => ({ addr := p.1 % 2 ^ 64, data := slice data (p.1 - a.toNat) p.2, stamp := 0 } : SbEntry))
        .next ((s.tookSlot c).putThread c (({ x.next with sb := x.sb ++ es }).charge e 1))

/-- The value an AMO of `n` bytes writes to rd (R122): the old value, sext of it for 32 bits. -/
def amoOld (n old : Nat) : Word := if n = 4 then sextN 32 old else w64 old
/-- The bytes an AMO stores. -/
def amoBytes (fn : AmoFn) (n old : Nat) (b c : Word) : Bytes :=
  leBytes n (amoNew fn (8 * n) old (b.toNat % 2 ^ (8 * n)) (c.toNat % 2 ^ (8 * n)))

/-- AMO (R122 to R124). A system thread's AMO reaches memory like its loads and stores. -/
def execAmo (c : Ctx) (fn : AmoFn) (w32 : Bool) (rd ra rb rc : RegNo) (s : State) : Res :=
  let x := s.thread c
  let a := x.gReg ra
  let n := if w32 then 4 else 8
  if !ctxOk c then noUnit
  else if !s.issues c (.amo fn w32 rd ra rb rc) then stay s
  else
    let e := s.env c
    let x := x.stampNow e
    match c with
    | .game l t =>
      let L := s.lane l
      match amoFault false a n with
      | some k => s.except c k
      | none =>
        if !x.sb.isEmpty || !L.amoTurn t || L.ckptHold x.vt a.toNat n || (!L.det && x.unread a.toNat n) then stay s
        else
          let old := leNat (if L.det then L.viewAt (s.title l) x.vt (t + 1) a.toNat n else s.plainRead c a.toNat n)
          let y := ((x.setG rd (amoOld n old)).next).charge e (amoCost a.toNat)
          let st : LogStore := { stamp := x.vt, rank := t + 1, addr := a.toNat,
                                 data := amoBytes fn n old (x.gReg rb) (x.gReg rc),
                                 gated := L.det && decide (windowOf a.toNat = .video) }
          if st.gated then
            if L.gateTakes st then .next ((s.tookSlot c).putLane l ((L.gated st).setThread t y)) else stay s
          else
            let r := (L.setThread t y).land st
            .next ((((s.tookSlot c).putLane l r.1).storeThrough l a.toNat st.data).ckptLost l r.2)
    | .sys h k _ =>
      match amoFault true a n with
      | some k => s.except c k
      | none =>
        if !x.sb.isEmpty || x.unread a.toNat n then stay s
        else
          let misfit := Config.sysMisfit a.toNat n
          let old := if misfit then 0 else leNat (s.plainRead c a.toNat n)
          let s' := (s.tookSlot c).putThread c (((x.setG rd (amoOld n old)).next).charge e 1)
          if misfit then .next s' else .next (s'.putHalf h ((s'.half h).storeSys k a.toNat (amoBytes fn n old (x.gReg rb) (x.gReg rc))))

/-- Whether the memory a load of `n` bytes at `a` with stamp `v` reads is decided (R49, R263, R280): the lane floor has
reached it, and the blitter's and the echo's stores below it are in memory. -/
def Lane.loadReady (L : Lane) (v : Nat) : Bool :=
  (List.range 4).all (fun u => !(L.thread u).active || L.reached u v) && L.unitsPast v

/-- The front of the beam-reply queue answers load `k` of thread `t` (R29, R31): the first of its loads that it fits. -/
def Lane.replyFor (L : Lane) (t k : Nat) : Option Nat :=
  match L.replies with
  | [] => none
  | r :: _ => if r.thread = t ∧ (L.thread t).loads.findIdx? (·.answers r) = some k then some r.value else none

/-- The data of outstanding load `p` of thread `t` of lane `l`, once it can return, and what its read leaves in the caches (R89, R91): a
normal-mode thread's from work RAM, video RAM and the title image pass through the data cache, near SRAM is never cached. -/
def State.laneData (s : State) (l : Nat) (p : LoadPend) : Option (Nat × State) :=
  let L := s.lane l
  let n := loadWidth p.fn
  if decide (p.wait ≠ 0) then none
  else if L.det then
    if L.loadReady p.stamp then some (leNat (L.viewAt (s.title l) p.stamp 0 p.addr n), s) else none
  else match p.reply with
    | some v => some (v, s)
    | none =>
      if windowOf p.addr = .near then some (leNat (s.plainRead (.game l 0) p.addr n), s)
      else
        let r := (s.half (halfOf l)).cachedRead (halfOf l) L.core (laneSpace l) p.addr n (fun b => s.plainRead (.game l 0) b 64)
        some (leNat r.1, s.putHalf (halfOf l) r.2)

/-- LOAD_DATA_RETURN (R29, R70, R88, R89): the data of load `k` is written to its destination. A split load of a system thread
reads its second half after the first (R96). -/
def execLoadDataReturn (c : Ctx) (k : Nat) (s : State) : Res :=
  if !ctxOk c then noUnit
  else
    let x := s.thread c
    match x.loads[k]? with
    | none => stay s
    | some p =>
      let done (s : State) (v : Nat) : State :=
        (s.putThread c ({ x with loads := x.loads.eraseIdx k }.setDest p.dest (loadResult p.fn v))).settle c
      match c with
      | .game l t =>
        if p.beam then
          match (s.lane l).replyFor t k with
          | some v => .next (done (s.putLane l { s.lane l with replies := (s.lane l).replies.drop 1 }) v)
          | none => stay s
        else match s.laneData l p with
          | some r => .next (done r.2 r.1)
          | none => stay s
      | .sys h core y =>
        let rd (a n : Nat) : Bytes × State :=
          let r := (s.half h).cachedRead h core 0 a n (fun b => s.plainRead (.sys h core y) b 64)
          if Config.sysMisfit a n then (List.replicate n 0, s) else (r.1, s.putHalf h r.2)
        if p.wait ≠ 0 then stay s
        else match p.reply, splitAt p.addr (loadWidth p.fn), p.split with
        | some v, _, _ => .next (done s v)
        | none, (a, n) :: [], _ => .next (done (rd a n).2 (leNat (rd a n).1))
        | none, (a, n) :: _, none =>
          let q : LoadPend := { p with split := some (rd a n).1 }
          .next ((rd a n).2.putThread c { x with loads := x.loads.set k q })
        | none, _ :: (a, n) :: _, some b => .next (done (rd (a % 2 ^ 64) n).2 (leNat (b ++ (rd (a % 2 ^ 64) n).1)))
        | none, [], _ => stay s

/-- The 8 bytes at `a` as a fill of thread `t`'s prefetch queue finds them (R80, R83). -/
def Lane.fillWord (L : Lane) (title : Bytes) (t a : Nat) : Word :=
  let x := L.thread t
  if L.det then w64 (L.codeAt title t x.vt a + 2 ^ 32 * L.codeAt title t x.vt (a + 4))
  else w64 (leNat ((List.range 8).map (fun i => L.baseByte title (a + i))))

/-- The words of a prefetch queue, from its front, that R83 leaves valid. -/
def Lane.validFills (L : Lane) (title : Bytes) (t : Nat) (q : List (Nat × Word)) : List (Nat × Word) :=
  if L.det then q.takeWhile (fun p => decide (p.2 = L.fillWord title t p.1)) else q

/-- The address of the next fill of a context (R79): behind the last word of its queue, or the word that holds the pc. -/
def nextFill (pc : Word) (q : List (Nat × Word)) : Nat :=
  match q.getLast? with
  | some p => p.1 + 8
  | none => pc.toNat / 8 * 8

/-- A fill by way of the line buffer and the instruction cache (R80): the word, the line buffer after it, and the half. -/
def Half.codeWord (H : Half) (h : HalfId) (core space : Nat) (lineBuf : Option (Nat × Bytes)) (a : Nat) (rd : Nat → Bytes) :
    Word × Option (Nat × Bytes) × Half :=
  let base := a / 64 * 64
  let word (b : Bytes) : Word := w64 (leNat (slice b (a % 64) 8))
  match lineBuf.filter (fun b => decide (b.1 = base)) with
  | some b => (word b.2, lineBuf, H)
  | none =>
    let r := H.cachedLine h true core space (a / 64) (rd base)
    (word r.1, some (base, r.1), r.2)

/-- PREFETCH_FILL (R79, R80, R83, R84): the next word fills the queue of an active context; in a deterministic lane words that
stores have covered go first, and a context whose entry is in progress goes on with it (R137). -/
def execPrefetchFill (c : Ctx) (s : State) : Res :=
  if !ctxOk c then noUnit
  else
    let x := s.thread c
    if !x.active then stay s
    else
      match c with
      | .game l t =>
        let L := s.lane l
        let title := s.title l
        match x.entering with
        | some p => s.goOn l t p
        | none =>
        let q := L.validFills title t x.prefetch
        let a := nextFill x.pc q
        if 4 ≤ q.length ∨ executable a L.titleLen = false then .next (s.putThread c { x with prefetch := q })
        else if L.det || decide (windowOf a = .near) then
          .next (s.putThread c { x with prefetch := q ++ [(a, L.fillWord title t a)] })
        else
          let r := (s.half (halfOf l)).codeWord (halfOf l) L.core (laneSpace l) x.lineBuf a (fun b => s.plainRead c b 64)
          .next ((s.putHalf (halfOf l) r.2.2).putThread c { x with prefetch := q ++ [(a, r.1)], lineBuf := r.2.1 })
      | .sys h k _ =>
        let a := nextFill x.pc x.prefetch
        if 4 ≤ x.prefetch.length then stay s
        else
          let r := (s.half h).codeWord h k 0 x.lineBuf a (fun b => s.plainRead c b 64)
          .next ((s.putHalf h r.2.2).putThread c { x with prefetch := x.prefetch ++ [(a, r.1)], lineBuf := r.2.1 })

/-- What becomes of the oldest store `e` of thread `t` (R90): it enters the beam-write queue, the video gate, or
memory; none where it holds. A store to the beam side lets the older loads of its context from there go first (R92), outside
deterministic mode one to memory the older loads of its bytes. -/
def Lane.drainStore (L : Lane) (t : Nat) (e : SbEntry) : Option (Lane × Nat) :=
  let st : LogStore := { stamp := e.stamp, rank := t + 1, addr := e.addr, data := e.data, gated := false }
  let held := L.ckptHold e.stamp e.addr e.data.length || (!L.det && (L.thread t).unread e.addr e.data.length)
  match windowOf e.addr with
  | .regs =>
    if L.queue.length < 64 ∧ (L.thread t).loads.all (fun p => !p.beam || p.sent || decide (p.wait ≠ 0)) = true then
      some ({ L with queue := L.queue ++ [{ thread := t, stamp := e.stamp, off := regOff e.addr, width := e.data.length,
                                            data := leNat e.data, read := false, applied := false }] }, 0)
    else none
  | .video =>
    if L.det then
      if L.gateTakes st then some (L.gated st, 0) else none
    else if held then none else some (L.land st)
  | .near | .work | .title | .outside => if held then none else some (L.land st)

/-- The oldest store has left: the loads that waited for it have one fewer to wait for. -/
def Thread.stored (t : Thread) : Thread :=
  { t with sb := t.sb.drop 1, loads := t.loads.map (fun p => { p with wait := p.wait - 1 }) }

/-- STORE_BUFFER_DRAIN (R89, R90): the oldest entry leaves when it is accepted; a register-window load that waited for it
follows. -/
def execStoreBufferDrain (c : Ctx) (s : State) : Res :=
  if !ctxOk c then noUnit
  else
    let x := s.thread c
    match c with
    | .game l t =>
      match x.sb with
      | [] => .next (s.sendReads c)
      | e :: _ =>
        match (s.lane l).drainStore t e with
        | none => stay s
        | some (A, n) =>
          .next (((((s.putLane l (A.setThread t (A.thread t).stored)).storeThrough l e.addr e.data).sendReads c).ckptLost l n).settle c)
    | .sys h k _ =>
      match x.sb with
      | [] => stay s
      | e :: _ =>
        if x.unread e.addr e.data.length then stay s
        else
          let s' := s.putThread c x.stored
          .next (s'.putHalf h ((s'.half h).storeSys k e.addr e.data))

/-- Whether a fetch that belongs to a milestone at or below `m` remains to be done (R180): of the beam's pass, of the
tailrace pass, or of the sound unit. -/
def Lane.fetchLeft (L : Lane) (m : Nat) : Bool :=
  let left (r : Ras) : Bool := decide (L.tm.lineVt r.ff r.fl ≤ m) || r.lines.any (fun f => !f.complete && decide (L.tm.lineVt f.frame f.line ≤ m))
  left L.unit.ras || (match L.tail with | some r => left r | none => false) || decide (L.unit.snd.nextFetch ≤ m)

/-- The first entry of the gate in the order of k, of entries of one k the first to arrive (R180). -/
def Lane.gateFirst (L : Lane) : Option (Nat × Nat) :=
  L.gate.foldl (fun acc k => match acc with
    | none => some k
    | some j => if k.1 < j.1 then some k else some j) none

/-- The entry written to video RAM: its stores land. -/
def Lane.gateWrite (L : Lane) (k : Nat × Nat) : Lane × Nat :=
  let mine := L.log.filter (fun e => e.gated && decide (L.gateKey e = k))
  let A := { L with gate := L.gate.erase k, log := L.log.map (fun e => if e.gated && decide (L.gateKey e = k) then { e with gated := false } else e) }
  mine.foldl (fun r e =>
    let q := r.1.copyOnWrite e.stamp e.addr e.data.length
    (q.1.markOpaque e.addr e.data.length, r.2 + q.2)) (A, 0)

/-- VIDEO_GATE_WRITE (R180): the first entry of the gate leaves once no fetch at or below its milestone remains. -/
def execVideoGateWrite (l : Nat) (s : State) : Res :=
  s.onLane l (fun L =>
    match L.gateFirst with
    | none => none
    | some k =>
      if L.fetchLeft (L.tm.milVt k.1) || L.ckptHold (L.tm.milVt k.1) (k.2 * 64) 64 then none
      else some (L.gateWrite k))

end Sys2Proof.Machine
end

