-- ==== Sys2Proof/Machine/Sound.lean ====
section
/-! DEFINITION. The lane sound unit as commands (R269 to R291). -/
namespace Sys2Proof.Machine
open Sys2Proof

/-- SNDDIV (R269). -/
def Lane.sndDiv (L : Lane) : Nat := bits (L.unit.reg 0x21000) 0 17
/-- Whether a VT lies below the boundary of a timing change that is bound. -/
def Lane.beforeChange (L : Lane) (v : Nat) : Bool := match L.newTiming with | some (f, _) => decide (v < f) | none => true

/-- Whether the sound fetch of the next line may start (R176, R276). -/
def Lane.canSoundFetch (L : Lane) : Bool :=
  let m := L.unit.snd.nextFetch
  decide (L.phase = .running) && (L.beforeChange m || L.beforeChange (m - 1)) && L.beamReach (L.fetchFrom m L.det) &&
    (!L.det || decide (m < L.unit.snd.nextPlan) || decide (L.planPoint m ≤ L.unit.snd.tick)) &&
    (!L.det || (L.running.all (fun v => decide (m < v)) && L.arrived (m + 1) && L.silent (fun _ => false) (m + 1) &&
      L.queue.all (fun e => e.read || decide (e.off < 0x20000) || decide (0x30000 ≤ e.off) || decide (L.planPoint m < L.dotOf e)) &&
      !L.log.any (fun e => e.gated && decide (e.stamp < m)) && L.bltPast m))
/-- The sound fetch of the next line (R276 to R278). -/
def Lane.soundFetch (L : Lane) : Lane :=
  let m := L.unit.snd.nextFetch
  let A := if m < L.unit.snd.nextPlan then L else L.planLine
  let s := A.unit.snd
  let p := (s.plans.find? (fun p => decide (p.mil = m))).getD { mil := m, cut := 0, need := 0 }
  let view := videoPart (if A.det then A.memAt m else A.mem)
  let f : SndLine := { mil := m, cut := p.cut, need := p.need, view := view, echo := view, taken := [], shown := false }
  let old := s.lines.length - 5
  let A := A.showCuts (((s.lines.take old).map (·.mil + 1)).foldl max 0)
  let s := A.unit.snd
  let keep := s.lines.drop old
  let n : Sound := { s with lines := keep ++ [f], plans := s.plans.filter (fun q => decide (m < q.mil)),
                            nextFetch := A.milVt (A.tm.milIndex m + 1) }
  let B := A.beamTo (A.fetchFrom m A.det)
  { B with unit := { B.unit with snd := n } }

/-- SOUND_FETCH_START (R276 to R278). -/
def execSoundFetchStart (l : Nat) (s : State) : Res :=
  s.onLane l (fun L => if L.canSoundFetch then some (L.soundFetch, 0) else none)

/-- The fetched line to which a tick belongs (R270). -/
def Lane.tickLine (L : Lane) : Option SndLine :=
  let m := L.tm.milVt (L.tm.milIndex L.unit.snd.tick)
  L.unit.snd.lines.find? (fun f => decide (f.mil = m))
/-- Whether thread `t` stands at VT `v` before an AMO, which waits for the echo's store of that VT (R124, R280) and writes no register. -/
def Lane.amoAt (L : Lane) (title : Bytes) (t v : Nat) : Bool :=
  let x := L.thread t
  decide (x.vt = v) && !x.waiting && !x.dividing && x.entering.isNone && L.codeFresh title t &&
    (match x.word.bind ndecode with | some (.amo _ _ _ _ _ _) => true | _ => false)
/-- Whether the next tick can be computed (R58, R272, R274). -/
def Lane.canTick (L : Lane) (title : Bytes) : Bool :=
  let v := L.unit.snd.tick
  decide (L.phase = .running) && decide (0 < L.sndDiv) && L.beforeChange v && L.beamReach v && (decide (L.hold ≠ .vblank) || decide (v < L.bvt)) &&
    (!L.det || (L.silent (fun u => L.amoAt title u v) (v + 1) && L.silent (fun _ => false) v && L.arrived (v + 1) &&
      L.queue.all (fun e => decide (e.off < 0x20000) || decide (0x30000 ≤ e.off) || decide (v < L.dotOf e)))) &&
    (!echoOn L.unit.reg || !L.ckptHold v (echoAddr L.unit.reg L.unit.snd.w 0) 4)

/-- The bytes the sound unit reads for a tick, `video` being the video RAM it sees (R275, R276). -/
def soundByte (title : Bytes) (video : Mem) (a : Nat) : Byte :=
  match windowOf a with
  | .video => video.read (a - 0x20000000)
  | .title => title.getD (a - 0x40000000) 0
  | .near | .work | .regs | .outside => 0
/-- The echo's writes at VT `v` in the fetched lines (R276, R280): its own reads see them at once; for the rest a line that a deterministic lane
has fetched ahead has them in their place among the stores below its milestone (R49), and no line sees those of its own ticks. -/
def Lane.echoed (L : Lane) (v : Nat) (ws : List (Nat × Byte)) : Lane :=
  let s := L.unit.snd
  let see (f : SndLine) : SndLine :=
    if L.det && decide (v < f.mil) then { f with view := videoPart (L.memAt f.mil), echo := videoPart (L.memAt f.mil) }
    else { f with echo := ws.foldl (fun m w => m.write (w.1 - 0x20000000) w.2) f.echo }
  if ws.isEmpty then L else { L with unit := { L.unit with snd := { s with lines := s.lines.map see } } }
/-- The flags a tick raises, with sources 35 and 36 (R285, R290). -/
def Lane.sndFlags (L : Lane) (v ends loops : Nat) : Lane :=
  let fresh (flag en new : Nat) : Bool := decide ((new &&& (L.unit.reg en).toNat) ||| (L.unit.reg flag).toNat ≠ (L.unit.reg flag).toNat)
  let u := (L.unit.setReg 0x21018 (L.unit.reg 0x21018 ||| w64 ends)).setReg 0x21020 (L.unit.reg 0x21020 ||| w64 loops)
  let A : Lane := { L with unit := u }
  let A := if fresh 0x21018 0x21028 ends then A.raiseBeam 35 v else A
  if fresh 0x21020 0x21030 loops then A.raiseBeam 36 v else A

/-- The four bytes that a tick's echo write touches (R288). -/
def Lane.echoAt (L : Lane) : Nat := echoAddr L.unit.reg L.unit.snd.w 0
/-- One tick (R271). A retrigger latch is cleared, but for bits set at its own VT (R7). A tick that a rollback computes again below the
boundary of the frame that was in progress gives weir 0 no frame (R297). -/
def Lane.tickNow (l : Nat) (L : Lane) (title : Bytes) (f : SndLine) : Lane × Nat :=
  let v := L.unit.snd.tick
  let A := (L.beamTo v).planTo v true
  let r := soundTick A.unit.reg (soundByte title f.view) (soundByte title f.echo) A.titleLen f.cut v A.unit.snd
  let ws := r.echo.getD []
  let st := A.unit.reg 0x210C8
  let st := putBits st 48 16 (max (bits st 48 16) (satBits 16 (A.bvt - v)))
  let s : Sound := { r.snd with tick := v + A.sndDiv }
  let again := if s.retrig.1 = v then s.retrig.2 &&& A.unit.reg 0x21010 else 0
  let u : LaneUnit := { A.unit with snd := s }
  let again' := match A.roll with | some q => decide (A.tm.frameAt v < q.d) | none => false
  let au : Audio := { A.audio with handoff := if again' then A.audio.handoff else A.audio.handoff ++ [r.out] }
  let B : Lane := { A with unit := (u.setReg 0x210C8 st).setReg 0x21010 again, audio := au }
  let C := B.sndFlags v r.ends r.loops
  match ws with
  | [] => (C, 0)
  | (a, _) :: _ =>
    let q := (C.fetchesSee l [(a, ws.map (·.2))]).land { stamp := if C.det then v else C.bvt, rank := 0, addr := a, data := ws.map (·.2), gated := C.det }
    (q.1.echoed v ws, q.2)

/-- SOUND_TICK (R271, R272, R274): the cache lines that the echo writes are invalidated first (R89). -/
def execSoundTick (l : Nat) (s : State) : Res :=
  match (s.lane l).tickLine with
  | none => s.onLane l (fun _ => none)
  | some f =>
    if !(s.lane l).canTick (s.title l) then s.onLane l (fun _ => none)
    else
      let t := if echoOn (s.lane l).unit.reg then s.dropWritten l (s.lane l).echoAt 4 else s
      t.onLane l (fun L => some (L.tickNow l (s.title l) f))

/-- A write of a sound register. -/
def sndRow (off v : Nat) (l : Nat) (s : State) : Res :=
  s.onLane l (fun L => L.viaQueue (fun e => !e.read && decide (e.off = off) && decide (e.data = v))
    (fun A => A.store { thread := 0, stamp := A.bvt, off := off, width := 8, data := v, read := false, applied := false } A.bvt))
/-- SND_GATE_SET (R281). -/
def execSndGateSet (l : Nat) (v : BitVec 64) (s : State) : Res := sndRow 0x21050 v.toNat l s
/-- SND_GATE_CLR (R281). -/
def execSndGateClr (l : Nat) (v : BitVec 64) (s : State) : Res := sndRow 0x21058 v.toNat l s
/-- SND_RETRIG (R281). -/
def execSndRetrig (l : Nat) (v : BitVec 64) (s : State) : Res := sndRow 0x21010 v.toNat l s
/-- SND_ECHO_CTL_WRITE (R288). -/
def execSndEchoCtlWrite (l : Nat) (v : BitVec 64) (s : State) : Res := sndRow 0x21040 v.toNat l s

end Sys2Proof.Machine
end

