-- ==== Sys2Proof/Machine/Dispatch.lean ====
section
/-! DEFINITION. The dispatch: each command of the block to its meaning. -/
namespace Sys2Proof.Machine
open Sys2Proof

/-- The effect of a command on everything but the queue. -/
def exec (i : Instr) (s : State) : Host.Outcome State Fault Refusal :=
  match i with
  | .aluOp c fn rd ra rb rc => Sys2Proof.Machine.execAluOp c fn rd ra rb rc s
  | .immediateOp c fn rd ra imm => Sys2Proof.Machine.execImmediateOp c fn rd ra imm s
  | .mulOp c fn rd ra rb rc => Sys2Proof.Machine.execMulOp c fn rd ra rb rc s
  | .divOp c fn rd ra rb rc => Sys2Proof.Machine.execDivOp c fn rd ra rb rc s
  | .unitResultWrite c k => Sys2Proof.Machine.execUnitResultWrite c k s
  | .fpOp c p fn rd ra rb rc => Sys2Proof.Machine.execFpOp c p fn rd ra rb rc s
  | .fmaOp c p np na rd ra rb rc => Sys2Proof.Machine.execFmaOp c p np na rd ra rb rc s
  | .compareAndBranch c fn ra rb off => Sys2Proof.Machine.execCompareAndBranch c fn ra rb off s
  | .j c off => Sys2Proof.Machine.execJ c off s
  | .jal c off => Sys2Proof.Machine.execJal c off s
  | .jalr c rd ra imm => Sys2Proof.Machine.execJalr c rd ra imm s
  | .load c fn rt base off => Sys2Proof.Machine.execLoad c fn rt base off s
  | .store c fn rt base off => Sys2Proof.Machine.execStore c fn rt base off s
  | .amo c fn w32 rd ra rb rc => Sys2Proof.Machine.execAmo c fn w32 rd ra rb rc s
  | .mfs c rd n => Sys2Proof.Machine.execMfs c rd n s
  | .mts c ra n => Sys2Proof.Machine.execMts c ra n s
  | .ecall c n => Sys2Proof.Machine.execEcall c n s
  | .ebreak c => Sys2Proof.Machine.execEbreak c s
  | .eret c => Sys2Proof.Machine.execEret c s
  | .wait c => Sys2Proof.Machine.execWait c s
  | .waitResume c => Sys2Proof.Machine.execWaitResume c s
  | .mbar c => Sys2Proof.Machine.execMbar c s
  | .isync c => Sys2Proof.Machine.execIsync c s
  | .sysx c bits => Sys2Proof.Machine.execSysx c bits s
  | .interruptEntry c => Sys2Proof.Machine.execInterruptEntry c s
  | .loadDataReturn c k => Sys2Proof.Machine.execLoadDataReturn c k s
  | .prefetchFill c => Sys2Proof.Machine.execPrefetchFill c s
  | .storeBufferDrain c => Sys2Proof.Machine.execStoreBufferDrain c s
  | .videoGateWrite l => Sys2Proof.Machine.execVideoGateWrite l s
  | .beamWriteApply l => Sys2Proof.Machine.execBeamWriteApply l s
  | .stampedReadRelease l t => Sys2Proof.Machine.execStampedReadRelease l t s
  | .milestone l => Sys2Proof.Machine.execMilestone l s
  | .frameBoundary l tm => Sys2Proof.Machine.execFrameBoundary l tm s
  | .frameLate l v => Sys2Proof.Machine.execFrameLate l v s
  | .slackHold l v tm => Sys2Proof.Machine.execSlackHold l v tm s
  | .slackHoldEnd l tm => Sys2Proof.Machine.execSlackHoldEnd l tm s
  | .vblankHoldEnd l tm => Sys2Proof.Machine.execVblankHoldEnd l tm s
  | .holdFault l tm => Sys2Proof.Machine.execHoldFault l tm s
  | .crossThreadEffect l => Sys2Proof.Machine.execCrossThreadEffect l s
  | .thrCtlStart l w t stamp => Sys2Proof.Machine.execThrCtlStart l w t stamp s
  | .thrCtlExit l w t stamp => Sys2Proof.Machine.execThrCtlExit l w t stamp s
  | .pauseTakesEffect l tm => Sys2Proof.Machine.execPauseTakesEffect l tm s
  | .laneWake l tm => Sys2Proof.Machine.execLaneWake l tm s
  | .licSourcePending l n => Sys2Proof.Machine.execLicSourcePending l n s
  | .licEoi l w stamp v => Sys2Proof.Machine.execLicEoi l w stamp v s
  | .licEnableSet l w stamp v => Sys2Proof.Machine.execLicEnableSet l w stamp v s
  | .licEnableClr l w stamp v => Sys2Proof.Machine.execLicEnableClr l w stamp v s
  | .licPendClear l w stamp v => Sys2Proof.Machine.execLicPendClear l w stamp v s
  | .licPendSet l w stamp v => Sys2Proof.Machine.execLicPendSet l w stamp v s
  | .timerTick l n => Sys2Proof.Machine.execTimerTick l n s
  | .timerWrap l n => Sys2Proof.Machine.execTimerWrap l n s
  | .timerCompare l n vt => Sys2Proof.Machine.execTimerCompare l n vt s
  | .timCtlWrite l n v vt => Sys2Proof.Machine.execTimCtlWrite l n v vt s
  | .timCntWrite l n v vt => Sys2Proof.Machine.execTimCntWrite l n v vt s
  | .timCmpWrite l n v vt => Sys2Proof.Machine.execTimCmpWrite l n v vt s
  | .timerStart l n v vt => Sys2Proof.Machine.execTimerStart l n v vt s
  | .timerStop l n v vt => Sys2Proof.Machine.execTimerStop l n v vt s
  | .timCapTrig l v vt => Sys2Proof.Machine.execTimCapTrig l v vt s
  | .timCapRead l n => Sys2Proof.Machine.execTimCapRead l n s
  | .timCntPairRead l k => Sys2Proof.Machine.execTimCntPairRead l k s
  | .lineFetchStart l p => Sys2Proof.Machine.execLineFetchStart l p s
  | .lineFetchComplete l p => Sys2Proof.Machine.execLineFetchComplete l p s
  | .opacityRescan l => Sys2Proof.Machine.execOpacityRescan l s
  | .rasOpqWrite l j v => Sys2Proof.Machine.execRasOpqWrite l j v s
  | .dotCompose l p => Sys2Proof.Machine.execDotCompose l p s
  | .tapFrameEnd l => Sys2Proof.Machine.execTapFrameEnd l s
  | .pointBRead l => Sys2Proof.Machine.execPointBRead l s
  | .sliceClose l tm => Sys2Proof.Machine.execSliceClose l tm s
  | .cpsCommitReq l v vt => Sys2Proof.Machine.execCpsCommitReq l v vt s
  | .overlayCopy l => Sys2Proof.Machine.execOverlayCopy l s
  | .cpsTapIdxWrite l v => Sys2Proof.Machine.execCpsTapIdxWrite l v s
  | .bltStart l v vt => Sys2Proof.Machine.execBltStart l v vt s
  | .bltGroup l => Sys2Proof.Machine.execBltGroup l s
  | .bltEnd l => Sys2Proof.Machine.execBltEnd l s
  | .soundFetchStart l => Sys2Proof.Machine.execSoundFetchStart l s
  | .soundTick l => Sys2Proof.Machine.execSoundTick l s
  | .sndGateSet l v => Sys2Proof.Machine.execSndGateSet l v s
  | .sndGateClr l v => Sys2Proof.Machine.execSndGateClr l v s
  | .sndRetrig l v => Sys2Proof.Machine.execSndRetrig l v s
  | .sndEchoCtlWrite l v => Sys2Proof.Machine.execSndEchoCtlWrite l v s
  | .weirInput l w => Sys2Proof.Machine.execWeirInput l w s
  | .streamSample l => Sys2Proof.Machine.execStreamSample l s
  | .nodeTimeout l o k1 => Sys2Proof.Machine.execNodeTimeout l o k1 s
  | .opusFrameEncode l o => Sys2Proof.Machine.execOpusFrameEncode l o s
  | .audioSend l o tm => Sys2Proof.Machine.execAudioSend l o tm s
  | .announceRead l wr data => Sys2Proof.Machine.execAnnounceRead l wr data s
  | .datagramTransmit h v tm => Sys2Proof.Machine.execDatagramTransmit h v tm s
  | .lateTxDiscard h v tm => Sys2Proof.Machine.execLateTxDiscard h v tm s
  | .timingReport h v tm => Sys2Proof.Machine.execTimingReport h v tm s
  | .moveRepeat h v tm => Sys2Proof.Machine.execMoveRepeat h v tm s
  | .leaveRepeat h v tm => Sys2Proof.Machine.execLeaveRepeat h v tm s
  | .ack h rx tm => Sys2Proof.Machine.execAck h rx tm s
  | .refresh h rx tm => Sys2Proof.Machine.execRefresh h rx tm s
  | .input h rx tm => Sys2Proof.Machine.execInput h rx tm s
  | .accessory h rx tm => Sys2Proof.Machine.execAccessory h rx tm s
  | .voice h rx tm => Sys2Proof.Machine.execVoice h rx tm s
  | .join h rx tm => Sys2Proof.Machine.execJoin h rx tm s
  | .probe h rx tm => Sys2Proof.Machine.execProbe h rx tm s
  | .command h rx tm => Sys2Proof.Machine.execCommand h rx tm s
  | .arpRequest h k ip mac => Sys2Proof.Machine.execArpRequest h k ip mac s
  | .neighbourSolicitation h k ip mac => Sys2Proof.Machine.execNeighbourSolicitation h k ip mac s
  | .padInputApply l => Sys2Proof.Machine.execPadInputApply l s
  | .accessoryApply l => Sys2Proof.Machine.execAccessoryApply l s
  | .viewerChangeApply l => Sys2Proof.Machine.execViewerChangeApply l s
  | .notifyApply l => Sys2Proof.Machine.execNotifyApply l s
  | .viewerIdle h v tm => Sys2Proof.Machine.execViewerIdle h v tm s
  | .lockTimeout l tm => Sys2Proof.Machine.execLockTimeout l tm s
  | .subportFail h k tm => Sys2Proof.Machine.execSubportFail h k tm s
  | .gratuitousArp h k => Sys2Proof.Machine.execGratuitousArp h k s
  | .failback h k tm => Sys2Proof.Machine.execFailback h k tm s
  | .contextCapture l t => Sys2Proof.Machine.execContextCapture l t s
  | .nearSramPageCopy l => Sys2Proof.Machine.execNearSramPageCopy l s
  | .laneUnitStateRecord l => Sys2Proof.Machine.execLaneUnitStateRecord l s
  | .checkpointGood l tm => Sys2Proof.Machine.execCheckpointGood l tm s
  | .restoreComplete l tm => Sys2Proof.Machine.execRestoreComplete l tm s
  | .scrub h addr e tm => Sys2Proof.Machine.execScrub h addr e tm s
  | .pseudoChannelSpare h pc => Sys2Proof.Machine.execPseudoChannelSpare h pc s
  | .titleCopyComplete h title => Sys2Proof.Machine.execTitleCopyComplete h title s
  | .snapshotRound l tm => Sys2Proof.Machine.execSnapshotRound l tm s
  | .submissionFetch h q entry params tm => Sys2Proof.Machine.execSubmissionFetch h q entry params tm s
  | .completionWrite h q ok tm => Sys2Proof.Machine.execCompletionWrite h q ok tm s
  | .eventRingWrite h tm => Sys2Proof.Machine.execEventRingWrite h tm s
  | .sqTailWrite h q v => Sys2Proof.Machine.execSqTailWrite h q v s
  | .cqHeadWrite h q v => Sys2Proof.Machine.execCqHeadWrite h q v s
  | .evHeadWrite h v => Sys2Proof.Machine.execEvHeadWrite h v s
  | .queuePairEnable h q v => Sys2Proof.Machine.execQueuePairEnable h q v s
  | .queuePairDisable h q v => Sys2Proof.Machine.execQueuePairDisable h q v s
  | .eventRingEnable h v => Sys2Proof.Machine.execEventRingEnable h v s
  | .msixVectorUnmask h vec tm => Sys2Proof.Machine.execMsixVectorUnmask h vec tm s
  | .functionLevelReset h => Sys2Proof.Machine.execFunctionLevelReset h s
  | .smbusBlockWrite packet pecOk tm => Sys2Proof.Machine.execSmbusBlockWrite packet pecOk tm s
  | .smbusBlockRead => Sys2Proof.Machine.execSmbusBlockRead s
  | .smbusAlertResponse => Sys2Proof.Machine.execSmbusAlertResponse s
  | .laneStart id tm => Sys2Proof.Machine.execLaneStart id tm s
  | .laneStop id tm => Sys2Proof.Machine.execLaneStop id tm s
  | .lanePause id tm => Sys2Proof.Machine.execLanePause id tm s
  | .laneResume id tm => Sys2Proof.Machine.execLaneResume id tm s
  | .laneNotify id tm => Sys2Proof.Machine.execLaneNotify id tm s
  | .laneQuery id tm => Sys2Proof.Machine.execLaneQuery id tm s
  | .viewerAdd id tm => Sys2Proof.Machine.execViewerAdd id tm s
  | .viewerRemove id tm => Sys2Proof.Machine.execViewerRemove id tm s
  | .viewerSet id tm => Sys2Proof.Machine.execViewerSet id tm s
  | .viewerRekey id tm => Sys2Proof.Machine.execViewerRekey id tm s
  | .viewerKeyframe id tm => Sys2Proof.Machine.execViewerKeyframe id tm s
  | .lanePacer id tm => Sys2Proof.Machine.execLanePacer id tm s
  | .timingSet id tm => Sys2Proof.Machine.execTimingSet id tm s
  | .laneTune id tm => Sys2Proof.Machine.execLaneTune id tm s
  | .ovLoad id tm => Sys2Proof.Machine.execOvLoad id tm s
  | .opSet id tm => Sys2Proof.Machine.execOpSet id tm s
  | .opCommit id tm => Sys2Proof.Machine.execOpCommit id tm s
  | .xptSet id tm => Sys2Proof.Machine.execXptSet id tm s
  | .announceRing id tm => Sys2Proof.Machine.execAnnounceRing id tm s
  | .titleLoad id data tm => Sys2Proof.Machine.execTitleLoad id data tm s
  | .titleUnload id tm => Sys2Proof.Machine.execTitleUnload id tm s
  | .titleRepair id data tm => Sys2Proof.Machine.execTitleRepair id data tm s
  | .laneSnapshot id tm => Sys2Proof.Machine.execLaneSnapshot id tm s
  | .laneRestore id image tm => Sys2Proof.Machine.execLaneRestore id image tm s
  | .movePlan id tm => Sys2Proof.Machine.execMovePlan id tm s
  | .laneMove id tm => Sys2Proof.Machine.execLaneMove id tm s
  | .monRead id tm => Sys2Proof.Machine.execMonRead id tm s
  | .monLimits id tm => Sys2Proof.Machine.execMonLimits id tm s
  | .lifeRead id tm => Sys2Proof.Machine.execLifeRead id tm s
  | .lifeFlush id tm => Sys2Proof.Machine.execLifeFlush id tm s
  | .selftest id tm => Sys2Proof.Machine.execSelftest id tm s
  | .faultRead id tm => Sys2Proof.Machine.execFaultRead id tm s
  | .unitRetire id tm => Sys2Proof.Machine.execUnitRetire id tm s
  | .faultInject id tm => Sys2Proof.Machine.execFaultInject id tm s
  | .fwStage id data tm => Sys2Proof.Machine.execFwStage id data tm s
  | .fwCommit id tm => Sys2Proof.Machine.execFwCommit id tm s
  | .fwQuery id tm => Sys2Proof.Machine.execFwQuery id tm s
  | .presenceStatus id tm => Sys2Proof.Machine.execPresenceStatus id tm s
  | .presenceEnd id tm => Sys2Proof.Machine.execPresenceEnd id tm s
  | .ctrlFlow id tm => Sys2Proof.Machine.execCtrlFlow id tm s
  | .devInfo id tm => Sys2Proof.Machine.execDevInfo id tm s
  | .portCfg id tm => Sys2Proof.Machine.execPortCfg id tm s
  | .portAddr id tm => Sys2Proof.Machine.execPortAddr id tm s
  | .portDrain id tm => Sys2Proof.Machine.execPortDrain id tm s
  | .regRead id tm => Sys2Proof.Machine.execRegRead id tm s
  | .drain id tm => Sys2Proof.Machine.execDrain id tm s
  | .drainStatus id tm => Sys2Proof.Machine.execDrainStatus id tm s
  | .eventSub id tm => Sys2Proof.Machine.execEventSub id tm s
  | .nop id tm => Sys2Proof.Machine.execNop id tm s
  | .faultDetected f tm => Sys2Proof.Machine.execFaultDetected f tm s
  | .spRestartComplete h tm => Sys2Proof.Machine.execSpRestartComplete h tm s
  | .halfRecoveryEnd h ok tm => Sys2Proof.Machine.execHalfRecoveryEnd h ok tm s
  | .laneUnitRotation h tm => Sys2Proof.Machine.execLaneUnitRotation h tm s
  | .spareHandoff l tm => Sys2Proof.Machine.execSpareHandoff l tm s
  | .unitTestComplete h u idx pass tm => Sys2Proof.Machine.execUnitTestComplete h u idx pass tm s
  | .coreSwap h tm => Sys2Proof.Machine.execCoreSwap h tm s
  | .heartbeatSend h tm => Sys2Proof.Machine.execHeartbeatSend h tm s
  | .heartbeatReceive h wire word tm => Sys2Proof.Machine.execHeartbeatReceive h wire word tm s
  | .heartbeatMiss h tm => Sys2Proof.Machine.execHeartbeatMiss h tm s
  | .claimResolve h up down tm => Sys2Proof.Machine.execClaimResolve h up down tm s
  | .roleListenEnd h tm => Sys2Proof.Machine.execRoleListenEnd h tm s
  | .authoritySample h up down => Sys2Proof.Machine.execAuthoritySample h up down s
  | .monitorUpdate h cls idx value tm => Sys2Proof.Machine.execMonitorUpdate h cls idx value tm s
  | .ladderPause h tm => Sys2Proof.Machine.execLadderPause h tm s
  | .ladderResume h tm => Sys2Proof.Machine.execLadderResume h tm s
  | .avsUpdate h acked readback tm => Sys2Proof.Machine.execAvsUpdate h acked readback tm s
  | .avsRetry h acked readback tm => Sys2Proof.Machine.execAvsRetry h acked readback tm s
  | .droopStart h rail tm => Sys2Proof.Machine.execDroopStart h rail tm s
  | .droopEnd h rail depth tm => Sys2Proof.Machine.execDroopEnd h rail depth tm s
  | .thermtrip tm => Sys2Proof.Machine.execThermtrip tm s
  | .lifeSecond h tm => Sys2Proof.Machine.execLifeSecond h tm s
  | .lifetimeFlush h tm => Sys2Proof.Machine.execLifetimeFlush h tm s
  | .mirrorWrite h reached => Sys2Proof.Machine.execMirrorWrite h reached s
  | .pwrgdRise pins tm => Sys2Proof.Machine.execPwrgdRise pins tm s
  | .pwrgdFall => Sys2Proof.Machine.execPwrgdFall s
  | .resetNAssert tm => Sys2Proof.Machine.execResetNAssert tm s
  | .resetNRelease pins tm => Sys2Proof.Machine.execResetNRelease pins tm s
  | .bootStageComplete h r tm => Sys2Proof.Machine.execBootStageComplete h r tm s
  | .deviceReady tm => Sys2Proof.Machine.execDeviceReady tm s
  | .perstAssert h => Sys2Proof.Machine.execPerstAssert h s
  | .perstRelease h tm => Sys2Proof.Machine.execPerstRelease h tm s
  | .refclkLoss clk => Sys2Proof.Machine.execRefclkLoss clk s
  | .eject h tm => Sys2Proof.Machine.execEject h tm s
  | .drainNotice h tm => Sys2Proof.Machine.execDrainNotice h tm s
  | .finalRound l tm => Sys2Proof.Machine.execFinalRound l tm s
  | .imageWriteOut l tm => Sys2Proof.Machine.execImageWriteOut l tm s
  | .drainBufferTimeout tm => Sys2Proof.Machine.execDrainBufferTimeout tm s
  | .safe tm => Sys2Proof.Machine.execSafe tm s
  | .fwCopy h tm => Sys2Proof.Machine.execFwCopy h tm s
  | .trialRestart h tm => Sys2Proof.Machine.execTrialRestart h tm s
  | .trialRestartTimeout h tm => Sys2Proof.Machine.execTrialRestartTimeout h tm s
  | .presenceAction h tm => Sys2Proof.Machine.execPresenceAction h tm s
  | .grantExpiry tm => Sys2Proof.Machine.execGrantExpiry tm s
  | .sealBandChange h code tm => Sys2Proof.Machine.execSealBandChange h code tm s
  | .mfioMuxWrite h k1 v => Sys2Proof.Machine.execMfioMuxWrite h k1 v s
  | .mfioSwitchHoldEnd h k1 => Sys2Proof.Machine.execMfioSwitchHoldEnd h k1 s
  | .mfioCfgWrite h k1 v => Sys2Proof.Machine.execMfioCfgWrite h k1 v s
  | .pinInterrupt h k1 level tm => Sys2Proof.Machine.execPinInterrupt h k1 level tm s
  | .registerWrite w => Sys2Proof.Machine.execRegisterWrite w s
  | .illegalInstruction c w => Sys2Proof.Machine.execIllegalInstruction c w s
  | .instructionAccessFault c => Sys2Proof.Machine.execInstructionAccessFault c s
  | .receivedFrameDiscard h f tm => Sys2Proof.Machine.execReceivedFrameDiscard h f tm s
  | .subportLinkUp h k tm => Sys2Proof.Machine.execSubportLinkUp h k tm s
  | .msixDeferredSend h vec tm => Sys2Proof.Machine.execMsixDeferredSend h vec tm s
  | .trainingTablesWrite h version body tm => Sys2Proof.Machine.execTrainingTablesWrite h version body tm s

end Sys2Proof.Machine
end

