-- ==== Sys2Proof/Safety.lean ====
section
/-! DEFINITION. The words in which statements about the block are written: what a run meets on its way, and what of the state
an event leaves alone. -/
namespace Sys2Proof.Machine
open Sys2Proof

/-- An outcome that is a next state. -/
def Goes (r : Res) : Prop := ∃ t, r = .next t
/-- An outcome that is no fault. -/
def NoFault (r : Res) : Prop := ∀ f, r ≠ .fault f

/-- Nothing but the given lane differs between two states. -/
def OnlyLane (l : Nat) (s t : State) : Prop := t = s.putLane l (t.lane l)
/-- Nothing but the given half differs between two states. -/
def OnlyHalf (h : HalfId) (s t : State) : Prop := t = s.putHalf h (t.half h)

/-- Every g and f register outside a list keeps its value. -/
def Thread.keepsRegs (x y : Thread) (d : List Dest) : Prop :=
  (∀ r, Dest.g r ∉ d → y.gReg r = x.gReg r) ∧ (∀ r, Dest.f r ∉ d → y.fReg r = x.fReg r)
/-- The status, the frame stack, the vector base and the scratch registers of a thread keep their values. -/
def Thread.keepsSys (x y : Thread) : Prop :=
  y.ie = x.ie ∧ y.level = x.level ∧ y.frames = x.frames ∧ y.vbase = x.vbase ∧ y.scratch = x.scratch
/-- The work a thread has under way: its store buffer, its outstanding loads and the results it awaits. -/
def Thread.keepsWork (x y : Thread) : Prop := y.sb = x.sb ∧ y.loads = x.loads ∧ y.units = x.units
/-- The VT of a thread after an instruction of `n` virtual cycles (R39, R61). -/
def Thread.vtAfter (x : Thread) (e : CoreEnv) (n : Nat) : Nat :=
  if e.det then x.vt + n * e.cpu else if e.sys then 0 else e.bvt
/-- A g register as a write leaves it: g0 reads 0 (R104). -/
def written (r : RegNo) (v : Word) : Word := if r = 0 then 0 else v

/-- A frame that half `h` receives is a message of `type` from viewer `v` of half `o`, a viewer `x` that may speak (R316, R320, R321, R358):
`fl` is its flow with the message noted, `p` the payload. -/
def State.hears (s : State) (h : HalfId) (rx : Rx) (type : Nat) (o : HalfId) (v : Nat) (x : Viewer) (fl : Flow) (p : Bytes) : Prop :=
  ∃ hd, s.receive h rx = .msg o (.viewer v x) hd fl p ∧ hd.type = type ∧ x.state ≠ 3 ∧ (type ≠ 0x86 → fl.boundTo rx = true)
/-- The viewer as the receipt of a message leaves it (R320, R361). -/
def Viewer.noted (x : Viewer) (fl : Flow) (time : Nat) : Viewer := { x with flow := fl, lastRx := time }
/-- The state once the receipt of a message of viewer `v` of half `o` is noted. -/
def State.noted (s : State) (o : HalfId) (v : Nat) (x : Viewer) (fl : Flow) : State :=
  let u := s.putHalf o ((s.half o).putViewer v (some { x with flow := fl }))
  u.putHalf o ((u.half o).putViewer v (some (x.noted fl s.time)))

/-- The sine of `q` turns, to within 2^-50. -/
def sinTurn (q : Rat) : Rat :=
  let s (r : Rat) : Rat := let x := (r * (2 * piFix : Nat)).floor; (sinSeries x 14 0 x : Rat) / (2 ^ 60 : Nat)
  let f := q - (q.floor : Rat)
  if f < 1 / 4 then s f else if f < 1 / 2 then s (1 / 2 - f) else if f < 3 / 4 then -(s (f - 1 / 2)) else -(s (1 - f))
/-- The power gain of a weir's interpolator, taken as one filter at 256 times its input rate, at `f` cycles a frame (R293). -/
def weirPower (r : Rate) (f : Rat) : Rat :=
  let sum (g : Rat → Rat) : Rat := ((List.range 8192).map (fun n => Config.weirTap r.num r.den (n % 256) (31 - n / 256) * g (f * n / 256))).sum / 256
  let c := sum (fun q => sinTurn (q + 1 / 4))
  let s := sum sinTurn
  c * c + s * s
/-- What R298 says of the coefficients that the manual does not give: a ripple within 0.05 dB in the passband and a rejection of at least
90 dB in the stopband. A claim about what a weir passes takes it as a premise. -/
def WeirFilterOk : Prop :=
  ∀ (r : Rate) (f : Rat), 0 < r.num → 0 < r.den →
    let m : Rat := min 1 ((r.den : Rat) / r.num)
    ((20 * r.den : Rat) / (48000 * r.num) ≤ f → f ≤ 9 / 20 * m → 988553 / 1000000 < weirPower r f ∧ weirPower r f < 1011580 / 1000000) ∧
    (11 / 20 * m ≤ f → f ≤ 128 → weirPower r f ≤ 1 / 1000000000)

/-- Command `id` of opcode `op` executes next (R422 to R427, R452): it is in flight as `c`, it may begin in half `h`, and nothing that
stands before the opcode's own checks turns it away. -/
def State.starts (s : State) (id op : Nat) (c : Cmd) (h : HalfId) : Prop :=
  s.cmd id = some c ∧ s.mayBegin c op = some h ∧ s.gate c h = none
/-- The state in which a command has begun. -/
def State.entered (s : State) (c : Cmd) : State := s.putCmd { c with begun := true }

/-- The opcode of R432 that a command of the block executes, the number of the command in flight, and the device time. -/
def opcodeOf : Instr → Option (Nat × Nat × Nat)
  | .laneStart id tm => some (0x0101, id, tm)
  | .laneStop id tm => some (0x0102, id, tm)
  | .lanePause id tm => some (0x0103, id, tm)
  | .laneResume id tm => some (0x0104, id, tm)
  | .laneNotify id tm => some (0x0105, id, tm)
  | .laneQuery id tm => some (0x0106, id, tm)
  | .viewerAdd id tm => some (0x0201, id, tm)
  | .viewerRemove id tm => some (0x0202, id, tm)
  | .viewerSet id tm => some (0x0203, id, tm)
  | .viewerRekey id tm => some (0x0204, id, tm)
  | .viewerKeyframe id tm => some (0x0205, id, tm)
  | .lanePacer id tm => some (0x0206, id, tm)
  | .timingSet id tm => some (0x0301, id, tm)
  | .laneTune id tm => some (0x0302, id, tm)
  | .ovLoad id tm => some (0x0303, id, tm)
  | .opSet id tm => some (0x0304, id, tm)
  | .opCommit id tm => some (0x0305, id, tm)
  | .xptSet id tm => some (0x0306, id, tm)
  | .announceRing id tm => some (0x0307, id, tm)
  | .titleLoad id _ tm => some (0x0401, id, tm)
  | .titleUnload id tm => some (0x0402, id, tm)
  | .titleRepair id _ tm => some (0x0403, id, tm)
  | .laneSnapshot id tm => some (0x0404, id, tm)
  | .laneRestore id _ tm => some (0x0405, id, tm)
  | .movePlan id tm => some (0x0406, id, tm)
  | .laneMove id tm => some (0x0407, id, tm)
  | .monRead id tm => some (0x0501, id, tm)
  | .monLimits id tm => some (0x0502, id, tm)
  | .lifeRead id tm => some (0x0503, id, tm)
  | .lifeFlush id tm => some (0x0504, id, tm)
  | .selftest id tm => some (0x0601, id, tm)
  | .faultRead id tm => some (0x0602, id, tm)
  | .unitRetire id tm => some (0x0603, id, tm)
  | .faultInject id tm => some (0x0604, id, tm)
  | .fwStage id _ tm => some (0x0701, id, tm)
  | .fwCommit id tm => some (0x0702, id, tm)
  | .fwQuery id tm => some (0x0703, id, tm)
  | .presenceStatus id tm => some (0x0704, id, tm)
  | .presenceEnd id tm => some (0x0705, id, tm)
  | .ctrlFlow id tm => some (0x0706, id, tm)
  | .devInfo id tm => some (0x0801, id, tm)
  | .portCfg id tm => some (0x0802, id, tm)
  | .portAddr id tm => some (0x0803, id, tm)
  | .portDrain id tm => some (0x0804, id, tm)
  | .regRead id tm => some (0x0805, id, tm)
  | .drain id tm => some (0x0806, id, tm)
  | .drainStatus id tm => some (0x0807, id, tm)
  | .eventSub id tm => some (0x0808, id, tm)
  | .nop id tm => some (0x0809, id, tm)
  | .aluOp _ _ _ _ _ _ | .immediateOp _ _ _ _ _ | .mulOp _ _ _ _ _ _ | .divOp _ _ _ _ _ _ | .unitResultWrite _ _ | .fpOp _ _ _ _ _ _ _
  | .fmaOp _ _ _ _ _ _ _ _ | .compareAndBranch _ _ _ _ _ | .j _ _ | .jal _ _ | .jalr _ _ _ _ | .load _ _ _ _ _ | .store _ _ _ _ _
  | .amo _ _ _ _ _ _ _ | .mfs _ _ _ | .mts _ _ _ | .ecall _ _ | .ebreak _ | .eret _ | .wait _ | .waitResume _ | .mbar _ | .isync _
  | .sysx _ _ | .interruptEntry _ | .loadDataReturn _ _ | .prefetchFill _ | .storeBufferDrain _ | .videoGateWrite _ | .beamWriteApply _
  | .stampedReadRelease _ _ | .milestone _ | .frameBoundary _ _ | .frameLate _ _ | .slackHold _ _ _ | .slackHoldEnd _ _
  | .vblankHoldEnd _ _ | .holdFault _ _ | .crossThreadEffect _ | .thrCtlStart _ _ _ _ | .thrCtlExit _ _ _ _ | .pauseTakesEffect _ _
  | .laneWake _ _ | .licSourcePending _ _ | .licEoi _ _ _ _ | .licEnableSet _ _ _ _ | .licEnableClr _ _ _ _ | .licPendClear _ _ _ _
  | .licPendSet _ _ _ _ | .timerTick _ _ | .timerWrap _ _ | .timerCompare _ _ _ | .timCtlWrite _ _ _ _ | .timCntWrite _ _ _ _
  | .timCmpWrite _ _ _ _ | .timerStart _ _ _ _ | .timerStop _ _ _ _ | .timCapTrig _ _ _ | .timCapRead _ _ | .timCntPairRead _ _
  | .lineFetchStart _ _ | .lineFetchComplete _ _ | .opacityRescan _ | .rasOpqWrite _ _ _ | .dotCompose _ _ | .tapFrameEnd _ | .pointBRead _
  | .sliceClose _ _ | .cpsCommitReq _ _ _ | .overlayCopy _ | .cpsTapIdxWrite _ _ | .bltStart _ _ _ | .bltGroup _ | .bltEnd _
  | .soundFetchStart _ | .soundTick _ | .sndGateSet _ _ | .sndGateClr _ _ | .sndRetrig _ _ | .sndEchoCtlWrite _ _ | .weirInput _ _
  | .streamSample _ | .nodeTimeout _ _ _ | .opusFrameEncode _ _ | .audioSend _ _ _ | .announceRead _ _ _ | .datagramTransmit _ _ _
  | .lateTxDiscard _ _ _ | .timingReport _ _ _ | .moveRepeat _ _ _ | .leaveRepeat _ _ _ | .ack _ _ _ | .refresh _ _ _ | .input _ _ _
  | .accessory _ _ _ | .voice _ _ _ | .join _ _ _ | .probe _ _ _ | .command _ _ _ | .arpRequest _ _ _ _ | .neighbourSolicitation _ _ _ _
  | .padInputApply _ | .accessoryApply _ | .viewerChangeApply _ | .notifyApply _ | .viewerIdle _ _ _ | .lockTimeout _ _
  | .subportFail _ _ _ | .gratuitousArp _ _ | .failback _ _ _ | .contextCapture _ _ | .nearSramPageCopy _ | .laneUnitStateRecord _
  | .checkpointGood _ _ | .restoreComplete _ _ | .scrub _ _ _ _ | .pseudoChannelSpare _ _ | .titleCopyComplete _ _ | .snapshotRound _ _
  | .submissionFetch _ _ _ _ _ | .completionWrite _ _ _ _ | .eventRingWrite _ _ | .sqTailWrite _ _ _ | .cqHeadWrite _ _ _
  | .evHeadWrite _ _ | .queuePairEnable _ _ _ | .queuePairDisable _ _ _ | .eventRingEnable _ _ | .msixVectorUnmask _ _ _
  | .functionLevelReset _ | .smbusBlockWrite _ _ _ | .smbusBlockRead | .smbusAlertResponse | .faultDetected _ _ | .spRestartComplete _ _
  | .halfRecoveryEnd _ _ _ | .laneUnitRotation _ _ | .spareHandoff _ _ | .unitTestComplete _ _ _ _ _ | .coreSwap _ _ | .heartbeatSend _ _
  | .heartbeatReceive _ _ _ _ | .heartbeatMiss _ _ | .claimResolve _ _ _ _ | .roleListenEnd _ _ | .authoritySample _ _ _
  | .monitorUpdate _ _ _ _ _ | .ladderPause _ _ | .ladderResume _ _ | .avsUpdate _ _ _ _ | .avsRetry _ _ _ _ | .droopStart _ _ _
  | .droopEnd _ _ _ _ | .thermtrip _ | .lifeSecond _ _ | .lifetimeFlush _ _ | .mirrorWrite _ _ | .pwrgdRise _ _ | .pwrgdFall
  | .resetNAssert _ | .resetNRelease _ _ | .bootStageComplete _ _ _ | .deviceReady _ | .perstAssert _ | .perstRelease _ _ | .refclkLoss _
  | .eject _ _ | .drainNotice _ _ | .finalRound _ _ | .imageWriteOut _ _ | .drainBufferTimeout _ | .safe _ | .fwCopy _ _
  | .trialRestart _ _ | .trialRestartTimeout _ _ | .presenceAction _ _ | .grantExpiry _ | .sealBandChange _ _ _ | .mfioMuxWrite _ _ _
  | .mfioSwitchHoldEnd _ _ | .mfioCfgWrite _ _ _ | .pinInterrupt _ _ _ _ | .registerWrite _ | .illegalInstruction _ _
  | .instructionAccessFault _ | .receivedFrameDiscard _ _ _ | .subportLinkUp _ _ _ | .msixDeferredSend _ _ _ | .trainingTablesWrite _ _ _ _ => none

/-- The lane of a thread context of a game; a system context serves no lane. -/
def Ctx.laneOf : Ctx → Option Nat
  | .game l _ => some l
  | .sys _ _ _ => none
/-- The lane of a command that stands for work inside one lane: its threads' instructions and memory, its windows, beam, controller, timers,
picture, blitter, sound, inputs and captures (R13, R447). The commands not named here reach further, or are not about a lane. -/
def laneWork : Instr → Option Nat
  | .aluOp c _ _ _ _ _ | .immediateOp c _ _ _ _ | .mulOp c _ _ _ _ _ | .divOp c _ _ _ _ _ | .unitResultWrite c _
  | .fpOp c _ _ _ _ _ _ | .fmaOp c _ _ _ _ _ _ _ | .compareAndBranch c _ _ _ _ | .j c _ | .jal c _ | .jalr c _ _ _
  | .load c _ _ _ _ | .store c _ _ _ _ | .amo c _ _ _ _ _ _ | .mfs c _ _ | .mts c _ _ | .ecall c _ | .ebreak c | .eret c | .wait c
  | .waitResume c | .mbar c | .isync c | .sysx c _ | .interruptEntry c | .loadDataReturn c _ | .prefetchFill c | .storeBufferDrain c
  | .illegalInstruction c _ | .instructionAccessFault c => Ctx.laneOf c
  | .videoGateWrite l | .beamWriteApply l | .stampedReadRelease l _ | .milestone l | .crossThreadEffect l | .thrCtlStart l _ _ _
  | .thrCtlExit l _ _ _ | .licSourcePending l _ | .licEoi l _ _ _ | .licEnableSet l _ _ _ | .licEnableClr l _ _ _
  | .licPendClear l _ _ _ | .licPendSet l _ _ _ | .timerTick l _ | .timerWrap l _ | .timerCompare l _ _ | .timCtlWrite l _ _ _
  | .timCntWrite l _ _ _ | .timCmpWrite l _ _ _ | .timerStart l _ _ _ | .timerStop l _ _ _ | .timCapTrig l _ _ | .timCapRead l _
  | .timCntPairRead l _ | .lineFetchStart l _ | .lineFetchComplete l _ | .opacityRescan l | .rasOpqWrite l _ _ | .tapFrameEnd l
  | .cpsCommitReq l _ _ | .overlayCopy l | .cpsTapIdxWrite l _ | .bltStart l _ _ | .bltGroup l | .bltEnd l | .soundFetchStart l
  | .soundTick l | .sndGateSet l _ | .sndGateClr l _ | .sndRetrig l _ | .sndEchoCtlWrite l _ | .weirInput l _ | .streamSample l
  | .nodeTimeout l _ _ | .opusFrameEncode l _ | .padInputApply l | .accessoryApply l | .viewerChangeApply l | .notifyApply l
  | .contextCapture l _ | .nearSramPageCopy l | .laneUnitStateRecord l => some l
  | _ => none

/-- What the event buffer with the room of its ring (R429), an enabled ring and the fault log (R455) of each half can hold at most. -/
def State.bounded (s : State) : Prop :=
  ∀ h, (s.half h).ev.buf.length < 64 + 2 ^ 12 ∧ ((s.half h).ev.en = true → (s.half h).ev.cqlog ≤ 12) ∧ (s.half h).sp.records.length ≤ 4096

/-- Whether the effect of R51 that waits first in lane `L` comes now (R44, R45, R51): in deterministic mode no thread issues below its
milestone any more and no read of LSYS_THR_CTL below it is on its way, in normal mode BVT has reached it. -/
def Lane.CrossDue (L : Lane) (c : CrossEffect) : Prop :=
  if L.det = true then L.silent (fun _ => false) (L.milVt c.mil) = true ∧
    (L.queue ++ L.coming).all (fun e => !e.read || !isThrCtl e.off || decide (L.milVt c.mil ≤ L.dotOf e)) = true
  else L.milVt c.mil ≤ L.bvt

end Sys2Proof.Machine
end

