-- ==== Sys2Proof/WellFormed.lean ====
section
/-! DEFINITION. The commands whose operands name units that exist: the numbers of lanes, thread contexts, timers, interrupt
sources, queue pairs, viewers, sub-ports and other units that the manual gives the device. -/
namespace Sys2Proof

/-- A number below a bound. -/
def below (n k : Nat) : Bool := decide (k < n)
/-- A lane of the device (R13). -/
def laneOk (l : Nat) : Bool := below 256 l
/-- A thread context that executes (R13, R71): 4 threads of a lane; contexts 14 and 15 of 16 cores. -/
def Ctx.ok : Ctx → Bool
  | .game l t => laneOk l && below 4 t
  | .sys _ k x => below 16 k && (decide (x = 14) || decide (x = 15))
/-- The units of a kind in a half (R12, R462). -/
def unitsOf : UnitKind → Nat
  | .laneUnit => 132
  | .core => 17
  | .serdes => 8
  | .pseudoChannel => 64
  | .nearSram => 128
  | .fordWire => 0
/-- The monitors of a class (R470): temperature, voltage, ring oscillators. -/
def monitorsOf : Nat → Nat
  | 0 => 32
  | 1 => 24
  | _ => 64
/-- Whether `n` is the number of a unit of the half that a fault of class `cls` can name (R455). -/
def faultUnitOk (h : HalfId) (cls n : Nat) : Bool :=
  match cls with
  | 0 => below 17 n
  | 2 => below 128 n
  | 3 => match h with | .east => below 132 n | .west => !below 132 n && below 264 n
  | 6 => below 64 n
  | 8 => below 8 n
  | 11 => match h with
    | .east => below 132 n || (!below 264 n && below 283 n)
    | .west => (!below 132 n && below 264 n) || (!below 283 n && below 302 n)
  | _ => true
/-- A fault of a unit that exists, and of a lane of its half. -/
def FaultInfo.ok (f : FaultInfo) : Bool :=
  below 16 f.cls && faultUnitOk f.half f.cls f.unitNo &&
    (match f.lane with | some l => laneOk l && (match f.half with | .east => below 128 l | .west => !below 128 l) | none => true)
/-- A register space that exists (R64, R411). -/
def RegSpace.ok : RegSpace → Bool
  | .thread l t _ => laneOk l && below 4 t
  | .aperture l | .tap l => laneOk l
  | .svc _ | .queue _ | .net _ | .msix _ | .msixControl _ => true

/-- Whether every operand of a command names a unit that exists. -/
def Instr.wellFormed : Instr → Bool
  | .aluOp c _ _ _ _ _ => c.ok
  | .immediateOp c _ _ _ _ => c.ok
  | .mulOp c _ _ _ _ _ => c.ok
  | .divOp c _ _ _ _ _ => c.ok
  | .unitResultWrite c _ => c.ok
  | .fpOp c _ _ _ _ _ _ => c.ok
  | .fmaOp c _ _ _ _ _ _ _ => c.ok
  | .compareAndBranch c _ _ _ _ => c.ok
  | .j c _ => c.ok
  | .jal c _ => c.ok
  | .jalr c _ _ _ => c.ok
  | .load c _ _ _ _ => c.ok
  | .store c _ _ _ _ => c.ok
  | .amo c _ _ _ _ _ _ => c.ok
  | .mfs c _ _ => c.ok
  | .mts c _ _ => c.ok
  | .ecall c _ => c.ok
  | .ebreak c => c.ok
  | .eret c => c.ok
  | .wait c => c.ok
  | .waitResume c => c.ok
  | .mbar c => c.ok
  | .isync c => c.ok
  | .sysx c _ => c.ok
  | .interruptEntry c => c.ok
  | .loadDataReturn c _ => c.ok
  | .prefetchFill c => c.ok
  | .storeBufferDrain c => c.ok
  | .videoGateWrite l => laneOk l
  | .beamWriteApply l => laneOk l
  | .stampedReadRelease l _ => laneOk l
  | .milestone l => laneOk l
  | .frameBoundary l _ => laneOk l
  | .frameLate l _ => laneOk l
  | .slackHold l _ _ => laneOk l
  | .slackHoldEnd l _ => laneOk l
  | .vblankHoldEnd l _ => laneOk l
  | .holdFault l _ => laneOk l
  | .crossThreadEffect l => laneOk l
  | .thrCtlStart l w t _ => laneOk l && below 4 w && below 4 t
  | .thrCtlExit l w t _ => laneOk l && below 4 w && below 4 t
  | .pauseTakesEffect l _ => laneOk l
  | .laneWake l _ => laneOk l
  | .licSourcePending l n => laneOk l && below 64 n
  | .licEoi l w _ _ => laneOk l && below 4 w
  | .licEnableSet l w _ _ => laneOk l && below 4 w
  | .licEnableClr l w _ _ => laneOk l && below 4 w
  | .licPendClear l w _ _ => laneOk l && below 4 w
  | .licPendSet l w _ _ => laneOk l && below 4 w
  | .timerTick l n => laneOk l && below 8 n
  | .timerWrap l n => laneOk l && below 8 n
  | .timerCompare l n _ => laneOk l && below 8 n
  | .timCtlWrite l n _ _ => laneOk l && below 8 n
  | .timCntWrite l n _ _ => laneOk l && below 8 n
  | .timCmpWrite l n _ _ => laneOk l && below 8 n
  | .timerStart l n _ _ => laneOk l && below 8 n
  | .timerStop l n _ _ => laneOk l && below 8 n
  | .timCapTrig l _ _ => laneOk l
  | .timCapRead l n => laneOk l && below 8 n
  | .timCntPairRead l k => laneOk l && below 4 k
  | .lineFetchStart l _ => laneOk l
  | .lineFetchComplete l _ => laneOk l
  | .opacityRescan l => laneOk l
  | .rasOpqWrite l k1 _ => laneOk l && below 2 k1
  | .dotCompose l _ => laneOk l
  | .tapFrameEnd l => laneOk l
  | .pointBRead l => laneOk l
  | .sliceClose l _ => laneOk l
  | .cpsCommitReq l _ _ => laneOk l
  | .overlayCopy l => laneOk l
  | .cpsTapIdxWrite l _ => laneOk l
  | .bltStart l _ _ => laneOk l
  | .bltGroup l => laneOk l
  | .bltEnd l => laneOk l
  | .soundFetchStart l => laneOk l
  | .soundTick l => laneOk l
  | .sndGateSet l _ => laneOk l
  | .sndGateClr l _ => laneOk l
  | .sndRetrig l _ => laneOk l
  | .sndEchoCtlWrite l _ => laneOk l
  | .weirInput l w => laneOk l && below 5 w
  | .streamSample l => laneOk l
  | .nodeTimeout l o k1 => laneOk l && below 6 o && below 8 k1
  | .opusFrameEncode l o => laneOk l && below 5 o
  | .audioSend l o _ => laneOk l && below 5 o
  | .announceRead l _ _ => laneOk l
  | .datagramTransmit _ v _ => below 2048 v
  | .lateTxDiscard _ v _ => below 2048 v
  | .timingReport _ v _ => below 2048 v
  | .moveRepeat _ v _ => below 2048 v
  | .leaveRepeat _ v _ => below 2048 v
  | .ack _ _ _ => true
  | .refresh _ _ _ => true
  | .input _ _ _ => true
  | .accessory _ _ _ => true
  | .voice _ _ _ => true
  | .join _ _ _ => true
  | .probe _ _ _ => true
  | .command _ _ _ => true
  | .arpRequest _ k _ _ => below 4 k
  | .neighbourSolicitation _ k _ _ => below 4 k
  | .padInputApply l => laneOk l
  | .accessoryApply l => laneOk l
  | .viewerChangeApply l => laneOk l
  | .notifyApply l => laneOk l
  | .viewerIdle _ v _ => below 2048 v
  | .lockTimeout l _ => laneOk l
  | .subportFail _ k _ => below 4 k
  | .gratuitousArp _ k => below 4 k
  | .failback _ k _ => below 4 k
  | .contextCapture l t => laneOk l && below 4 t
  | .nearSramPageCopy l => laneOk l
  | .laneUnitStateRecord l => laneOk l
  | .checkpointGood l _ => laneOk l
  | .restoreComplete l _ => laneOk l
  | .scrub _ addr _ _ => below (48 * 2 ^ 30) addr
  | .pseudoChannelSpare _ pc => below 64 pc
  | .titleCopyComplete _ _ => true
  | .snapshotRound l _ => laneOk l
  | .submissionFetch _ q _ _ _ => below 32 q
  | .completionWrite _ q _ _ => below 32 q
  | .eventRingWrite _ _ => true
  | .sqTailWrite _ q _ => below 32 q
  | .cqHeadWrite _ q _ => below 32 q
  | .evHeadWrite _ _ => true
  | .queuePairEnable _ q _ => below 32 q
  | .queuePairDisable _ q _ => below 32 q
  | .eventRingEnable _ _ => true
  | .msixVectorUnmask _ vec _ => below 64 vec
  | .functionLevelReset _ => true
  | .smbusBlockWrite _ _ _ => true
  | .smbusBlockRead => true
  | .smbusAlertResponse => true
  | .laneStart _ _ => true
  | .laneStop _ _ => true
  | .lanePause _ _ => true
  | .laneResume _ _ => true
  | .laneNotify _ _ => true
  | .laneQuery _ _ => true
  | .viewerAdd _ _ => true
  | .viewerRemove _ _ => true
  | .viewerSet _ _ => true
  | .viewerRekey _ _ => true
  | .viewerKeyframe _ _ => true
  | .lanePacer _ _ => true
  | .timingSet _ _ => true
  | .laneTune _ _ => true
  | .ovLoad _ _ => true
  | .opSet _ _ => true
  | .opCommit _ _ => true
  | .xptSet _ _ => true
  | .announceRing _ _ => true
  | .titleLoad _ _ _ => true
  | .titleUnload _ _ => true
  | .titleRepair _ _ _ => true
  | .laneSnapshot _ _ => true
  | .laneRestore _ _ _ => true
  | .movePlan _ _ => true
  | .laneMove _ _ => true
  | .monRead _ _ => true
  | .monLimits _ _ => true
  | .lifeRead _ _ => true
  | .lifeFlush _ _ => true
  | .selftest _ _ => true
  | .faultRead _ _ => true
  | .unitRetire _ _ => true
  | .faultInject _ _ => true
  | .fwStage _ _ _ => true
  | .fwCommit _ _ => true
  | .fwQuery _ _ => true
  | .presenceStatus _ _ => true
  | .presenceEnd _ _ => true
  | .ctrlFlow _ _ => true
  | .devInfo _ _ => true
  | .portCfg _ _ => true
  | .portAddr _ _ => true
  | .portDrain _ _ => true
  | .regRead _ _ => true
  | .drain _ _ => true
  | .drainStatus _ _ => true
  | .eventSub _ _ => true
  | .nop _ _ => true
  | .faultDetected f _ => f.ok
  | .spRestartComplete _ _ => true
  | .halfRecoveryEnd _ _ _ => true
  | .laneUnitRotation _ _ => true
  | .spareHandoff l _ => laneOk l
  | .unitTestComplete _ u idx _ _ => below (unitsOf u) idx
  | .coreSwap _ _ => true
  | .heartbeatSend _ _ => true
  | .heartbeatReceive _ wire _ _ => below 2 wire
  | .heartbeatMiss _ _ => true
  | .claimResolve _ _ _ _ => true
  | .roleListenEnd _ _ => true
  | .authoritySample _ _ _ => true
  | .monitorUpdate _ cls idx _ _ => below 3 cls && below (monitorsOf cls) idx
  | .ladderPause _ _ => true
  | .ladderResume _ _ => true
  | .avsUpdate _ _ _ _ => true
  | .avsRetry _ _ _ _ => true
  | .droopStart _ rail _ => below 8 rail
  | .droopEnd _ rail _ _ => below 8 rail
  | .thermtrip _ => true
  | .lifeSecond _ _ => true
  | .lifetimeFlush _ _ => true
  | .mirrorWrite _ _ => true
  | .pwrgdRise _ _ => true
  | .pwrgdFall => true
  | .resetNAssert _ => true
  | .resetNRelease _ _ => true
  | .bootStageComplete _ _ _ => true
  | .deviceReady _ => true
  | .perstAssert _ => true
  | .perstRelease _ _ => true
  | .refclkLoss _ => true
  | .eject _ _ => true
  | .drainNotice _ _ => true
  | .finalRound l _ => laneOk l
  | .imageWriteOut l _ => laneOk l
  | .drainBufferTimeout _ => true
  | .safe _ => true
  | .fwCopy _ _ => true
  | .trialRestart _ _ => true
  | .trialRestartTimeout _ _ => true
  | .presenceAction _ _ => true
  | .grantExpiry _ => true
  | .sealBandChange _ _ _ => true
  | .mfioMuxWrite _ k1 _ => below 32 k1
  | .mfioSwitchHoldEnd _ k1 => below 32 k1
  | .mfioCfgWrite _ k1 _ => below 32 k1
  | .pinInterrupt _ k1 _ _ => below 32 k1
  | .registerWrite w => w.space.ok
  | .illegalInstruction c _ => c.ok
  | .instructionAccessFault c => c.ok
  | .receivedFrameDiscard _ _ _ => true
  | .subportLinkUp _ k _ => below 4 k
  | .msixDeferredSend _ vec _ => below 64 vec
  | .trainingTablesWrite _ _ _ _ => true

end Sys2Proof
end

