-- ==== Sys2Proof/Certificates/Slice0/Obligations.lean ====
section
/-! DEFINITION. The statements for the provers: what the commands of the block do, by family, and what every step keeps. -/
open Sys2Proof Sys2Proof.Machine

/-- ALU_OP and IMMEDIATE_OP (R112, R113, R104): at its turn the instruction writes its result to rd, unless rd is g0, is charged one
virtual cycle, and leaves every other register and the rest of the block as they were. -/
def Obligations.IntegerResults : Prop :=
  (∀ c fn rd ra rb rc s, c.ok = true → s.issues c (.alu fn rd ra rb rc) = true →
    let x := s.thread c
    ∃ y, exec (.aluOp c fn rd ra rb rc) s = .next ((s.tookSlot c).putThread c y) ∧
      y.gReg rd = written rd (aluResult fn (x.gReg ra) (x.gReg rb) (x.gReg rc)) ∧ x.keepsRegs y [.g rd] ∧ x.keepsSys y ∧
      x.keepsWork y ∧ y.fcsr = x.fcsr ∧ y.pc = x.pc + 4 ∧ y.vt = x.vtAfter (s.env c) 1) ∧
  (∀ c fn rd ra imm s, c.ok = true → s.issues c (.imm fn rd ra imm) = true →
    let x := s.thread c
    ∃ y, exec (.immediateOp c fn rd ra imm) s = .next ((s.tookSlot c).putThread c y) ∧
      y.gReg rd = written rd (immResult fn (x.gReg ra) imm) ∧ x.keepsRegs y [.g rd] ∧ x.keepsSys y ∧ x.keepsWork y ∧
      y.fcsr = x.fcsr ∧ y.pc = x.pc + 4 ∧ y.vt = x.vtAfter (s.env c) 1)

/-- MUL_OP and DIV_OP (R114, R115, R143): the unit beside the pipe takes the results, for rd and, where the form has it, for rc; no
register changes yet. UNIT_RESULT_WRITE then writes them (R70), a divide's once it is complete (R86). A result of two registers (R114,
R115): rd takes the first half, rc the second; where both name one register, rc's stays. -/
def Obligations.MultiplyDivideResults : Prop :=
  (∀ c fn rd ra rb rc s, c.ok = true → s.issues c (.mul fn rd ra rb rc) = true →
    let x := s.thread c
    ∃ y u, exec (.mulOp c fn rd ra rb rc) s = .next ((s.tookSlot c).putThread c y) ∧ y.units = x.units ++ [u] ∧ u.div = none ∧
      u.writes = (match mulResult fn (x.gReg ra) (x.gReg rb) (x.gReg rc) with
        | (lo, some hi) => [(.g rd, lo), (.g rc, hi)]
        | (lo, none) => [(.g rd, lo)]) ∧
      x.keepsRegs y [] ∧ x.keepsSys y ∧ y.sb = x.sb ∧ y.loads = x.loads ∧ y.fcsr = x.fcsr ∧ y.pc = x.pc + 4 ∧
      y.vt = x.vtAfter (s.env c) 3) ∧
  (∀ c fn rd ra rb rc s, c.ok = true → s.issues c (.div fn rd ra rb rc) = true →
    let x := s.thread c
    let q := divResult fn (x.gReg ra) (x.gReg rb)
    ∃ y u, exec (.divOp c fn rd ra rb rc) s = .next ((s.tookSlot c).putThread c y) ∧ y.units = x.units ++ [u] ∧
      u.writes = [(.g rd, q.1), (.g rc, q.2)] ∧ u.div = some (x.vtAfter (s.env c) 0, x.pc, (s.env c).cpu) ∧
      x.keepsRegs y [] ∧ x.keepsSys y ∧ y.sb = x.sb ∧ y.loads = x.loads ∧ y.fcsr = x.fcsr ∧ y.pc = x.pc + 4 ∧
      y.vt = x.vtAfter (s.env c) 66) ∧
  (∀ c k u d v s, c.ok = true → (s.thread c).units[k]? = some u → s.unitDone c u = true → u.writes = [(d, v)] →
    let x := s.thread c
    ∃ y, exec (.unitResultWrite c k) s = .next (s.putThread c y) ∧ y.units = x.units.eraseIdx k ∧
      (match d with | .g r => y.gReg r = written r v | .f r => y.fReg r = v) ∧ x.keepsRegs y [d] ∧ x.keepsSys y ∧
      y.sb = x.sb ∧ y.loads = x.loads ∧ y.fcsr = x.fcsr ∧ y.pc = x.pc ∧ y.vt = x.vt) ∧
  (∀ c k u rd rc v w s, c.ok = true → (s.thread c).units[k]? = some u → s.unitDone c u = true →
     u.writes = [(.g rd, v), (.g rc, w)] →
     let x := s.thread c
     ∃ y, exec (.unitResultWrite c k) s = .next (s.putThread c y) ∧ y.gReg rc = written rc w ∧
       (rd ≠ rc → y.gReg rd = written rd v) ∧ x.keepsRegs y [.g rd, .g rc] ∧ x.keepsSys y ∧ y.pc = x.pc)

/-- FP_OP and FMA_OP (R125 to R129, R143): the FP unit takes the result for the destination of the operation's file; the exceptions raised
join the sticky flags as the instruction issues, and nothing else of FCSR changes. The flags joining at issue is read from R126
(assumption 23). -/
def Obligations.FloatResults : Prop :=
  (∀ c p fn rd ra rb rc s, c.ok = true → s.issues c (.fp p fn rd ra rb rc) = true →
    let x := s.thread c
    let r := fpResult p fn x.fcsr (if fpReadsG fn then x.gReg ra else x.fReg ra) (x.fReg rb) rb rc
    ∃ y u, exec (.fpOp c p fn rd ra rb rc) s = .next ((s.tookSlot c).putThread c y) ∧ y.units = x.units ++ [u] ∧ u.div = none ∧
      u.writes = [(if fpWritesG fn then .g rd else .f rd, r.1)] ∧ y.fcsr = fcsrOr x.fcsr r.2 ∧
      x.keepsRegs y [] ∧ x.keepsSys y ∧ y.sb = x.sb ∧ y.loads = x.loads ∧ y.pc = x.pc + 4 ∧
      y.vt = x.vtAfter (s.env c) (fpCost fn)) ∧
  (∀ c p np na rd ra rb rc s, c.ok = true → s.issues c (.fma p np na rd ra rb rc) = true →
    let x := s.thread c
    let r := fpFma p (fcsrRm x.fcsr) np na (x.fReg ra) (x.fReg rb) (x.fReg rc)
    ∃ y u, exec (.fmaOp c p np na rd ra rb rc) s = .next ((s.tookSlot c).putThread c y) ∧ y.units = x.units ++ [u] ∧ u.div = none ∧
      u.writes = [(.f rd, r.1)] ∧ y.fcsr = fcsrOr x.fcsr r.2 ∧
      x.keepsRegs y [] ∧ x.keepsSys y ∧ y.sb = x.sb ∧ y.loads = x.loads ∧ y.pc = x.pc + 4 ∧ y.vt = x.vtAfter (s.env c) 5)

/-- COMPARE_AND_BRANCH (R116, R143): where the condition holds the branch goes to PC + sext(off16) × 4, PC that of the branch itself, and
otherwise to the next instruction; no register changes. -/
def Obligations.CompareAndBranch : Prop :=
  ∀ c fn ra rb (off : BitVec 16) s, c.ok = true → s.issues c (.br fn ra rb off) = true →
    let x := s.thread c
    let a := x.gReg ra
    let b := x.gReg rb
    let holds : Prop := match fn with
      | .beq => a = b
      | .bne => a ≠ b
      | .blt => a.toInt < b.toInt
      | .bge => b.toInt ≤ a.toInt
      | .bltu => a.toNat < b.toNat
      | .bgeu => b.toNat ≤ a.toNat
    ∃ y, exec (.compareAndBranch c fn ra rb off) s = .next ((s.tookSlot c).putThread c y) ∧
      (holds → y.pc = x.pc + off.signExtend 64 * 4 ∧ y.vt = x.vtAfter (s.env c) (jumpCost y.pc 12 2)) ∧
      (¬ holds → y.pc = x.pc + 4 ∧ y.vt = x.vtAfter (s.env c) 1) ∧
      x.keepsRegs y [] ∧ x.keepsSys y ∧ x.keepsWork y ∧ y.fcsr = x.fcsr

/-- J, JAL and JALR (R117, R143): J and JAL jump to PC + sext(off26) × 4, and JAL links in g31. JALR computes its target from ra as it was
before the instruction; a target that is no multiple of 4 raises Instruction alignment and writes nothing, any other is jumped to, with
the link in rd. -/
def Obligations.Jumps : Prop :=
  (∀ c (off : BitVec 26) s, c.ok = true → s.issues c (.j off) = true →
    let x := s.thread c
    ∃ y, exec (.j c off) s = .next ((s.tookSlot c).putThread c y) ∧ y.pc = x.pc + off.signExtend 64 * 4 ∧ x.keepsRegs y [] ∧ x.keepsSys y ∧
      x.keepsWork y ∧ y.fcsr = x.fcsr ∧ y.vt = x.vtAfter (s.env c) (jumpCost y.pc 12 2)) ∧
  (∀ c (off : BitVec 26) s, c.ok = true → s.issues c (.jal off) = true →
    let x := s.thread c
    ∃ y, exec (.jal c off) s = .next ((s.tookSlot c).putThread c y) ∧ y.pc = x.pc + off.signExtend 64 * 4 ∧ y.gReg 31 = x.pc + 4 ∧
      x.keepsRegs y [.g 31] ∧ x.keepsSys y ∧ x.keepsWork y ∧ y.fcsr = x.fcsr ∧ y.vt = x.vtAfter (s.env c) (jumpCost y.pc 12 2)) ∧
  (∀ c rd ra (imm : BitVec 16) s, c.ok = true → s.issues c (.jalr rd ra imm) = true →
    let x := s.thread c
    let a := x.gReg ra + imm.signExtend 64
    (a.toNat % 4 = 0 →
      ∃ y, exec (.jalr c rd ra imm) s = .next ((s.tookSlot c).putThread c y) ∧ y.pc = a ∧ y.gReg rd = written rd (x.pc + 4) ∧
        x.keepsRegs y [.g rd] ∧ x.keepsSys y ∧ x.keepsWork y ∧ y.fcsr = x.fcsr ∧ y.vt = x.vtAfter (s.env c) (jumpCost a 12 2)) ∧
    (a.toNat % 4 ≠ 0 → s.vectorFixed c = true →
      ∃ y, exec (.jalr c rd ra imm) s = .next (((s.tookSlot c).putThread c y).afterThread c) ∧ y = x.raise (s.env c) (.instrAlign a) ∧
        x.keepsRegs y []))

/-- MFS and MTS of the system registers below 0x800 (R130, R133): MFS reads the register into rd; MTS writes its writable fields: IE of
THR_STATUS, bit 0 of the top frame's status, its EPC, THR_VBASE, the fields of FCSR, and the scratch registers; every other register of
the thread keeps its value. Each is charged one virtual cycle. -/
def Obligations.SystemRegisterAccess : Prop :=
  (∀ c rd n s, c.ok = true → s.issues c (.mfs rd n) = true → n.toNat ∈ sysRegs →
    let x := s.thread c
    ∃ y, exec (.mfs c rd n) s = .next ((s.tookSlot c).putThread c y) ∧
      y.gReg rd = written rd ((x.stampNow (s.env c)).readSys (s.env c) n.toNat) ∧ x.keepsRegs y [.g rd] ∧ x.keepsSys y ∧
      x.keepsWork y ∧ y.fcsr = x.fcsr ∧ y.pc = x.pc + 4 ∧ y.vt = x.vtAfter (s.env c) 1) ∧
  (∀ c ra n s, c.ok = true → s.issues c (.mts ra n) = true → n.toNat ∈ sysRegs →
    let x := s.thread c
    let v := x.gReg ra
    let into (m old : Word) : Word := (old &&& ~~~ m) ||| (v &&& m)
    ∃ y, exec (.mts c ra n) s = .next ((s.tookSlot c).putThread c y) ∧ x.keepsRegs y [] ∧ x.keepsWork y ∧ y.level = x.level ∧
      y.ie = (if n.toNat = 0 then bit v 0 else x.ie) ∧
      y.fcsr = (if n.toNat = 8 then into fcsrWritable x.fcsr else x.fcsr) ∧
      (∀ k, Sparse.get zeroWord y.scratch k = if 0x20 ≤ n.toNat ∧ k = n.toNat - 0x20 then v else Sparse.get zeroWord x.scratch k) ∧
      y.vbase = (if n.toNat = 5 then into (addrMask (s.env c).sys 10) x.vbase else x.vbase) ∧
      y.frames = (match x.frames with
        | [] => []
        | f :: fs => (if n.toNat = 1 then { f with estatus := into 1 f.estatus }
            else if n.toNat = 2 then { f with epc := into (addrMask (s.env c).sys 2) f.epc } else f) :: fs) ∧
      y.pc = x.pc + 4 ∧ y.vt = x.vtAfter (s.env c) 1)

/-- The exception entry of R137 as ECALL, EBREAK, a misaligned JALR, an unassigned word, an unassigned system register below 0x800, SYSX
and the system registers from 0x800 on at game level, and a fetch outside the executable windows take it (R107, R110, R117, R118, R130,
R134, R142): with room on the frame stack and a vector that may be read, the frame saves pc, status, cause and bad address, IE and LEVEL
stay, and the pc comes from vector 0. That an entry can be in progress is read by inference (assumption 117). -/
def Obligations.ExceptionEntry : Prop :=
  ∀ (c : Ctx) (s : State) (k : Cause) (i : Instr), c.ok = true → s.vectorFixed c = true → (s.thread c).frames.length < 16 →
    vectorOk (s.env c) ((s.thread c).vectorAddr 0) = true → (s.thread c).trapped = false →
    ((∃ n, i = .ecall c n ∧ k = .ecall n ∧ s.issues c (.ecall n) = true) ∨
     (i = .ebreak c ∧ k = .ebreak ∧ s.issues c .ebreak = true) ∨
     (∃ rd ra imm, i = .jalr c rd ra imm ∧ k = .instrAlign (effAddr ((s.thread c).gReg ra) imm) ∧
       (effAddr ((s.thread c).gReg ra) imm).toNat % 4 ≠ 0 ∧ s.issues c (.jalr rd ra imm) = true) ∨
     (∃ l t rd n, c = .game l t ∧ i = .mfs c rd n ∧ 0x800 ≤ n.toNat ∧ k = .privileged (nencode (.mfs rd n)) ∧
       s.issues c (.mfs rd n) = true) ∨
     (∃ l t ra n, c = .game l t ∧ i = .mts c ra n ∧ 0x800 ≤ n.toNat ∧ k = .privileged (nencode (.mts ra n)) ∧
       s.issues c (.mts ra n) = true) ∨
     (∃ rd n, i = .mfs c rd n ∧ n.toNat < 0x800 ∧ n.toNat ∉ sysRegs ∧ k = .illegal (nencode (.mfs rd n)) ∧ s.issues c (.mfs rd n) = true) ∨
     (∃ ra n, i = .mts c ra n ∧ n.toNat < 0x800 ∧ n.toNat ∉ sysRegs ∧ k = .illegal (nencode (.mts ra n)) ∧ s.issues c (.mts ra n) = true) ∨
     (∃ l t b, c = .game l t ∧ i = .sysx c b ∧ k = .privileged (nencode (.sysx b)) ∧ s.issues c (.sysx b) = true) ∨
     (∃ w, i = .illegalInstruction c w ∧ k = .illegal w ∧ s.mayIssue c = true ∧ (s.thread c).active = true ∧
       (s.thread c).waiting = false ∧ (s.thread c).word = some w ∧ ndecode w = none) ∨
     (∃ l t, c = .game l t ∧ i = .instructionAccessFault c ∧ s.thermtrip = false ∧ (s.lane l).issueOk t = true ∧ (s.thread c).active = true ∧
       (s.thread c).waiting = false ∧ executable (s.thread c).pc.toNat (s.lane l).titleLen = false ∧
       k = .instrAccess (s.thread c).pc (fetchDetail (s.thread c).pc.toNat))) →
    let x := s.thread c
    ∃ y, exec i s = .next ((s.tookSlot c).putThread c y) ∧
      y.frames = { epc := x.pc, estatus := x.status (s.env c), cause := k.word, badaddr := k.bad } :: x.frames ∧
      y.pc = entryPc ((s.env c).vector (x.vectorAddr 0)) ∧ y.ie = x.ie ∧ y.level = x.level ∧ x.keepsRegs y [] ∧
      x.keepsWork y ∧ y.vbase = x.vbase ∧ y.fcsr = x.fcsr ∧ y.scratch = x.scratch ∧ y.vt = x.vtAfter (s.env c) 6

/-- What a misaligned or forbidden access raises (R95, R119, R121, R123, R135, R136): the load, store or atomic operation of a game thread
takes the exception that its address, width and window give, with no other effect than the entry; so does an access of a system thread
whose first half, or else second half, fails (R97). Where the vector read has to wait for the lane floor (R137), the entry is in progress:
no register and no frame has changed. A full frame stack, or a vector that may not be read (R139): the thread traps and issues no more.
Readings of the model: assumptions 69 and 117. -/
def Obligations.FaultsAndTraps : Prop :=
  (∀ (l t : Nat) (s : State) (i : Instr) (k : Cause), (Ctx.game l t).ok = true → s.vectorFixed (.game l t) = true →
    let c := Ctx.game l t
    let x := s.thread c
    ((∃ fn rt base off, i = .load c fn rt base off ∧ s.issues c (.load fn rt base off) = true ∧
        loadFault (s.lane l).titleLen (effAddr (x.gReg base) off) (loadWidth fn) = some k) ∨
     (∃ fn rt base off, i = .store c fn rt base off ∧ s.issues c (.store fn rt base off) = true ∧
        storeFault (s.lane l).titleLen (effAddr (x.gReg base) off) (storeWidth fn) = some k) ∨
     (∃ fn w32 rd ra rb rc, i = .amo c fn w32 rd ra rb rc ∧ s.issues c (.amo fn w32 rd ra rb rc) = true ∧
        amoFault false (x.gReg ra) (if w32 then 4 else 8) = some k)) →
    exec i s = .next (((s.tookSlot c).putThread c (x.raise (s.env c) k)).afterThread c)) ∧
  (∀ (h : HalfId) (n z : Nat) (s : State) (i : Instr) (k : Cause), (Ctx.sys h n z).ok = true →
    let c := Ctx.sys h n z
    let x := s.thread c
    let a (base : RegNo) (off : BitVec 16) : Word := effAddr (x.gReg base) off
    ((∃ fn rt base off d, i = .load c fn rt base off ∧ s.issues c (.load fn rt base off) = true ∧
        sysFault false (a base off).toNat (loadWidth fn) = some d ∧ k = .loadAccess (a base off) d.1 d.2) ∨
     (∃ fn rt base off d, i = .store c fn rt base off ∧ s.issues c (.store fn rt base off) = true ∧
        sysFault true (a base off).toNat (storeWidth fn) = some d ∧ k = .storeAccess (a base off) d.1 d.2) ∨
     (∃ fn w32 rd ra rb rc, i = .amo c fn w32 rd ra rb rc ∧ s.issues c (.amo fn w32 rd ra rb rc) = true ∧
        amoFault true (x.gReg ra) (if w32 then 4 else 8) = some k)) →
    exec i s = .next ((s.tookSlot c).putThread c (x.raise (s.env c) k))) ∧
  (∀ l t n s, (Ctx.game l t).ok = true → s.issues (.game l t) (.ecall n) = true → s.vectorFixed (.game l t) = false →
    (s.thread (.game l t)).frames.length < 16 →
    let x := s.thread (.game l t)
    ∃ y, exec (.ecall (.game l t) n) s = .next ((s.tookSlot (.game l t)).putThread (.game l t) y) ∧
      y.entering = some { point := x.vt, cpu := (s.lane l).cpu, kind := .except 9 (w64 n.toNat) } ∧ y.vt = x.vt + 6 * (s.lane l).cpu ∧
      y.pc = x.pc ∧ y.frames = x.frames ∧ y.ie = x.ie ∧ y.level = x.level ∧ x.keepsRegs y [] ∧ x.keepsWork y) ∧
  (∀ c n s, c.ok = true → s.issues c (.ecall n) = true → s.vectorFixed c = true →
     ((s.thread c).frames.length = 16 ∨ vectorOk (s.env c) ((s.thread c).vectorAddr 0) = false) →
     ∃ y t, exec (.ecall c n) s = .next t ∧ t = ((s.tookSlot c).putThread c y).afterThread c ∧ y.trapped = true ∧ y.active = false ∧
       y.waiting = false ∧ y.frames = (s.thread c).frames ∧ y.pc = (s.thread c).pc ∧ (s.thread c).keepsRegs y [])

/-- ERET (R140): IE and LEVEL come from the status of the popped frame, the pc from its EPC, and the frame goes; with an empty frame stack
it raises Illegal instruction. A return that chains (R141) is another statement's. That an ERET of a system context does not chain is the
choice of the model (assumption 76). -/
def Obligations.ExceptionReturn : Prop :=
  ∀ c s, c.ok = true → s.issues c .eret = true →
    let x := s.thread c
    (∀ f fs, x.frames = f :: fs → s.eretFixed c = true → (∀ l t, c = .game l t → (s.lane l).chains t ((s.lane l).issueVt t) (s.lane l).cpu = none) →
      ∃ y, exec (.eret c) s = .next ((s.tookSlot c).putThread c y) ∧ y.pc = f.epc ∧ y.ie = bit f.estatus 0 ∧ y.level = bits f.estatus 4 4 ∧
        y.frames = fs ∧ x.keepsRegs y [] ∧ x.keepsWork y ∧ y.vbase = x.vbase ∧ y.fcsr = x.fcsr ∧ y.scratch = x.scratch ∧
        y.vt = x.vtAfter (s.env c) (jumpCost f.epc 12 4)) ∧
    (x.frames = [] → s.vectorFixed c = true →
      ∃ y, exec (.eret c) s = .next (((s.tookSlot c).putThread c y).afterThread c) ∧ y = x.raise (s.env c) (.illegal (nencode .eret)) ∧ x.keepsRegs y [])

/-- INTERRUPT_ENTRY (R86, R98, R99, R137, R149): at its take point a game thread abandons a divide in progress, enters the vector of the
source delivered, saves pc, status and cause, takes the source's priority as LEVEL, and the source is acknowledged. A system context
enters in the same way for a source of its own, of which the manual gives neither number nor priority. ERET with a source that would be
taken at once (R141): the frame stays with the new cause, LEVEL becomes the source's priority, and the source's vector is read and
acknowledged. Until that is decided, and for an exception until its vector read finds what it will find (R137), the entry or the return is
in progress; the context then goes on from its take point, with the VT that the entry or the return is charged. Choices and readings of
the model: assumptions 16, 108, 109, 110 and 117. -/
def Obligations.InterruptsTaken : Prop :=
  (∀ l t s p n q, (Ctx.game l t).ok = true →
    let L := s.lane l
    let x := s.thread (.game l t)
    let c3 := if L.det then L.divCpu t else L.cpu
    let v := p + 3 * c3
    x.active = true → x.waiting = false → x.trapped = false → x.loads = [] → x.entering = none → L.takePoint t = some p →
    L.phase = .running → L.vtCanAt t p = true → (L.det = true → L.takeFixed t p = true ∧ L.readFixed t v = true) →
    L.entrySource t p c3 (Config.freeNat (laneDraw l L)) = some (n, q) → x.frames.length < 16 →
    vectorOk (laneEnv L (s.title l) t v) (x.vectorAddr (1 + n)) = true →
    let u := s.putLane l { L with draws := L.draws + 1 }
    ∃ y, exec (.interruptEntry (.game l t)) s =
        .next (let z := u.putThread (.game l t) y; z.putLane l ((z.lane l).acknowledge (if L.det then v else p) n)) ∧
      y.vt = L.onGrid p (if L.det then p + 6 * c3 else p) ∧
      y.frames = { epc := (match x.divide with | some d => d.2.1 | none => x.pc), estatus := x.status (laneEnv L (s.title l) t v),
                   cause := interruptCause n q, badaddr := 0 } :: x.frames ∧
      y.level = q ∧ y.ie = x.ie ∧ y.pc = entryPc ((laneEnv L (s.title l) t v).vector (x.vectorAddr (1 + n))) ∧
      (x.divide ≠ none → y.units = x.units.filter (fun u => u.div.isNone)) ∧
      x.keepsRegs y [] ∧ y.fcsr = x.fcsr ∧ y.vbase = x.vbase ∧ y.scratch = x.scratch) ∧
  (∀ l t s p, (Ctx.game l t).ok = true →
    let L := s.lane l
    let x := s.thread (.game l t)
    x.active = true → x.waiting = false → x.loads = [] → x.entering = none → L.takePoint t = some p → L.phase = .running → L.det = true →
    L.vtCanAt t p = true → L.takeFixed t p = true → L.readFixed t (p + 3 * L.divCpu t) = false → x.frames.length < 16 →
    ∃ y, exec (.interruptEntry (.game l t)) s = .next (s.putThread (.game l t) y) ∧
      y.entering = some { point := p, cpu := L.divCpu t, kind := .interrupt } ∧ y.frames = x.frames ∧ y.level = x.level ∧ y.ie = x.ie ∧
      y.pc = (match x.divide with | some d => d.2.1 | none => x.pc) ∧ x.keepsRegs y []) ∧
  (∀ h k z s, (Ctx.sys h k z).ok = true →
    let x := s.thread (.sys h k z)
    x.active = true → x.waiting = false → x.loads = [] → x.entering = none → x.ie = true → x.level < 15 → x.frames.length < 16 →
    ∃ t n q, exec (.interruptEntry (.sys h k z)) s = .next t ∧ n < 64 ∧ x.level < q ∧ q ≤ 15 ∧
      (t.thread (.sys h k z)).frames =
        { epc := x.pc, estatus := x.status (s.env (.sys h k z)), cause := interruptCause n q, badaddr := 0 } :: x.frames ∧
      (t.thread (.sys h k z)).level = q ∧ x.keepsRegs (t.thread (.sys h k z)) []) ∧
  (∀ l t s f fs n p, (Ctx.game l t).ok = true → s.issues (.game l t) .eret = true → s.eretFixed (.game l t) = true →
    (s.thread (.game l t)).frames = f :: fs → (s.lane l).chains t ((s.lane l).issueVt t) (s.lane l).cpu = some (n, p) →
    vectorOk (s.env (.game l t)) ((s.thread (.game l t)).vectorAddr (1 + n)) = true → (s.thread (.game l t)).trapped = false →
    let x := s.thread (.game l t)
    let v := (s.lane l).issueVt t + (if (s.lane l).det then 3 * (s.lane l).cpu else 0)
    ∃ y, exec (.eret (.game l t)) s =
        .next (let u := (s.tookSlot (.game l t)).putThread (.game l t) y; u.putLane l ((u.lane l).acknowledge v n)) ∧
      y.frames = { f with cause := interruptCause n p } :: fs ∧ y.level = p ∧ y.ie = x.ie ∧
      y.pc = entryPc ((s.env (.game l t)).vector (x.vectorAddr (1 + n))) ∧ x.keepsRegs y [] ∧ y.vt = x.vtAfter (s.env (.game l t)) 6) ∧
  (∀ l t s, (Ctx.game l t).ok = true → s.issues (.game l t) .eret = true → s.eretFixed (.game l t) = false →
    (s.thread (.game l t)).frames ≠ [] →
    let x := s.thread (.game l t)
    ∃ y, exec (.eret (.game l t)) s = .next ((s.tookSlot (.game l t)).putThread (.game l t) y) ∧
      y.entering = some { point := x.vt, cpu := (s.lane l).cpu, kind := .ret } ∧ y.frames = x.frames ∧ y.pc = x.pc ∧ y.ie = x.ie ∧
      y.level = x.level ∧ x.keepsRegs y []) ∧
  (∀ l t s q, (Ctx.game l t).ok = true → (s.thread (.game l t)).active = true → (s.thread (.game l t)).entering = some q →
    (s.lane l).phase = .running → (s.lane l).det = true → (s.lane l).tm.boundary q.read ≤ (s.thread (.game l t)).capVt →
    (s.thread (.game l t)).trapped = false →
    let c := Ctx.game l t
    let L := s.lane l
    let x := s.thread c
    let e := laneEnv L (s.title l) t q.read
    let z (y : Thread) : State := s.putThread c y
    (∀ w b, q.kind = .except w b → L.vectorFixed t q.read = true → x.frames.length < 16 → vectorOk e (x.vectorAddr 0) = true →
      ∃ y, exec (.prefetchFill c) s = .next (z y) ∧ y.entering = none ∧
        y.frames = { epc := x.pc, estatus := x.status e, cause := w, badaddr := b } :: x.frames ∧
        y.pc = entryPc (e.vector (x.vectorAddr 0)) ∧ y.ie = x.ie ∧ y.level = x.level ∧
        y.vt = L.onGrid q.point (q.point + 6 * q.cpu) ∧ x.keepsRegs y []) ∧
    (∀ n p, q.kind = .interrupt → L.readFixed t q.read = true → L.entrySource t q.point q.cpu 0 = some (n, p) → x.frames.length < 16 →
      vectorOk e (x.vectorAddr (1 + n)) = true →
      ∃ y, exec (.prefetchFill c) s = .next ((z y).putLane l (((z y).lane l).acknowledge q.read n)) ∧ y.entering = none ∧
        y.frames = { epc := x.pc, estatus := x.status e, cause := interruptCause n p, badaddr := 0 } :: x.frames ∧
        y.pc = entryPc (e.vector (x.vectorAddr (1 + n))) ∧ y.ie = x.ie ∧ y.level = p ∧
        y.vt = L.onGrid q.point (q.point + 6 * q.cpu) ∧ x.keepsRegs y []) ∧
    (∀ f fs, q.kind = .ret → L.eretFixed t q.point q.cpu = true → L.chains t q.point q.cpu = none → x.frames = f :: fs →
      ∃ y, exec (.prefetchFill c) s = .next (z y) ∧ y.entering = none ∧ y.frames = fs ∧ y.pc = f.epc ∧ y.ie = bit f.estatus 0 ∧
        y.level = bits f.estatus 4 4 ∧ y.vt = L.onGrid q.point (q.point + jumpCost f.epc 12 4 * q.cpu) ∧ x.keepsRegs y []) ∧
    (∀ f fs n p, q.kind = .ret → L.eretFixed t q.point q.cpu = true → L.chains t q.point q.cpu = some (n, p) → x.frames = f :: fs →
      vectorOk e (x.vectorAddr (1 + n)) = true →
      ∃ y, exec (.prefetchFill c) s = .next ((z y).putLane l (((z y).lane l).acknowledge q.read n)) ∧ y.entering = none ∧
        y.frames = { f with cause := interruptCause n p } :: fs ∧ y.pc = entryPc (e.vector (x.vectorAddr (1 + n))) ∧ y.ie = x.ie ∧
        y.level = p ∧ y.vt = L.onGrid q.point (q.point + 6 * q.cpu) ∧ x.keepsRegs y []))

/-- WAIT, WAIT_RESUME, MBAR and ISYNC (R47, R82, R93, R131): WAIT leaves the thread waiting unless a source is pending for it; WAIT_RESUME
ends the wait of a system context at once, and of a thread of a running lane when a source is pending, in deterministic mode at the VT at
which it is, rounded up to a virtual cycle; MBAR and ISYNC, with nothing outstanding, pass on, ISYNC with the prefetch queue, the line
buffer and the lines of its code in the instruction cache gone. The configuration by which a wait ends is the choice of the model
(assumption 18). -/
def Obligations.WaitAndBarriers : Prop :=
  (∀ l t s, (Ctx.game l t).ok = true → s.issues (.game l t) .wait = true →
    let x := s.thread (.game l t)
    let L := s.lane l
    let p := L.issueVt t
    ∃ y, exec (.wait (.game l t)) s = .next ((s.tookSlot (.game l t)).putThread (.game l t) y) ∧
      y.waiting = !(if L.det then (L.ahead p).wakeAt t p else L.wakeAt t p) ∧ y.pc = x.pc + 4 ∧ x.keepsRegs y [] ∧ x.keepsSys y ∧ x.keepsWork y) ∧
  (∀ h k z s, (Ctx.sys h k z).ok = true → s.issues (.sys h k z) .wait = true →
    let x := s.thread (.sys h k z)
    ∃ y, exec (.wait (.sys h k z)) s = .next ((s.tookSlot (.sys h k z)).putThread (.sys h k z) y) ∧ y.waiting = true ∧ y.pc = x.pc + 4 ∧
      x.keepsRegs y [] ∧ x.keepsSys y ∧ x.keepsWork y) ∧
  (∀ h k z s, (Ctx.sys h k z).ok = true → (s.thread (.sys h k z)).active = true → (s.thread (.sys h k z)).waiting = true →
    exec (.waitResume (.sys h k z)) s = .next (s.putThread (.sys h k z) { s.thread (.sys h k z) with waiting := false })) ∧
  (∀ l t s, (Ctx.game l t).ok = true → (s.thread (.game l t)).active = true → (s.thread (.game l t)).waiting = true →
    (s.lane l).det = false → (s.lane l).phase = .running → (s.lane l).wakeAt t (s.lane l).bvt = true →
    exec (.waitResume (.game l t)) s = .next (s.putThread (.game l t) { s.thread (.game l t) with waiting := false })) ∧
  (∀ l t w s, (Ctx.game l t).ok = true → (s.thread (.game l t)).active = true → (s.thread (.game l t)).waiting = true →
    (s.lane l).det = true → (s.lane l).phase = .running → (s.lane l).wakePoint t (maxL ((s.lane l).wakePoints t)) = some w →
    (s.lane l).fixed (w + 1) = true → (s.lane l).silent (fun u => decide (u = t)) w = true →
    exec (.waitResume (.game l t)) s =
      .next (s.putThread (.game l t) { s.thread (.game l t) with waiting := false, vt := roundUp w (s.lane l).cpu })) ∧
  (∀ c s, c.ok = true → s.issues c .mbar = true → (s.thread c).sb = [] → (s.thread c).loads = [] →
    let x := s.thread c
    ∃ y, exec (.mbar c) s = .next ((s.tookSlot c).putThread c y) ∧ y.pc = x.pc + 4 ∧ x.keepsRegs y [] ∧ x.keepsSys y ∧ x.keepsWork y ∧
      y.vt = x.vtAfter (s.env c) 1) ∧
  (∀ c s, c.ok = true → s.issues c .isync = true → (s.thread c).sb = [] →
    let x := s.thread c
    ∃ y u, exec (.isync c) s = .next u ∧ u = ((s.tookSlot c).putThread c y).dropCode c ∧ y.prefetch = [] ∧ y.lineBuf = none ∧
      y.pc = x.pc + 4 ∧ x.keepsRegs y [] ∧ x.keepsSys y ∧ x.keepsWork y ∧ y.vt = x.vtAfter (s.env c) 1 ∧
      (∀ l t, c = .game l t → ∀ z ∈ (u.half (halfOf l)).icache, z.space ≠ laneSpace l) ∧
      (∀ h k n, c = .sys h k n → ∀ z ∈ (u.half h).icache, z.core ≠ k ∨ z.space ≠ 0))

/-- LOAD and LOAD_DATA_RETURN (R29, R88, R89, R91, R95, R96, R119, R120, R143): a load that raises nothing is outstanding with its
address, destination, VT, what the store buffer forwards to it and how many stores go before it, no register changed; when its data can
return, from the front of the beam-reply queue, from the store buffer, or from memory, the value its kind gives is written. A split load
of a system thread reads its first half, then its second. Which accesses of a system thread fail or miss is the choice of the model
(assumptions 69 and 74). -/
def Obligations.Loads : Prop :=
  (∀ l t fn rt base off s, (Ctx.game l t).ok = true → s.issues (.game l t) (.load fn rt base off) = true →
    let c := Ctx.game l t
    let x := s.thread c
    let a := effAddr (x.gReg base) off
    let beam := decide (windowOf a.toNat = .regs)
    loadFault (s.lane l).titleLen a (loadWidth fn) = none →
    ∃ y u p, exec (.load c fn rt base off) s = .next u ∧ u = ((s.tookSlot c).putThread c y).sendReads c ∧ y.loads = x.loads ++ [p] ∧
      p.addr = a.toNat ∧ p.dest = (if loadIsF fn then .f rt else .g rt) ∧ p.fn = fn ∧ p.stamp = x.vtAfter (s.env c) 0 ∧ p.beam = beam ∧
      p.reply = (if beam || (s.lane l).det then none else (x.forward a.toNat (loadWidth fn)).map leNat) ∧
      p.wait = x.loadWait beam a.toNat (loadWidth fn) ∧
      x.keepsRegs y [] ∧ x.keepsSys y ∧ y.sb = x.sb ∧ y.units = x.units ∧ y.fcsr = x.fcsr ∧ y.pc = x.pc + 4 ∧
      y.vt = x.vtAfter (s.env c) (loadCost a.toNat)) ∧
  (∀ h k z fn rt base off s, (Ctx.sys h k z).ok = true → s.issues (.sys h k z) (.load fn rt base off) = true →
    let c := Ctx.sys h k z
    let x := s.thread c
    let a := effAddr (x.gReg base) off
    sysFault false a.toNat (loadWidth fn) = none →
    ∃ y p, exec (.load c fn rt base off) s = .next ((s.tookSlot c).putThread c y) ∧ y.loads = x.loads ++ [p] ∧ p.addr = a.toNat ∧
      p.dest = (if loadIsF fn then .f rt else .g rt) ∧ p.fn = fn ∧ p.reply = (x.forward a.toNat (loadWidth fn)).map leNat ∧
      p.wait = x.loadWait false a.toNat (loadWidth fn) ∧
      x.keepsRegs y [] ∧ x.keepsSys y ∧ y.sb = x.sb ∧ y.units = x.units ∧ y.fcsr = x.fcsr ∧ y.pc = x.pc + 4) ∧
  (∀ l t k p r s, (Ctx.game l t).ok = true → (s.thread (.game l t)).loads[k]? = some p → p.beam = false →
    s.laneData l p = some r →
    let x := s.thread (.game l t)
    ∃ y, exec (.loadDataReturn (.game l t) k) s = .next ((r.2.putThread (.game l t) y).settle (.game l t)) ∧ y.loads = x.loads.eraseIdx k ∧
      (match p.dest with | .g q => y.gReg q = written q (loadResult p.fn r.1) | .f q => y.fReg q = loadResult p.fn r.1) ∧
      x.keepsRegs y [p.dest] ∧ x.keepsSys y ∧ y.pc = x.pc ∧ y.vt = x.vt) ∧
  (∀ l t k p v s, (Ctx.game l t).ok = true → (s.thread (.game l t)).loads[k]? = some p → p.beam = true →
    (s.lane l).replyFor t k = some v →
    let x := s.thread (.game l t)
    let u := s.putLane l { s.lane l with replies := (s.lane l).replies.drop 1 }
    ∃ y, exec (.loadDataReturn (.game l t) k) s = .next ((u.putThread (.game l t) y).settle (.game l t)) ∧ y.loads = x.loads.eraseIdx k ∧
      (match p.dest with | .g q => y.gReg q = written q (loadResult p.fn v) | .f q => y.fReg q = loadResult p.fn v) ∧
      x.keepsRegs y [p.dest] ∧ x.keepsSys y ∧ y.pc = x.pc ∧ y.vt = x.vt) ∧
  (∀ h k z n p s, (Ctx.sys h k z).ok = true → (s.thread (.sys h k z)).loads[n]? = some p → p.wait = 0 →
    let c := Ctx.sys h k z
    let x := s.thread c
    let rd (a m : Nat) : Bytes × Half :=
      if Config.sysMisfit a m then (List.replicate m 0, s.half h) else (s.half h).cachedRead h k 0 a m (fun b => s.plainRead c b 64)
    let m := p.addr % loadWidth p.fn
    let q := loadWidth p.fn - m
    (∀ v, p.reply = some v → ∃ y, exec (.loadDataReturn c n) s = .next (s.putThread c y) ∧ y.loads = x.loads.eraseIdx n ∧
      y = { x with loads := x.loads.eraseIdx n }.setDest p.dest (loadResult p.fn v) ∧ x.keepsRegs y [p.dest] ∧ x.keepsSys y ∧ y.pc = x.pc) ∧
    (p.reply = none → m = 0 →
      let r := rd p.addr (loadWidth p.fn)
      ∃ y, exec (.loadDataReturn c n) s = .next ((s.putHalf h r.2).putThread c y) ∧ y.loads = x.loads.eraseIdx n ∧
        y = { x with loads := x.loads.eraseIdx n }.setDest p.dest (loadResult p.fn (leNat r.1)) ∧ x.keepsRegs y [p.dest] ∧ x.keepsSys y ∧
        y.pc = x.pc) ∧
    (p.reply = none → m ≠ 0 → p.split = none →
      let r := rd p.addr q
      exec (.loadDataReturn c n) s =
        .next ((s.putHalf h r.2).putThread c { x with loads := x.loads.set n { p with split := some r.1 } })) ∧
    (∀ b, p.reply = none → m ≠ 0 → p.split = some b →
      let r := rd ((p.addr + q) % 2 ^ 64) (loadWidth p.fn - q)
      ∃ y, exec (.loadDataReturn c n) s = .next ((s.putHalf h r.2).putThread c y) ∧ y.loads = x.loads.eraseIdx n ∧
        y = { x with loads := x.loads.eraseIdx n }.setDest p.dest (loadResult p.fn (leNat (b ++ r.1))) ∧ x.keepsRegs y [p.dest] ∧
        x.keepsSys y ∧ y.pc = x.pc))

/-- STORE, STORE_BUFFER_DRAIN and VIDEO_GATE_WRITE (R32, R89, R90, R96, R179, R180): a store that raises nothing enters the store buffer
with its address, bytes and VT, memory and every register unchanged, one to the beam side while the beam-write queue has room; the oldest
entry leaves the buffer when its window takes it, and updates the line of its core's data cache; with nothing buffered the register reads
that can leave do so; the first entry of the video gate is written once no fetch below it is left. PREFETCH_FILL (R79, R80, R83, R84): an
active thread whose queue has room takes the next 8 bytes of its code: a game thread, outside deterministic mode and near SRAM, and a
system thread by way of the line buffer and the instruction cache; in a deterministic lane the words that stores have covered go first,
and a queue with four words, or whose next address holds no code, loses those only. Which accesses of a system thread fail or miss, and
how the caches of several cores hold it, is the choice of the model (assumptions 69 and 74). -/
def Obligations.StoresAndPrefetch : Prop :=
  (∀ l t fn rt base off s, (Ctx.game l t).ok = true → s.issues (.game l t) (.store fn rt base off) = true →
    let c := Ctx.game l t
    let x := s.thread c
    let a := effAddr (x.gReg base) off
    let data := leBytes (storeWidth fn) (if storeIsF fn then x.fReg rt else x.gReg rt).toNat
    storeFault (s.lane l).titleLen a (storeWidth fn) = none → (windowOf a.toNat = .regs → (s.lane l).queue.length < 64) →
    ∃ y, exec (.store c fn rt base off) s = .next ((s.tookSlot c).putThread c y) ∧
      y.sb = x.sb ++ [{ addr := a.toNat, data := data, stamp := x.vtAfter (s.env c) 0 }] ∧ x.keepsRegs y [] ∧ x.keepsSys y ∧
      y.loads = x.loads ∧ y.units = x.units ∧ y.fcsr = x.fcsr ∧ y.pc = x.pc + 4 ∧ y.vt = x.vtAfter (s.env c) 1 ∧
      y.active = (x.active && !exitStore t a.toNat data)) ∧
  (∀ h k z fn rt base off s, (Ctx.sys h k z).ok = true → s.issues (.sys h k z) (.store fn rt base off) = true →
    let c := Ctx.sys h k z
    let x := s.thread c
    let a := effAddr (x.gReg base) off
    let data := leBytes (storeWidth fn) (if storeIsF fn then x.fReg rt else x.gReg rt).toNat
    let parts := splitAt a.toNat (storeWidth fn)
    sysFault true a.toNat (storeWidth fn) = none → x.sb.length + parts.length ≤ 8 →
    ∃ y, exec (.store c fn rt base off) s = .next ((s.tookSlot c).putThread c y) ∧
      y.sb = x.sb ++ (parts.filter (fun p => !Config.sysMisfit (p.1 % 2 ^ 64) p.2)).map (fun p => { addr := p.1 % 2 ^ 64, data := slice data (p.1 - a.toNat) p.2, stamp := 0 }) ∧
      x.keepsRegs y [] ∧ x.keepsSys y ∧ y.loads = x.loads ∧ y.pc = x.pc + 4) ∧
  (∀ l t e rest A n s, (Ctx.game l t).ok = true → (s.thread (.game l t)).sb = e :: rest → (s.lane l).drainStore t e = some (A, n) →
    ∃ u, exec (.storeBufferDrain (.game l t)) s = .next u ∧
      u = ((((s.putLane l (A.setThread t (A.thread t).stored)).storeThrough l e.addr e.data).sendReads (.game l t)).ckptLost l n).settle
        (.game l t)) ∧
  (∀ l t s, (Ctx.game l t).ok = true → (s.thread (.game l t)).sb = [] →
    exec (.storeBufferDrain (.game l t)) s = .next (s.sendReads (.game l t))) ∧
  (∀ h k z e rest s, (Ctx.sys h k z).ok = true → (s.thread (.sys h k z)).sb = e :: rest →
    (s.thread (.sys h k z)).unread e.addr e.data.length = false →
    ∃ t, exec (.storeBufferDrain (.sys h k z)) s = .next t ∧ (t.thread (.sys h k z)).sb = rest ∧
      (t.half h).sysMem = (s.half h).sysMem.writeBytes e.addr e.data ∧ t.half (HalfId.peer h) = s.half (HalfId.peer h)) ∧
  (∀ l k s, l < 256 → (s.lane l).gateFirst = some k → (s.lane l).fetchLeft ((s.lane l).tm.milVt k.1) = false →
    (s.lane l).ckptHold ((s.lane l).tm.milVt k.1) (k.2 * 64) 64 = false →
    ∃ r, exec (.videoGateWrite l) s = .next ((s.putLane l r.1).ckptLost l r.2) ∧ r = (s.lane l).gateWrite k) ∧
  (∀ l t s, (Ctx.game l t).ok = true → (s.thread (.game l t)).active = true → (s.thread (.game l t)).entering = none →
    let c := Ctx.game l t
    let L := s.lane l
    let x := s.thread c
    let q := L.validFills (s.title l) t x.prefetch
    let a := nextFill x.pc q
    (q.length < 4 ∧ executable a L.titleLen = true ∧ (L.det = true ∨ windowOf a = .near) →
      exec (.prefetchFill c) s = .next (s.putThread c { x with prefetch := q ++ [(a, L.fillWord (s.title l) t a)] })) ∧
    (4 ≤ q.length ∨ executable a L.titleLen = false →
      exec (.prefetchFill c) s = .next (s.putThread c { x with prefetch := q })) ∧
    (q.length < 4 ∧ executable a L.titleLen = true ∧ L.det = false ∧ windowOf a ≠ .near →
      let r := (s.half (halfOf l)).codeWord (halfOf l) L.core (laneSpace l) x.lineBuf a (fun b => s.plainRead c b 64)
      exec (.prefetchFill c) s =
        .next ((s.putHalf (halfOf l) r.2.2).putThread c { x with prefetch := q ++ [(a, r.1)], lineBuf := r.2.1 }))) ∧
  (∀ h k z s, (Ctx.sys h k z).ok = true → (s.thread (.sys h k z)).active = true → (s.thread (.sys h k z)).prefetch.length < 4 →
    let c := Ctx.sys h k z
    let x := s.thread c
    let a := nextFill x.pc x.prefetch
    let r := (s.half h).codeWord h k 0 x.lineBuf a (fun b => s.plainRead c b 64)
    exec (.prefetchFill c) s =
      .next ((s.putHalf h r.2.2).putThread c { x with prefetch := x.prefetch ++ [(a, r.1)], lineBuf := r.2.1 }))

/-- AMO (R122 to R124): with the store buffer empty and the turn of R124, the old value goes to rd, sign-extended for 32 bits, and the new
value of R122 is stored at the same address: with the stamp and rank that order it, through the video gate for the video RAM of a
deterministic lane, otherwise in memory and in the line of the core's data cache. Which accesses of a system thread fail is the choice of
the model (assumptions 69 and 74), and so is where a waiting thread counts (assumption 77). -/
def Obligations.AtomicOperations : Prop :=
  (∀ l t fn w32 rd ra rb rc s, (Ctx.game l t).ok = true → s.issues (.game l t) (.amo fn w32 rd ra rb rc) = true →
    let c := Ctx.game l t
    let x := s.thread c
    let L := s.lane l
    let a := x.gReg ra
    let n := if w32 then 4 else 8
    let v := x.vtAfter (s.env c) 0
    let old := leNat (if L.det then L.viewAt (s.title l) v (t + 1) a.toNat n else s.plainRead c a.toNat n)
    let new := leBytes n (amoNew fn (8 * n) old ((x.gReg rb).toNat % 2 ^ (8 * n)) ((x.gReg rc).toNat % 2 ^ (8 * n)))
    let st : LogStore := { stamp := v, rank := t + 1, addr := a.toNat, data := new, gated := L.det && decide (windowOf a.toNat = .video) }
    amoFault false a n = none → x.sb = [] → L.amoTurn t = true → L.ckptHold v a.toNat n = false →
    (L.det = false → x.unread a.toNat n = false) → (st.gated = true → L.gateTakes st = true) →
    ∃ y, (st.gated = true → exec (.amo c fn w32 rd ra rb rc) s =
        .next ((s.tookSlot c).putLane l ((L.gated st).setThread t y))) ∧
      (st.gated = false →
        let r := (L.setThread t y).land st
        exec (.amo c fn w32 rd ra rb rc) s = .next ((((s.tookSlot c).putLane l r.1).storeThrough l a.toNat new).ckptLost l r.2)) ∧
      y.gReg rd = written rd (if w32 then sextN 32 old else w64 old) ∧ x.keepsRegs y [.g rd] ∧ x.keepsSys y ∧ y.pc = x.pc + 4 ∧
      y.vt = x.vtAfter (s.env c) (amoCost a.toNat)) ∧
  (∀ h k z fn w32 rd ra rb rc s, (Ctx.sys h k z).ok = true → s.issues (.sys h k z) (.amo fn w32 rd ra rb rc) = true →
    let c := Ctx.sys h k z
    let x := s.thread c
    let a := x.gReg ra
    let n := if w32 then 4 else 8
    let misfit := Config.sysMisfit a.toNat n
    let old := if misfit then 0 else leNat (s.plainRead c a.toNat n)
    amoFault true a n = none → x.sb = [] → x.unread a.toNat n = false →
    ∃ t, exec (.amo c fn w32 rd ra rb rc) s = .next t ∧ (t.thread c).gReg rd = written rd (if w32 then sextN 32 old else w64 old) ∧
      x.keepsRegs (t.thread c) [.g rd] ∧ (t.thread c).pc = x.pc + 4 ∧
      (t.half h).sysMem = (if misfit then (s.half h).sysMem else (s.half h).sysMem.writeBytes a.toNat
        (leBytes n (amoNew fn (8 * n) old ((x.gReg rb).toNat % 2 ^ (8 * n)) ((x.gReg rc).toNat % 2 ^ (8 * n))))))

/-- BEAM_WRITE_APPLY and STAMPED_READ_RELEASE (R29, R31, R42 to R44, R54): in a late frame the beam takes the raster or compositor write
that is due for it first; else the access at the front of the beam-write queue is served once the lane unit can serve it. A write leaves
the queue and takes effect; a read leaves the queue and is answered, and it needs a free slot of the eight of the beam-reply queue.
MILESTONE (R36, R43, R99, R161): once every dot before it is composed and every access before it served, the beam reaches the next
milestone inside a frame, BVT is its VT, and the count of milestones rises by one; memory, threads and store log stay. Before that, in
deterministic mode, the events of the next milestone of the frame are fixed as soon as nothing below it is open. When a normal-mode access
is served is read by inference (assumption 133). -/
def Obligations.BeamProgress : Prop :=
  (∀ l p s, l < 256 → (s.lane l).lateWrite = some p → exec (.beamWriteApply l) s = .next (s.putLane l ((s.lane l).serveWrite p))) ∧
  (∀ l p s, l < 256 → (s.lane l).lateWrite = none → (s.lane l).front = some p → p.1.read = false → (s.lane l).canServe p.1 = true →
    exec (.beamWriteApply l) s = .next (s.putLane l ((s.lane l).serveWrite p))) ∧
  (∀ l t p s, l < 256 → t < 4 → (s.lane l).front = some p → p.1.read = true → p.1.thread = t → (s.lane l).canServe p.1 = true →
    exec (.stampedReadRelease l t) s = .next (s.putLane l ((s.lane l).serveRead p))) ∧
  (∀ (L : Lane) e, e.read = true → 8 ≤ L.replies.length → L.canServe e = false) ∧
  (∀ l s, l < 256 → (s.lane l).canArrive = true → (s.lane l).tm.lineAt (s.lane l).nextMil ≠ 0 →
    ∃ A, exec (.milestone l) s = .next (s.putLane l A) ∧ A.bvt = (s.lane l).nextMil ∧ A.mil = (s.lane l).mil + 1 ∧
      A.mem = (s.lane l).mem ∧ A.th = (s.lane l).th ∧ A.log = (s.lane l).log) ∧
  (∀ l k s, l < 256 → (s.lane l).canArrive = false → (s.lane l).unit.lic.milestones = k →
    (if (s.lane l).det then (s.lane l).tm.milVt k < (s.lane l).frameEnd else (s.lane l).tm.milVt k ≤ (s.lane l).bvt) →
    (s.lane l).canProject k = true →
    ∃ A, exec (.milestone l) s = .next (s.putLane l A) ∧ A.unit.lic.milestones = k + 1 ∧ A.bvt = (s.lane l).bvt ∧
      A.mil = (s.lane l).mil ∧ A.mem = (s.lane l).mem ∧ A.th = (s.lane l).th)

/-- FRAME_BOUNDARY (R36, R43, R58, R377): where no pause is due, all that the boundary brings takes place; at one with a timing change the
lane clock is then held for the relock, with LSYS_SYNTH.LOCKED 0, until the next FRAME_BOUNDARY ends that hold with LOCKED 1 (that the
command ends it is the model's choice, log entry 44). At the end of a late frame the vblank hold begins with BVT at the boundary.
FRAME_LATE (R53, R56, R66): BVT passes the lane floor within the frame; the frame is marked late there, the tailrace pass begins with the
register state, and LATE_COUNT rises by one, saturating. Memory, threads and the other half stay. SLACK_HOLD, SLACK_HOLD_END,
VBLANK_HOLD_END and HOLD_FAULT (R57 to R59, R66): a slack hold begins at a VT that the smallest VT of a thread lags by more than SLACK
lines and ends where the lane floor reaches BVT; a vblank hold first begins its copy once the tailrace pass has reached the boundary and
ends when the copy is made, with the frame late no more. HOLD_LAST is then the length of the hold in periods of 40 ns. A slack or vblank
hold of more than two frame periods is a fault of the lane's unit. The class of a HOLD_FAULT is read by inference (assumption 35). -/
def Obligations.FramesAndHolds : Prop :=
  (∀ l tm s, l < 256 → (s.lane l).canEnd = true → (s.lane l).hold = .none → (s.lane l).late = false → (s.lane l).pauseDue.any = false →
    let t := (s.at tm).boundary l (s.lane l).nextMil
    ((s.lane l).retimes (s.lane l).nextMil = false → exec (.frameBoundary l tm) s = .next t) ∧
    ((s.lane l).retimes (s.lane l).nextMil = true →
      exec (.frameBoundary l tm) s =
        .next (t.putLane l (({ t.lane l with hold := .relock, holdAt := (s.at tm).time } : Lane).setLocked false)))) ∧
  (∀ l tm s, l < 256 → (s.lane l).phase = .running → (s.lane l).hold = .relock →
    exec (.frameBoundary l tm) s = .next ((s.at tm).putLane l (({ s.lane l with hold := .none } : Lane).setLocked true))) ∧
  (∀ l tm s, l < 256 → (s.lane l).canEnd = true → (s.lane l).hold = .none → (s.lane l).late = true →
    exec (.frameBoundary l tm) s = .next (((s.at tm).markBoundary l (s.lane l).nextMil).putLane l
      { s.lane l with hold := .vblank, holdAt := (s.at tm).time, bvt := (s.lane l).nextMil })) ∧
  (∀ l v s, l < 256 → (s.lane l).turnsLate v = true →
     ∃ t, exec (.frameLate l v) s = .next t ∧ (t.lane l).late = true ∧ (t.lane l).lateAt = v ∧ (t.lane l).bvt = v ∧
       (t.lane l).tail = some { (s.lane l).unit.ras with pos := (s.lane l).bvt } ∧ (t.lane l).tailWr = [] ∧
       bits ((t.lane l).unit.reg 0x34028) 8 24 = min (bits ((s.lane l).unit.reg 0x34028) 8 24 + 1) (2 ^ 24 - 1) ∧
       (t.lane l).mem = (s.lane l).mem ∧ (t.lane l).th = (s.lane l).th ∧
       t.half (HalfId.peer (halfOf l)) = s.half (HalfId.peer (halfOf l))) ∧
  (∀ l v w tm s, l < 256 →
    let L := s.lane l
    L.det = true → L.phase = .running → L.late = true → L.hold = .none → L.slack < L.tm.vtot → L.lowest = some w →
    w + L.slack * L.tm.ll < v → L.bvt ≤ v → L.nextWithin v = true →
    exec (.slackHold l v tm) s = .next ((s.at tm).putLane l { L with bvt := v, hold := .slack, holdAt := (s.at tm).time })) ∧
  (∀ l tm s, l < 256 → (s.lane l).hold = .slack → (s.lane l).bvt ≤ (s.lane l).floor →
    ∃ A, exec (.slackHoldEnd l tm) s = .next ((s.at tm).putLane l A) ∧ A.hold = .none ∧ A.bvt = (s.lane l).bvt ∧
      A.th = (s.lane l).th ∧ A.mem = (s.lane l).mem ∧
      A.unit = (s.lane l).unit.setReg 0x34028 (putBits ((s.lane l).unit.reg 0x34028) 32 32
        (satBits 32 (((s.at tm).time - (s.lane l).holdAt) / 40)))) ∧
  (∀ l tm r s, l < 256 → (s.lane l).tail = some r → (s.lane l).phase = .running → (s.lane l).tailAt = none →
    (s.lane l).tailReached (s.lane l).nextMil r = true →
    exec (.vblankHoldEnd l tm) s = .next ((s.at tm).putLane l { s.lane l with tailAt := some (s.at tm).time })) ∧
  (∀ l tm r s, l < 256 → (s.lane l).tail = some r → (s.lane l).phase = .running →
    (s.lane l).holdOver (s.lane l).nextMil (s.at tm).time r = true →
    let A := (s.lane l).copyBack (s.lane l).nextMil (s.at tm).time
    exec (.vblankHoldEnd l tm) s = .next ((s.at tm).putLane l A) ∧ A.hold = .none ∧
      bits (A.unit.reg 0x34028) 32 32 = satBits 32 (((s.at tm).time - (s.lane l).holdAt) / 40)) ∧
  (∀ l tm s, l < 256 → (s.lane l).phase = .running → (s.lane l).hold.counted = true →
    2 * (s.lane l).period < (((s.at tm).time - (s.lane l).holdAt : Nat) : Rat) →
    (∀ x ∈ (s.half (halfOf l)).sp.later, ∀ f, x.2 = .fault f → ¬(f.cls = 3 ∧ f.lane = some l)) →
    exec (.holdFault l tm) s = .next ((s.at tm).pointFault l 0))

/-- CROSS_THREAD_EFFECT, THR_CTL_START and THR_CTL_EXIT (R51, R66): a start asked of another thread waits for the second milestone after
its stamp, and then starts an admitted, inactive thread at its ENTRY; a thread ends by its own EXIT, thread 0 never. That the low bits of
ENTRY are dropped is the choice of the model (assumption 107). -/
def Obligations.ThreadControl : Prop :=
  (∀ l c rest k s, l < 256 → (s.lane l).cross = c :: rest → (s.lane l).phase = .running → (s.lane l).CrossDue c →
    c.start = some k → c.source = none → ((s.lane l).thread k).admitted = true → ((s.lane l).thread k).active = false →
    ∃ A, exec (.crossThreadEffect l) s = .next (s.putLane l A) ∧ A.cross = rest ∧ (A.thread k).active = true ∧
      (A.thread k).pc = w64 (bits ((s.lane l).unit.reg (0x34080 + 8 * k)) 2 38 * 4) ∧ (A.thread k).sb = ((s.lane l).thread k).sb ∧
      (A.thread k).vt = roundUp ((s.lane l).milVt c.mil) (s.lane l).cpu ∧ (∀ r, (A.thread k).gReg r = 0) ∧
      (∀ u, u ≠ k → A.thread u = (s.lane l).thread u)) ∧
  (∀ l c rest n s, l < 256 → (s.lane l).cross = c :: rest → (s.lane l).phase = .running → (s.lane l).CrossDue c →
    c.start = none → c.source = some n →
    ∃ A, exec (.crossThreadEffect l) s = .next (s.putLane l A) ∧ A.cross = rest ∧ A.th = (s.lane l).th ∧
      A.unit.lic = (s.lane l).unit.lic.raise n (if (s.lane l).det then (s.lane l).milVt c.mil else (s.lane l).bvt)) ∧
  (∀ l w t stamp s, l < 256 → w < 4 → t < 4 → (s.lane l).phase ≠ .stopped → (s.lane l).queue = [] → w ≠ t →
    exec (.thrCtlStart l w t stamp) s = .next (s.putLane l { s.lane l with
      cross := (s.lane l).cross ++ [{ mil := (s.lane l).tm.milIndex stamp + 2, start := some t, source := none }] })) ∧
  (∀ l t stamp s, l < 256 → 0 < t → t < 4 → (s.lane l).phase ≠ .stopped → (s.lane l).queue = [] →
    exec (.thrCtlExit l t t stamp) s = .next (s.putLane l
      ((s.lane l).setThread t { (s.lane l).thread t with active := false, waiting := false }))) ∧
  (∀ l stamp s, l < 256 → (s.lane l).phase ≠ .stopped → (s.lane l).queue = [] →
    exec (.thrCtlExit l 0 0 stamp) s = .next (s.putLane l (s.lane l)))

/-- PAUSE_TAKES_EFFECT and LANE_WAKE (R62, R63, R157): a pause stops the beam at the frame boundary, with the lane in the paused state for
its reasons, its threads and its memory as they were; a latched source wakes a lane that is paused for no fault, test or drain and that no
snapshot holds. What a wake waits for is read by inference (assumption 46). -/
def Obligations.PauseAndWake : Prop :=
  (∀ l tm s, l < 256 → (s.lane l).canEnd = true → (s.lane l).late = false → (s.lane l).pauseDue.any = true → (s.lane l).pauseCmds = [] →
    ((s.lane l).op.tap = none ∨ (s.lane l).op.tapDone = none) →
    ∃ A, exec (.pauseTakesEffect l tm) s = .next ((((s.at tm).markBoundary l (s.lane l).nextMil).putLane l A).unlock l) ∧
      A.phase = .paused ∧ A.bvt = (s.lane l).nextMil ∧
      A.pausedFor = ((s.lane l).pausedFor.or (s.lane l).pauseDue).or { PauseWhy.no with
        drain := (s.half (halfOf l)).drain.lanes.contains l && ((s.lane l).snap.any (·.drain) || (s.half (halfOf l)).drain.buffersOver) } ∧
      A.pauseDue = .no ∧ A.th = (s.lane l).th ∧ A.mem = (s.lane l).mem) ∧
  (∀ l tm s, l < 256 → (s.lane l).canEnd = true → (s.lane l).late = false → (s.lane l).pauseDue.any = true →
    ((s.lane l).op.tap = none ∨ (s.lane l).op.tapDone = none) → Goes (exec (.pauseTakesEffect l tm) s)) ∧
  (∀ l tm s, l < 256 → (s.lane l).phase = .paused → (s.lane l).unit.lic.latched = true → (s.lane l).snap = none →
    (s.lane l).pausedFor.fault = false → (s.lane l).pausedFor.test = false → (s.lane l).pausedFor.drain = false →
    exec (.laneWake l tm) s = .next ((s.at tm).resumeLane l (s.lane l).unit.lic.wakeCause))

/-- LIC_SOURCE_PENDING (R99, R145, R154, R566): a condition whose event VT is settled makes its source pending, with that VT; the
condition is spent and nothing else of the lane changes but the controller. Where no condition of the source has arisen, the captures of
the period are made first for a capture source, and the events of the next milestone are fixed for a milestone source. A write of the LIC
window that the queue does not hold acts at its dot (R42, R51, R146, R147, R153 to R155): LIC_ENABLE_SET and LIC_ENABLE_CLR change the
enables, LIC_PEND_CLEAR clears, and LIC_EOI completes the source that its low six bits name. LIC_PEND_SET raises each software source of
its bits, in deterministic mode at once where the writer is the source's target and else from the second milestone on. That such a write
acts by itself is the choice of the model (assumption 30). -/
def Obligations.ControllerWrites : Prop :=
  (∀ l n e s, l < 256 → n < 64 → (s.lane l).unit.lic.firstOf n = some e → (s.lane l).phase ≠ .stopped →
    ((s.lane l).det = true → e < (s.lane l).frameEnd ∧ (s.lane l).fixed e = true ∧ (s.lane l).silent (fun _ => false) e = true) →
    exec (.licSourcePending l n) s =
      .next (s.putLane l { s.lane l with unit := { (s.lane l).unit with lic := ((s.lane l).unit.lic.mark e).setPend n e } })) ∧
  (∀ l n s, l < 256 → 16 ≤ n → n < 24 → (s.lane l).unit.lic.firstOf n = none → (s.lane l).unit.tim.trigs ≠ [] →
    (s.lane l).stepFour = true →
    exec (.licSourcePending l n) s = .next (s.putLane l ((s.lane l).timersRaise (s.lane l).unit.tim.captures))) ∧
  (∀ l n k s, l < 256 → 24 ≤ n → n ≤ 27 → (s.lane l).unit.lic.firstOf n = none → (s.lane l).det = true →
    (s.lane l).unit.lic.milestones = k → (s.lane l).tm.milVt k < (s.lane l).frameEnd → (s.lane l).canProject k = true →
    exec (.licSourcePending l n) s = .next (s.putLane l ((s.lane l).project k))) ∧
  (∀ l w stamp s, l < 256 → w < 4 → (s.lane l).phase ≠ .stopped → (s.lane l).queue = [] →
     let L := s.lane l
     let d := if L.det then L.tm.stampVt stamp else L.bvt
     let c := (L.unit.lic.mark d).trim L.licOld
     let o := L.otherFrom stamp d
     let put (x : Lic) : Lane := { L with unit := { L.unit with lic := x } }
     (∀ v : BitVec 32, exec (.licEoi l w stamp v) s = .next (s.putLane l (put (c.eoi (v.toNat % 64) (L.licWriter w) d o)))) ∧
     (∀ v : BitVec 64, exec (.licEnableSet l w stamp v) s =
       .next (s.putLane l (put (c.change (.enSet v) (L.licWriter w) d o L.licOld)))) ∧
     (∀ v : BitVec 64, exec (.licEnableClr l w stamp v) s =
       .next (s.putLane l (put (c.change (.enClr v) (L.licWriter w) d o L.licOld)))) ∧
     (∀ v : BitVec 64, exec (.licPendClear l w stamp v) s =
       .next (s.putLane l (put (if L.det then c.clearPend v (L.licWriter w) d o
         else { c.clearPend v (L.licWriter w) (d + 1) o with lagPend := c.lagPend })))) ∧
     (∀ v : BitVec 64, ∃ A, exec (.licPendSet l w stamp v) s = .next (s.putLane l A) ∧ A.mem = L.mem ∧ A.th = L.th ∧
       A.unit.tim = L.unit.tim ∧ (∀ n, 48 ≤ n → n < 56 → v.toNat.testBit n = true →
         (L.det = false → (n, L.bvt) ∈ A.unit.lic.events) ∧
         (L.det = true → L.unit.lic.reg.target n = w → (n, d) ∈ A.unit.lic.events) ∧
         (L.det = true → L.unit.lic.reg.target n ≠ w →
           ({ mil := L.tm.milIndex stamp + 2, start := none, source := some n } : CrossEffect) ∈ A.cross))))

/-- The rule of LIC_EOI (R153): a thread, whichever of the lane, completes source n by writing n to LIC_EOI. When the write takes effect,
ACTIVE[n] is cleared if it is 1; the other sources keep their ACTIVE and every source its PEND. If ACTIVE[n] is 0, no source changes, and
EOI_IGNORED is incremented, saturating at 0xFFFF. -/
def Obligations.EndOfInterrupt : Prop :=
  (∀ (L : Lane) (e : BeamEntry) (d : Nat), e.off = 0x31150 → e.read = false → e.applied = false →
    let n := e.data % 64
    let c := L.unit.lic
    let z := (L.store e d).unit.lic
    z.pend = c.pend ∧ (∀ m, m < 64 → m ≠ n → bit z.active m = bit c.active m) ∧
    (bit c.active n = true → bit z.active n = false ∧ z.eoiIgnored = c.eoiIgnored) ∧
    (bit c.active n = false → z.active = c.active ∧ z.eoiIgnored = min (c.eoiIgnored + 1) 65535)) ∧
  (∀ (c : Lic) (n : Nat) (w : Option Nat) (own other : Nat), n < 64 →
    (bit c.active n = true → bit (c.eoi n w own other).active n = false ∧
      (∀ m, m < 64 → m ≠ n → bit (c.eoi n w own other).active m = bit c.active m) ∧ (c.eoi n w own other).pend = c.pend) ∧
    (bit c.active n = false → c.eoi n w own other = { c with eoiIgnored := min (c.eoiIgnored + 1) 65535 }))

/-- TIMER_TICK, TIMER_WRAP and TIMER_COMPARE (R158 to R162): the next tick of a timer takes place in its LCLK period; the captures of the
period reached, then a wrap and a compare there, are evaluated at steps 3 and 4. A wrap raises source 8 + n. Memory and threads stay. A
write or an effective read of the timer window that the queue does not hold (R42, R160, R163, R167 to R169): it acts on the timers at its
VT. That such a write acts by itself is the choice of the model (assumption 30). -/
def Obligations.TimerCommands : Prop :=
  (∀ l n t s, l < 256 → n < 8 → (s.lane l).unit.tim.nextTick n = some t → (s.lane l).unit.tim.firstTick = some t →
    (s.lane l).phase = .running → (s.lane l).periodOpen t = true → (s.lane l).det = true →
    exec (.timerTick l n) s =
      .next (s.putLane l { s.lane l with unit := { (s.lane l).unit with tim := (s.lane l).unit.tim.tick n } })) ∧
  (∀ l n t s, l < 256 → n < 8 → (s.lane l).unit.tim.nextTick n = some t → (s.lane l).unit.tim.firstTick = some t →
    (s.lane l).phase = .running → (s.lane l).periodOpen t = true → (s.lane l).det = false →
    ∃ A, exec (.timerTick l n) s = .next (s.putLane l A) ∧ A.unit.tim = (s.lane l).unit.tim.tick n ∧ A.mem = (s.lane l).mem ∧
      A.th = (s.lane l).th) ∧
  (∀ l n s, l < 256 → n < 8 → (s.lane l).phase = .running → ((s.lane l).unit.tim.get n).wrapped = true → (s.lane l).stepFour = true →
    ∃ A, exec (.timerWrap l n) s = .next (s.putLane l A) ∧ A.unit.tim = { ((s.lane l).unit.tim.captures.1.raiseWrap n).1 with
        closed := max (s.lane l).unit.tim.closed ((s.lane l).unit.tim.now + 1) } ∧
      (8 + n, if (s.lane l).det then (s.lane l).unit.tim.now else (s.lane l).bvt) ∈ A.unit.lic.events ∧
      A.mem = (s.lane l).mem ∧ A.th = (s.lane l).th) ∧
  (∀ l n s, l < 256 → n < 8 → (s.lane l).phase = .running → ((s.lane l).unit.tim.get n).due = true → (s.lane l).stepFour = true →
    ∃ A, exec (.timerCompare l n (s.lane l).unit.tim.now) s = .next (s.putLane l A) ∧
      A.unit.tim = { ((s.lane l).unit.tim.captures.1.compare n).1 with
        closed := max (s.lane l).unit.tim.closed ((s.lane l).unit.tim.now + 1) } ∧ A.mem = (s.lane l).mem ∧ A.th = (s.lane l).th) ∧
  (∀ l s, l < 256 → (s.lane l).phase ≠ .stopped → (s.lane l).queue = [] →
     let L := s.lane l
     let W (off v vt : Nat) : State := s.putLane l (L.storeTim vt off v)
     (∀ n (v : BitVec 32) vt, n < 8 → exec (.timCtlWrite l n v vt) s = .next (W (0x20 * n) v.toNat vt)) ∧
     (∀ n (v : BitVec 32) vt, n < 8 → exec (.timCntWrite l n v vt) s = .next (W (0x20 * n + 4) v.toNat vt)) ∧
     (∀ n (v : BitVec 32) vt, n < 8 → exec (.timCmpWrite l n v vt) s = .next (W (0x20 * n + 12) v.toNat vt)) ∧
     (∀ n (v : BitVec 32) vt, n < 8 → v.toNat.testBit n = true → exec (.timerStart l n v vt) s = .next (W 0x100 v.toNat vt)) ∧
     (∀ n (v : BitVec 32) vt, n < 8 → v.toNat.testBit (8 + n) = true → exec (.timerStop l n v vt) s = .next (W 0x100 v.toNat vt)) ∧
     (∀ (v : BitVec 32) vt, exec (.timCapTrig l v vt) s = .next (W 0x104 v.toNat vt)) ∧
     (∀ n, n < 8 → exec (.timCapRead l n) s = .next (s.putLane l (L.readEffect (0x30010 + 0x20 * n)))) ∧
     (∀ k, k < 4 → exec (.timCntPairRead l k) s = .next (s.putLane l (L.readEffect (0x30004 + 0x40 * k)))))

/-- What a tick does to a count (R158, R159): up counts to TOP and starts again at 0, down counts from TOP to 0, up/down turns at both
ends, and the event of a wrap comes with the tick that wraps. (Up/down at the edges of 32 bits is not stated here: log entry 90.) The
rules of the timer registers (R160, R163, R165, R168): a write of TIM_CNT loads the count; GSTART starts a stopped timer and stops a
running one, and changes nothing where it names a timer for both; a capture copies the count, sets CAPF, sets CAPOVR if CAPF was set, and
raises source 16 + n; a read of TIM_CAP clears CAPF. The odd timer of a cascaded pair is not started, stopped or captured by itself: a
capture of the even one copies both counts. -/
def Obligations.TimerRules : Prop :=
  (∀ top, timerStep 0 top top false = (0, false, true)) ∧
  (∀ c top, c < top → top < 2 ^ 32 → timerStep 0 c top false = (c + 1, false, false)) ∧
  (∀ top falling, (timerStep 1 0 top falling).1 = top ∧ (timerStep 1 0 top falling).2.2 = true) ∧
  (∀ c top falling, 0 < c → c ≤ top → (timerStep 1 c top falling).1 = c - 1 ∧ (timerStep 1 c top falling).2.2 = false) ∧
  (∀ c top, c + 1 < top → top < 2 ^ 32 → timerStep 2 c top false = (c + 1, false, false)) ∧
  (∀ c, c + 1 < 2 ^ 32 → timerStep 2 c (c + 1) false = (c + 1, true, false)) ∧
  (∀ c top, 1 < c → c ≤ top → top < 2 ^ 32 → timerStep 2 c top true = (c - 1, true, false)) ∧
  (∀ top, timerStep 2 1 top true = (0, false, true)) ∧
  (∀ (x : Timers) (n : Nat), x.t.length = 8 → n < 8 →
     (∀ v vt, v < 2 ^ 32 → ((x.writeCnt n v vt).get n).count = v) ∧
     (∀ vt, x.gstartOne n (2 ^ n + 2 ^ (8 + n)) vt = x) ∧
     (x.slave n = true → ∀ v vt, x.gstartOne n v vt = x ∧ x.capture n vt = (x, [])) ∧
     (x.slave n = false →
       (∀ vt, (x.get n).run = false → ((x.gstartOne n (2 ^ n) vt).get n).run = true) ∧
       (∀ vt, (x.get n).run = true → ((x.gstartOne n (2 ^ (8 + n)) vt).get n).run = false) ∧
       (∀ vt, (((x.capture n vt).1).get n).cap = (x.get n).count ∧ (((x.capture n vt).1).get n).capf = true ∧
         (((x.capture n vt).1).get n).capovr = ((x.get n).capovr || (x.get n).capf) ∧ (x.capture n vt).2 = [(16 + n, vt)] ∧
         (x.paired n = true → (((x.capture n vt).1).get (n + 1)).cap = (x.get (n + 1)).count)) ∧
       ((x.readCap n).get n).capf = false))

/-- LINE_FETCH_START, LINE_FETCH_COMPLETE, OPACITY_RESCAN and RAS_OPQ_WRITE (R175 to R178, R193, R202): a line's fetch starts where it
may; a fetched line becomes complete, a blank one is done with; a pending tile is scanned and leaves the list; a write of an opacity
region marks its tiles pending. When RAS_FETCH counts a line is the choice of the model (assumption 21). -/
def Obligations.LineFetches : Prop :=
  (∀ l p r s, l < 256 → (s.lane l).pass p = some r → (s.lane l).canFetch p r = true →
    exec (.lineFetchStart l p) s = .next (s.putLane l ((s.lane l).startFetch p r))) ∧
  (∀ l r f s, l < 256 → (s.lane l).pass .tailrace = some r → r.lines.find? (fun f => !f.complete) = some f →
    ∃ A q, exec (.lineFetchComplete l .tailrace) s = .next (s.putLane l A) ∧ A.tail = some q ∧
      q = { (if f.listed then r else r.readGroup (s.lane l).tm f) with
        lines := (r.lines.map (fun f => { f with complete := true })).filter (fun f => decide (f.line < (s.lane l).tm.vact)) } ∧
      A.mem = (s.lane l).mem ∧ A.th = (s.lane l).th ∧ A.unit = (s.lane l).unit) ∧
  (∀ l r f s, l < 256 → (s.lane l).pass .beam = some r → r.lines.find? (fun f => !f.complete) = some f →
    ∃ A, exec (.lineFetchComplete l .beam) s = .next (s.putLane l A) ∧
      A.unit.ras.lines = (r.lines.map (fun f => { f with complete := true })).filter (fun f => decide (f.line < (s.lane l).tm.vact)) ∧
      A.mem = (s.lane l).mem ∧ A.th = (s.lane l).th) ∧
  (∀ l k rest s, l < 256 → (s.lane l).opqPend = k :: rest →
    let bits := Sparse.set (fun _ => false) (s.lane l).opqBits k ((s.lane l).tileOpaque (k / 65536) (k % 65536))
    exec (.opacityRescan l) s = .next (s.putLane l { s.lane l with opqPend := rest, opqBits := bits })) ∧
  (∀ l j v s, l < 256 → j < 2 → (s.lane l).phase ≠ .stopped → (s.lane l).queue = [] →
    ∃ A, exec (.rasOpqWrite l j v) s = .next (s.putLane l A) ∧ A.mem = (s.lane l).mem ∧ A.th = (s.lane l).th ∧
      ∀ k, k ≤ bits v 32 16 → k + 65536 * j ∈ A.opqPend)

/-- DOT_COMPOSE (R181, R228): with the line fetched and the pass ready for the dot, the dots of the pass are composed; the faults of the
composition are counted against the lane. POINT_B_READ and SLICE_CLOSE (R229, R252, R334): point B reads what has been composed; a slice
that point B has read closes: its blocks that changed in the frame become dirty for every viewer of the lane, and a difference between the
two CRCs of the slice is a fault of the lane's unit. -/
def Obligations.PictureComposed : Prop :=
  (∀ l p r f s, l < 256 → (s.lane l).pass p = some r →
     r.lines.find? (fun f => f.complete && decide (f.frame = r.cf) && decide (f.line = r.cl)) = some f →
     (s.lane l).canCompose p r (r.nextVt (s.lane l).tm) = true → (s.lane l).frameFree p r = true →
     exec (.dotCompose l p) s =
       .next ((s.putLane l ((s.lane l).compose l p r f).1).mismatch l ((s.lane l).compose l p r f).2)) ∧
  (∀ l s, l < 256 → (s.lane l).phase = .running →
    (s.lane l).unit.ras.composed (s.lane l).enc.bf (s.lane l).enc.bl (s.lane l).enc.bx = true → (s.lane l).enc.sf = (s.lane l).enc.bf →
    exec (.pointBRead l) s =
      .next ((s.lane l).pointB.2.foldl (fun s d => s.pointFault l d) (s.putLane l (s.lane l).pointB.1))) ∧
  (∀ l tm s, l < 256 → (s.lane l).phase = .running →
    let L := s.lane l
    let e := L.enc
    (e.sf < e.bf ∨ (e.sf = e.bf ∧ 16 * (e.sl + 1) ≤ e.bl)) → ((s.half (halfOf l)).viewersOf l) = [] → L.withheld = true →
    Sparse.get crcReset e.crcA e.sl = Sparse.get crcReset e.crcB e.sl →
    exec (.sliceClose l tm) s = .next ((s.at tm).putLane l { L with enc := e.closed L.tm })) ∧
  (∀ l tm s, l < 256 → (s.lane l).phase = .running →
    let L := s.lane l
    let e := L.enc
    let a := Sparse.get crcReset e.crcA e.sl
    let b := Sparse.get crcReset e.crcB e.sl
    (e.sf < e.bf ∨ (e.sf = e.bf ∧ 16 * (e.sl + 1) ≤ e.bl)) →
    ∃ u, exec (.sliceClose l tm) s = .next (if a = b then u else u.pointFault l (a ^^^ b)) ∧ (u.lane l).enc = e.closed L.tm ∧
      ∀ v x, (s.half (halfOf l)).viewer v = some x → x.lane = l → ∃ y, (u.half (halfOf l)).viewer v = some y ∧
        ∀ c, c < L.bx → L.chg (128 * e.sl + c) = e.sf → (Sparse.get blockFresh y.blocks (128 * e.sl + c)).dirty = true)

/-- TAP_FRAME_END, OVERLAY_COPY, CPS_COMMIT_REQ and CPS_TAP_IDX_WRITE (R230, R236, R238, R247, R248): a recorded frame is closed and the
count WR rises by one modulo 2^32; the display copy is copied into staging; a commit request is held with its dot; the host's RD is
stored, and WR stays. -/
def Obligations.OperatorSide : Prop :=
  (∀ l t s, l < 256 → (s.lane l).op.tapDone = some t →
    ∃ A, exec (.tapFrameEnd l) s = .next (s.putLane l A) ∧ A.op.tapDone = none ∧
      bits (A.op.reg 0x18808) 0 32 = (bits ((s.lane l).op.reg 0x18808) 0 32 + 1) % 2 ^ 32 ∧ A.unit = (s.lane l).unit ∧
      A.mem = (s.lane l).mem ∧ A.th = (s.lane l).th) ∧
  (∀ l s, l < 256 → (s.lane l).op.copying = true →
    let o : Operator := { (s.lane l).op with staging := (s.lane l).op.display, copying := false }
    exec (.overlayCopy l) s = .next (s.putLane l { s.lane l with op := o })) ∧
  (∀ l v vt s, l < 256 → (s.lane l).phase ≠ .stopped → (s.lane l).queue = [] →
    ∃ A, exec (.cpsCommitReq l v vt) s = .next (s.putLane l A) ∧
      A = (s.lane l).storeRas { thread := 0, stamp := vt, off := 0x10020, width := 4, data := v.toNat, read := false, applied := false } vt ∧
      (v.toNat.testBit 0 = true → vt ∈ A.unit.ras.reqs) ∧ A.mem = (s.lane l).mem ∧ A.th = (s.lane l).th) ∧
  (∀ l v s, l < 256 → (s.lane l).phase ≠ .stopped →
    ∃ A, exec (.cpsTapIdxWrite l v) s = .next (s.putLane l A) ∧ bits (A.op.reg 0x18808) 32 32 = bits v 32 32 ∧
      bits (A.op.reg 0x18808) 0 32 = bits ((s.lane l).op.reg 0x18808) 0 32 ∧ A.unit = (s.lane l).unit ∧ A.mem = (s.lane l).mem)

/-- BLT_START, BLT_GROUP and BLT_END (R82, R89, R255, R256, R260, R263, R264, R268): a write of BLT_CTL with START that the queue does not
hold acts as the register does; a group that can be done is done, the cached lines of the bytes it may write invalidated first; an
operation whose groups are done ends, with no operation left in progress. SOUND_FETCH_START and SOUND_TICK (R89, R270 to R278), and the
writes of SND_GATE_SET, SND_GATE_CLR, SND_RETRIG and SND_ECHO_CTL that the queue does not hold (R281, R288): the line's requests are
fetched where they may be, the next tick is computed, the cached lines of what its echo writes invalidated first, and a write acts as that
of its register does. That such a write acts by itself is the choice of the model (assumption 30). -/
def Obligations.BlitterAndSound : Prop :=
  (∀ l v vt s, l < 256 → (s.lane l).phase ≠ .stopped → (s.lane l).queue = [] → v.toNat.testBit 0 = true →
    exec (.bltStart l v vt) s = .next (s.putLane l ((s.lane l).storeSmall 0 vt vt 0x33000 v.toNat))) ∧
  (∀ l o s, l < 256 → (s.lane l).unit.blt = some o → (s.lane l).canGroup o = true →
    let t := s.dropWritten l o.lineOf.1 o.lineOf.2
    let q := (t.lane l).bltGroup l (s.title l) o
    exec (.bltGroup l) s = .next ((t.putLane l q.1).ckptLost l q.2)) ∧
  (∀ l o s, l < 256 → (s.lane l).unit.blt = some o → (s.lane l).bltOver o = true →
    let q := (s.lane l).bltEnd o
    exec (.bltEnd l) s = .next ((s.putLane l q.1).ckptLost l q.2) ∧ q.1.unit.blt = none ∧ q.1.th = (s.lane l).th) ∧
  (∀ l s, l < 256 → (s.lane l).canSoundFetch = true → exec (.soundFetchStart l) s = .next (s.putLane l (s.lane l).soundFetch)) ∧
  (∀ l f s, l < 256 → (s.lane l).tickLine = some f → (s.lane l).canTick (s.title l) = true →
    let t := if echoOn (s.lane l).unit.reg then s.dropWritten l (s.lane l).echoAt 4 else s
    let q := (t.lane l).tickNow l (s.title l) f
    exec (.soundTick l) s = .next ((t.putLane l q.1).ckptLost l q.2)) ∧
  (∀ l (v : BitVec 64) s, l < 256 → (s.lane l).phase ≠ .stopped → (s.lane l).queue = [] →
    let L := s.lane l
    let W (off : Nat) : State := s.putLane l
      (L.store { thread := 0, stamp := L.bvt, off := off, width := 8, data := v.toNat, read := false, applied := false } L.bvt)
    exec (.sndGateSet l v) s = .next (W 0x21050) ∧ exec (.sndGateClr l v) s = .next (W 0x21058) ∧
      exec (.sndRetrig l v) s = .next (W 0x21010) ∧ exec (.sndEchoCtlWrite l v) s = .next (W 0x21040))

/-- The audio commands (R29, R31, R271, R296, R302, R304, R310, R311, R343, R439): weir 0 takes the sound unit's oldest sample and weir 1
+ p the next decoded one of slot p; a stream sample is mixed once no node's wait is over and no coder queue is full; a node that waited
too long falls back and is counted; 480 samples of an output make an Opus frame; the oldest frame of an output goes to each viewer that
hears it; an announcement is read as far as it is written. Where the taps of a weir lie is the choice of the model (assumption 48). -/
def Obligations.AudioRuns : Prop :=
  (∀ l x rest s, l < 256 → (s.lane l).phase ≠ .stopped → (s.lane l).phase ≠ .starting → (s.lane l).audio.handoff = x :: rest →
    let a : Audio := { (s.lane l).audio with handoff := rest }
    let A : Lane := { s.lane l with audio := a }
    exec (.weirInput l 0) s = .next (s.putLane l (A.feed 0 { vt := x.vt, ch := [x.mainL, x.mainR, x.echoL, x.echoR] }))) ∧
  (∀ l p s, l < 256 → p < 4 → (s.lane l).phase ≠ .stopped → (s.lane l).phase ≠ .starting →
    exec (.weirInput l (p + 1)) s = .next (s.putLane l ((s.lane l).feedVoice l p))) ∧
  (∀ l s, l < 256 → (s.lane l).phase ≠ .stopped → (s.lane l).phase ≠ .starting →
    (∀ k, k < 48 → (Sparse.get nodeReset (s.lane l).audio.nodes k).timedOut = false) →
    (∀ o, o < 5 → (Sparse.get asmReset (s.lane l).audio.asm o).length < 1024) →
    let L := s.lane l
    let w := L.unit.reg 0x38078
    let modes := (List.range 6).map (fun o => bits (L.unit.reg (0x38040 + 4 * o)) 0 2)
    let a := L.audio.streamSample (L.rate 0) modes (bits w 0 15) (bits w 16 8)
    exec (.streamSample l) s = .next (s.putLane l { L with audio := a })) ∧
  (∀ l o k s, l < 256 → o < 6 → k < 8 → (Sparse.get nodeReset (s.lane l).audio.nodes (8 * o + k)).timedOut = true →
    ∃ A, exec (.nodeTimeout l o k) s = .next (s.putLane l A) ∧ A.audio.timeouts = min ((s.lane l).audio.timeouts + 1) 65535 ∧
      Sparse.get nodeReset A.audio.nodes (8 * o + k) = (Sparse.get nodeReset (s.lane l).audio.nodes (8 * o + k)).fallBack ∧
      (∀ j, j ≠ 8 * o + k → Sparse.get nodeReset A.audio.nodes j = Sparse.get nodeReset (s.lane l).audio.nodes j)) ∧
  (∀ l o s, l < 256 → o < 5 → 480 ≤ (Sparse.get asmReset (s.lane l).audio.asm o).length →
    exec (.opusFrameEncode l o) s = .next (s.putLane l
      ((s.lane l).encodeOpus l o (((s.half (halfOf l)).viewersOf l).any (fun p => p.2.hears o))))) ∧
  (∀ l o tm f s, l < 256 → o < 5 → (s.lane l).audio.ready.find? (fun f => decide (f.output = o)) = some f →
    let L := s.lane l
    let h := halfOf l
    let u := (s.at tm).putLane l { L with audio := { L.audio with ready := L.audio.ready.erase f } }
    exec (.audioSend l o tm) s = .next (((s.half h).viewersOf l).foldl (fun u p =>
      if p.2.hears o then
        u.putHalf h ((u.half h).putViewer p.1 (some (p.2.build u.time 2 0 L.frameNow 0xFFFF (audioPayload f))))
      else u) u)) ∧
  (∀ l wr data s, l < 256 → (s.lane l).phase ≠ .stopped → (s.lane l).audio.ann.on = true →
    let a := (s.lane l).audio.ann
    let n := min (min ((wr + 2 ^ 32 - a.rd) % 2 ^ 32) data.length) 960 / 4 * 4
    ∃ t, exec (.announceRead l wr data) s = .next t ∧ (t.lane l).audio.ann.rd = (a.rd + n) % 2 ^ 32 ∧
      (t.lane l).audio.ann.queue.length = a.queue.length + n / 4 ∧
      t.out = .hostWrite (halfOf l) (a.addr + 4) (leBytes 4 ((a.rd + n) % 2 ^ 32)) :: s.out)

/-- PAD_INPUT_APPLY, ACCESSORY_APPLY, VIEWER_CHANGE_APPLY and NOTIFY_APPLY (R48, R308, R363, R378, R380, R436): the next logged input of
the kind takes effect at its VT and is marked as applied. What a pad input leaves in the registers of its slot (R380, R381): the buttons,
the triggers, the sticks, and CHANGE 1. -/
def Obligations.LaneInputs : Prop :=
  (∀ l i s, l < 256 → (s.lane l).canInput i = true →
     let L := s.lane l
     (L.nextInput 1 = some i → exec (.padInputApply l) s = .next (s.putLane l ((L.tookInput i).applyPad i))) ∧
     (L.nextInput 2 = some i → exec (.accessoryApply l) s = .next (s.putLane l ((L.tookInput i).applyAcc i))) ∧
     (L.nextInput 3 = some i → exec (.viewerChangeApply l) s = .next (s.putLane l ((L.tookInput i).applyViewers i))) ∧
     (L.nextInput 7 = some i → exec (.notifyApply l) s = .next (s.putLane l ((L.tookInput i).applyNotify i)))) ∧
  (∀ (L : Lane) (i : LaneInput), i.slot < 4 →
     let A := L.applyPad i
     let o := 0x32000 + 0x20 * i.slot
     A.unit.reg o = w64 (leAt i.data 0 3) ∧ A.unit.reg (o + 4) = w64 (leAt i.data 12 4) ∧ A.unit.reg (o + 8) = w64 (leAt i.data 4 8) ∧
       A.unit.reg (o + 0x10) = 1 ∧ A.mem = L.mem ∧ A.th = L.th ∧ A.unit.ras = L.unit.ras)

/-- The checkpoint commands (R394 to R399, R403): a thread at the boundary is captured there, the next page of near SRAM is copied, the
lane unit's record is written, a complete checkpoint becomes good 20 µs later where no fault has been reported, and a rolled-back lane is
restored from the good checkpoint that was its newest at the fault, with its cached lines dropped, the rollback counted and its event
sent; one that comes back paused loses its refresh lock, and in a drain it freezes again. A good checkpoint restores what it captured
(R394, R401, R403): the lane's memory, the contexts of the threads, the picture units and the beam's queue, with BVT at the boundary of
the checkpoint; a thread keeps its slots, and what the lane logged since is known again. -/
def Obligations.CheckpointsAndRestore : Prop :=
  (∀ l t f s, l < 256 → t < 4 → (s.lane l).captureAt t = some f → (s.lane l).phase ≠ .stopped → (s.lane l).phase ≠ .rolling →
    exec (.contextCapture l t) s = .next (s.putLane l (((s.lane l).capture t f).sealCkpt s.time))) ∧
  (∀ l f s, l < 256 → (s.lane l).nearNext = some f → (s.lane l).captures = true →
    ∃ A, exec (.nearSramPageCopy l) s = .next (s.putLane l A) ∧ A.near = (if (s.lane l).near < 64 then (s.lane l).near + 1 else 1) ∧
      A.nearAt = f + 1 ∧ A.mem = (s.lane l).mem ∧ A.th = (s.lane l).th) ∧
  (∀ l c s, l < 256 → (s.lane l).lastCkpt = some c → c.recorded = false → (s.lane l).captures = true →
    ∃ A d, exec (.laneUnitStateRecord l) s = .next (s.putLane l A) ∧ A.lastCkpt = some d ∧ d.recorded = true ∧ d.vt = c.vt ∧
      A.mem = (s.lane l).mem ∧ A.th = (s.lane l).th) ∧
  (∀ l tm c t s, l < 256 → ((s.lane l).sealCkpt (s.at tm).time).lastCkpt = some c → c.completeAt = some t →
    (s.half (halfOf l)).sp.spRestart = false → t + 20000 ≤ (s.at tm).time → c.good = false → c.mem.isSome = true →
    (s.lane l).captures = true →
    (s.at tm).faultSince l t = false →
    ∃ A d, exec (.checkpointGood l tm) s = .next ((s.at tm).putLane l A) ∧ A.lastCkpt = some d ∧ d.good = true ∧ d.vt = c.vt) ∧
  (∀ l tm r c s, l < 256 → (s.lane l).roll = some r → (s.lane l).targetCkpt = some c → (s.lane l).phase = .rolling → r.restored = false →
    (s.half (halfOf l)).sp.spRestart = false →
    let u := (s.at tm).dropAllLines l
    let w := u.putHalf (halfOf l) { u.half (halfOf l) with sp := (u.half (halfOf l)).sp.moved l }
    let d := (s.half (halfOf l)).drain
    let A := ((s.lane l).restore c r).rescan
    let B := if d.lanes.contains l then A.drainAgain d.buffersOver else A
    let x := if r.pauseAfter then (w.putLane l B).unlock l else w.putLane l B
    exec (.restoreComplete l tm) s =
      .next ((x.lifeAdd (halfOf l) 0x40 8 1).event (halfOf l) 0x0005 l (c.frame % 2 ^ 32) (c.frame % 2 ^ 32))) ∧
  (∀ (L : Lane) (c : Checkpoint) (r : Rollback),
     let A := L.restore c r
     A.bvt = c.vt ∧ A.mem = c.mem.getD L.mem ∧ A.queue = c.queue ∧ A.cross = c.cross ∧ A.unit.ras = c.unit.ras ∧
       A.unit.snd = c.unit.snd ∧ A.unit.lic = c.unit.lic ∧ A.unit.tim = c.unit.tim ∧ A.log = [] ∧ A.late = false ∧
       (∀ t, t < 4 → let x := Sparse.get threadInit c.threads t
         (A.thread t).g = x.g ∧ (A.thread t).f = x.f ∧ (A.thread t).pc = x.pc ∧ (A.thread t).vt = x.vt ∧ (A.thread t).frames = x.frames ∧
           (A.thread t).ie = x.ie ∧ (A.thread t).level = x.level ∧ (A.thread t).fcsr = x.fcsr ∧ (A.thread t).scratch = x.scratch ∧
           (A.thread t).slots = (L.thread t).slots))

/-- DATAGRAM_TRANSMIT, LATE_TX_DISCARD, TIMING_REPORT, MOVE_REPEAT and LEAVE_REPEAT (R319, R344 to R346, R371): the viewer's first
datagram goes out once its bucket holds the bytes of its frame, which it then loses; a flow whose next SEQ is 0xFFFF_FFFE sends LEAVE with
reason 3 instead; a datagram held for longer than a frame period is discarded and counted, and where it was the second LEAVE the flow
ends; TIMING is built for a joined viewer; MOVE is repeated 5 ms after the last; the second LEAVE goes out 1 ms after the first and ends
the flow, or waits where the bucket does not hold it; one of an exhausted flow makes way for LEAVE with reason 3. That LEAVE waits in the
bucket is read from R371 by inference (assumption 86). -/
def Obligations.Transmission : Prop :=
  (∀ h v tm x y i rest s, v < 2048 → (s.half h).viewer v = some x → x.items = i :: rest →
    let u := s.at tm
    (x.pace = 0 ∨ i.stale (s.lane x.lane) u.time = false) → (x.exhausted = false ∨ x.state = 3) →
    x.pays u.time i.payload.length = some y →
    exec (.datagramTransmit h v tm) s =
      .next (u.leftBy h v (({ y with items := rest } : Viewer).push h i.type i.flags i.frame i.slice (i.stamped u.time)))) ∧
  (∀ h v tm x i rest s, v < 2048 → (s.half h).viewer v = some x → x.items = i :: rest →
    let u := s.at tm
    (x.pace = 0 ∨ i.stale (s.lane x.lane) u.time = false) → x.exhausted = true → x.state ≠ 3 →
    exec (.datagramTransmit h v tm) s = .next (u.sentBy h v (x.leave h u.time (s.lane x.lane).frameNow 3))) ∧
  (∀ (x : Viewer) tm n, x.pace ≠ 0 → (x.flow.frameBytes n * 8000 ≤ x.bucketNow tm →
      ∃ y, x.pays tm n = some y ∧ y.bucket + x.flow.frameBytes n * 8000 = x.bucketNow tm ∧ y.bucketAt = tm ∧ y.flow = x.flow) ∧
    (x.bucketNow tm < x.flow.frameBytes n * 8000 → x.pays tm n = none)) ∧
  (∀ h v tm x i rest s, v < 2048 → (s.half h).viewer v = some x → x.items = i :: rest → x.pace ≠ 0 →
    i.stale (s.lane x.lane) (s.at tm).time = true → (∀ r n a, x.rep ≠ .leave r n a) →
    ∃ t, exec (.lateTxDiscard h v tm) s = .next t ∧ (t.half h).viewer v = some { x with items := rest } ∧
      (t.half h).net.lateTx = min ((s.half h).net.lateTx + 1) (2 ^ 32 - 1) ∧ t.half (HalfId.peer h) = s.half (HalfId.peer h) ∧ t.out = s.out) ∧
  (∀ h v tm x i rest r n a s, v < 2048 → (s.half h).viewer v = some x → x.items = i :: rest → x.pace ≠ 0 →
    i.stale (s.lane x.lane) (s.at tm).time = true → x.rep = .leave r n a →
    let H := s.half h
    let u := (s.at tm).putHalf h { H with net := { H.net with lateTx := min (H.net.lateTx + 1) (2 ^ 32 - 1) } }
    exec (.lateTxDiscard h v tm) s = .next (
      if n = 0 then (u.putHalf h ((u.half h).putViewer v (some { x with items := rest }))).endFlow h v
      else u.putHalf h ((u.half h).putViewer v (some { x with items := rest, rep := .leave r 1 u.time })))) ∧
  (∀ h v tm x s, v < 2048 → (s.half h).viewer v = some x → x.state = 1 →
    ∃ t y i, exec (.timingReport h v tm) s = .next t ∧ (t.half h).viewer v = some y ∧ y.items = x.items ++ [i] ∧ i.type = 4 ∧
      i.payload = (s.at tm).timingPayload x.lane 0 0 0 0 ∧ y.timingAt = (s.at tm).time ∧ y.flow = x.flow ∧
      t.half (HalfId.peer h) = s.half (HalfId.peer h) ∧ t.out = s.out) ∧
  (∀ h v tm x p last s, v < 2048 → (s.half h).viewer v = some x → x.state = 1 → x.rep = .move p last → last + 5000000 ≤ (s.at tm).time →
    let now := (s.lane x.lane).frameNow
    exec (.moveRepeat h v tm) s =
      .next ((s.at tm).sentBy h v (({ x with rep := .move p (s.at tm).time } : Viewer).send h (s.at tm).time now 5 0 now 0xFFFF p))) ∧
  (∀ h v tm x r last s, v < 2048 → (s.half h).viewer v = some x → x.rep = .leave r 1 last → last + 1000000 ≤ (s.at tm).time →
    let u := s.at tm
    let now := (s.lane x.lane).frameNow
    (x.exhausted = true → r ≠ 3 →
      exec (.leaveRepeat h v tm) s = .next (u.sentBy h v (({ x with state := 0 } : Viewer).leave h u.time now 3))) ∧
    (∀ y, (x.exhausted = false ∨ r = 3) → x.pays u.time 4 = some y →
      exec (.leaveRepeat h v tm) s = .next ((u.sentBy h v (y.push h 6 0 now 0xFFFF (leBytes 2 r ++ [0, 0]))).endFlow h v)) ∧
    ((x.exhausted = false ∨ r = 3) → x.pays u.time 4 = none → exec (.leaveRepeat h v tm) s = .next (u.putHalf h ((u.half h).putViewer v
      (some (({ x with rep := .leave r 0 last } : Viewer).build u.time 6 0 now 0xFFFF (leBytes 2 r ++ [0, 0])))))))

/-- ACK, INPUT and ACCESSORY (R338, R350, R351, R361, R366, R378): an ACK updates the viewer's round-trip time and blocks; an INPUT whose
pad state differs from the slot's last one, and an ACCESSORY that differs from the viewer's last, enter the lane's log with their VT. -/
def Obligations.ClientMessages : Prop :=
  (∀ h rx tm o v x fl p s, (s.at tm).hears h rx 0x81 o v x fl p →
    ∃ t, exec (.ack h rx tm) s = .next t ∧ (t.half o).viewer v = some ((x.noted fl ((s.at tm).time)).acked (s.lane x.lane) ((s.at tm).time) p) ∧
      (∀ w, w ≠ v → (t.half o).viewer w = (s.half o).viewer w) ∧ (t.half o).lanes = (s.half o).lanes ∧
      t.half (HalfId.peer o) = s.half (HalfId.peer o) ∧ t.out = s.out) ∧
  (∀ h rx tm o v x fl p s, (s.at tm).hears h rx 0x83 o v x fl p → x.mayInput = true →
    padState p ≠ Sparse.get padZero (s.lane x.lane).lastPads x.slot →
    ∃ t i, exec (.input h rx tm) s = .next t ∧ i ∈ (t.lane x.lane).inputs ∧ i.kind = 1 ∧ i.slot = x.slot ∧
      i.vt = (s.lane x.lane).inputVt ∧ i.data = padState p ∧ i.applied = false ∧
      Sparse.get padZero (t.lane x.lane).lastPads x.slot = padState p ∧
      (t.lane x.lane).mem = (s.lane x.lane).mem ∧ (t.lane x.lane).th = (s.lane x.lane).th ∧ (t.lane x.lane).queue = (s.lane x.lane).queue) ∧
  (∀ h rx tm o v x fl p s, (s.at tm).hears h rx 0x83 o v x fl p → x.mayInput = true →
    padState p = Sparse.get padZero (s.lane x.lane).lastPads x.slot →
    ∃ t y, exec (.input h rx tm) s = .next t ∧ (t.half o).viewer v = some y ∧ y.shown = leAt p 16 4 ∧ y.flow = fl ∧
      (t.half o).lanes = (s.half o).lanes ∧ t.half (HalfId.peer o) = s.half (HalfId.peer o) ∧ t.out = s.out) ∧
  (∀ h rx tm o v x fl p s, (s.at tm).hears h rx 0x84 o v x fl p → x.mayInput = true →
    p ≠ Sparse.get accZero (s.lane x.lane).lastAcc v →
    ∃ t i, exec (.accessory h rx tm) s = .next t ∧ i ∈ (t.lane x.lane).inputs ∧ i.kind = 2 ∧ i.slot = x.slot ∧
      i.vt = (s.lane x.lane).inputVt ∧ i.data = p ++ Sparse.get accZero (s.lane x.lane).lastAcc v ∧ i.applied = false ∧
      Sparse.get accZero (t.lane x.lane).lastAcc v = p ∧
      (t.lane x.lane).mem = (s.lane x.lane).mem ∧ (t.lane x.lane).th = (s.lane x.lane).th)

/-- REFRESH and VOICE (R309, R310, R372 to R375): the entries of the pacing viewer's REFRESH steer its lane, another viewer's are
discarded; a VOICE packet of a slot that is not muted, newer than the last decoded and not yet held enters the slot's store, which is
brought back to 60 ms (which packets go is the model's choice, log entry 83). The refresh lock (R374, R375): where the pacing viewer's
period differs by more than 5,000 ppm an unlocked lane stays unlocked; the 60th good entry in a row locks it, and the 8th bad one in a row
of a locked lane returns it to LOCK 1. -/
def Obligations.RefreshAndVoice : Prop :=
  (∀ h rx tm o v x fl p s, (s.at tm).hears h rx 0x82 o v x fl p →
    let w := (s.at tm).noted o v x fl
    let n := s.netLane x.lane
    exec (.refresh h rx tm) s = .next (if n.pen = true ∧ n.pacer = v ∧ x.state = 1 then
      (List.range (leAt p 0 1)).foldl (fun s i => s.refreshEntry o v x.lane (slice p (4 + 16 * i) 16)) w else w)) ∧
  (∀ h rx tm o v x fl p s, (s.at tm).hears h rx 0x85 o v x fl p → x.mayInput = true →
    let d := Sparse.get voiceDecReset (s.lane x.lane).audio.voices x.slot
    let q := rxHead rx.udp
    let seq : Int := if q.epoch = fl.epoch then (q.seq : Int) else (q.seq : Int) - 2 ^ 32
    (s.lane x.lane).audio.muted.getD x.slot true = false → (∀ q, d.lastSeq = some q → q < seq) → (∀ q ∈ d.store, q.seq ≠ seq) →
    ∃ t e, exec (.voice h rx tm) s = .next t ∧ (Sparse.get voiceDecReset (t.lane x.lane).audio.voices x.slot).store = trimVoice (d.store ++ [e]) ∧
      e.seq = seq ∧ e.data = slice p 4 (leAt p 2 2) ∧ (t.lane x.lane).mem = (s.lane x.lane).mem ∧ (t.lane x.lane).inputs = (s.lane x.lane).inputs) ∧
  (∀ (k : Lock) (L : Lane) (lead delta : Int) (rp time : Nat),
     let n := k.step L lead delta rp time
     let e := halfPeriod (((delta - 1000 * lead : Int) : Rat) / L.period)
     (k.lock = 0 → 5000 < ratAbs (L.entryI0 rp) → n.lock = 0 ∧ n.target = k.target) ∧
     (k.lock = 0 → ratAbs (L.entryI0 rp) ≤ 5000 → n.lock = 1) ∧
     (k.lock = 1 → ratAbs e < 1 / 100 → n.lock = if 59 ≤ k.good then 2 else 1) ∧
     (k.lock = 1 → 1 / 100 ≤ ratAbs e → n.lock = 1 ∧ n.good = 0) ∧
     (k.lock = 2 → 1 / 20 ≤ ratAbs e → n.lock = if 7 ≤ k.bad then 1 else 2) ∧
     (k.lock = 2 → ratAbs e < 1 / 20 → n.lock = 2 ∧ n.bad = 0))

/-- JOIN, PROBE and COMMAND (R321, R344, R353, R354, R356, R361, R419): JOIN binds the flow to its source, joins the viewer, sets PMAX and
asks for a key frame; PROBE is answered by TIMING of KIND 1; a COMMAND packet that is new enters flight from its control flow. What a JOIN
does to waiting datagrams and to the frame in progress is read by inference (assumptions 85 and 87). -/
def Obligations.JoinProbeCommand : Prop :=
  (∀ h rx tm o v x fl p s, (s.at tm).hears h rx 0x86 o v x fl p → (∀ t, x.joinAt = some t → t + 250000000 ≤ (s.at tm).time) →
    ∃ t y, exec (.join h rx tm) s = .next t ∧ (t.half o).viewer v = some y ∧ y.state = 1 ∧ y.flow.bound = some (rx.src, rx.sport) ∧
      y.flow.pmax = (if leAt p 2 2 = 0 then fl.pmaxCmd else max 1024 (min fl.pmaxCmd (leAt p 2 2))) ∧
      y.joinAt = some ((s.at tm).time) ∧ y.lastRx = (s.at tm).time ∧ y.keyDue = x.keyDue ++ [0] ∧ y.lane = x.lane) ∧
  (∀ h rx tm o v x fl p s, (s.at tm).hears h rx 0x86 o v x fl p → (∃ t, x.joinAt = some t ∧ (s.at tm).time < t + 250000000) →
    ∃ t, exec (.join h rx tm) s = .next t ∧ (t.half o).viewer v = some { x with flow := fl } ∧ t.out = s.out ∧
      (t.half o).lanes = (s.half o).lanes) ∧
  (∀ h rx tm o v x fl p s, (s.at tm).hears h rx 0x87 o v x fl p → x.state = 1 →
    ∃ t y i, exec (.probe h rx tm) s = .next t ∧ (t.half o).viewer v = some y ∧ y.items = x.items ++ [i] ∧ i.type = 4 ∧
      i.payload = (s.at tm).timingPayload x.lane 1 (leAt p 0 4) (leAt p 4 8) ((s.at tm).time) ∧ y.lastRx = (s.at tm).time ∧
      (t.half o).lanes = (s.half o).lanes ∧ t.out = s.out) ∧
  (∀ h rx tm o c hd fl p s, (s.at tm).receive h rx = .msg o (.control c) hd fl p → (s.half o).serves = true →
    (∀ k ∈ c.kept, k.1 ≠ p.take 32) → (∀ d ∈ s.cmds, d.src = .control o → d.header ≠ p.take 32) →
    s.cmds.length < 1024 → s.inFlight (.control o) < 256 →
    ∃ n : Control, n = { c with flow := { fl with bound := some (rx.src, rx.sport) } } ∧ ∃ H : Half,
      H = { s.half o with net := { (s.half o).net with control := some n } } ∧
      exec (.command h rx tm) s = .next (((s.at tm).putHalf o H).accept (.control o) (p.take 32) (p.drop 32)))

/-- ARP_REQUEST, NEIGHBOUR_SOLICITATION, GRATUITOUS_ARP, SUBPORT_FAIL, FAILBACK and SUBPORT_LINK_UP (R358, R382, R383, R385): a sub-port
answers for its own addresses and, while it carries the other port's, for those; a failure hands the sub-port over where both ports allow
it; a sub-port that has stayed up for FB seconds takes its work back; the addresses taken over or taken back are announced three times.
RECEIVED_FRAME_DISCARD, VIEWER_IDLE and LOCK_TIMEOUT (R316, R358, R361, R375): a frame that fails a check is counted under its reason and
changes nothing else; a joined viewer that has been silent for IDLE seconds is idle, with an event, unless it has been sent MOVE; a lane
without an accepted entry for a second loses its lock. -/
def Obligations.PortsAndSilence : Prop :=
  (∀ h k (ip : BitVec 32) (mac : BitVec 48) s, k < 4 → ((s.half h).sub k).failed = false → ((s.half h).sub k).ip4.contains (beBytes 4 ip.toNat) = true →
    exec (.arpRequest h k ip mac) s = .next { s with out := .arpReply h k ip.toNat (beNat ((s.half h).sub k).mac) mac.toNat :: s.out }) ∧
  (∀ h k (ip : BitVec 32) (mac : BitVec 48) s, k < 4 → ((s.half h).sub k).carry = true →
    ((s.half (HalfId.peer h)).sub k).ip4.contains (beBytes 4 ip.toNat) = true →
    exec (.arpRequest h k ip mac) s = .next { s with out := .arpReply h k ip.toNat (beNat ((s.half h).sub k).mac) mac.toNat :: s.out }) ∧
  (∀ h k (ip : BitVec 128) (mac : BitVec 48) s, k < 4 → ((s.half h).sub k).failed = false → ((s.half h).sub k).ip6.contains (beBytes 16 ip.toNat) = true →
    exec (.neighbourSolicitation h k ip mac) s =
      .next { s with out := .neighbourAdvert h k ip.toNat (beNat ((s.half h).sub k).mac) mac.toNat :: s.out }) ∧
  (∀ h k (ip : BitVec 128) (mac : BitVec 48) s, k < 4 → ((s.half h).sub k).carry = true →
    ((s.half (HalfId.peer h)).sub k).ip6.contains (beBytes 16 ip.toNat) = true →
    exec (.neighbourSolicitation h k ip mac) s =
      .next { s with out := .neighbourAdvert h k ip.toNat (beNat ((s.half h).sub k).mac) mac.toNat :: s.out }) ∧
  (∀ h k s, k < 4 → (0 < ((s.half h).sub k).announce ∨ 0 < ((s.half h).sub k).back) →
    let p := (s.half h).sub k
    let o := (s.half (HalfId.peer h)).sub k
    let taken := if 0 < p.announce then o.ip4 ++ o.ip6 else []
    let own := if 0 < p.back then p.ip4 ++ p.ip6 else []
    ∃ t, exec (.gratuitousArp h k) s = .next t ∧ t.out = ((taken ++ own).map (fun a => Out.announce h k a)).reverse ++ s.out ∧
      (t.half h).sub k = { p with announce := p.announce - 1, back := p.back - 1 } ∧ t.half (HalfId.peer h) = s.half (HalfId.peer h)) ∧
  (∀ h k tm s, k < 4 →
    let H := s.half h
    let P := s.half (HalfId.peer h)
    let moves := subPorts H.net.mode = subPorts P.net.mode ∧ H.net.foEn = true ∧ P.net.foEn = true ∧ k < subPorts H.net.mode ∧
      (P.sub k).failed = false
    ∃ t, exec (.subportFail h k tm) s = .next t ∧ ((t.half h).sub k).failed = true ∧ ((t.half h).sub k).carry = false ∧
      ((t.half h).sub k).upSince = (s.at tm).time ∧ ((H.sub k).up = false → ((t.half h).sub k).up = false) ∧
      (moves → ((t.half (HalfId.peer h)).sub k).carry = true ∧
        ((P.sub k).carry = false → ((t.half (HalfId.peer h)).sub k).announce = 3)) ∧
      (¬ moves → ((t.half (HalfId.peer h)).sub k).carry = false ∧ ((P.sub k).carry = false → t.half (HalfId.peer h) = P ∧ t.out = s.out))) ∧
  (∀ h k tm s, k < 4 → ((s.half h).sub k).failed = true → ((s.half h).sub k).up = true →
    ((s.half h).sub k).upSince + (s.half h).net.fb * 1000000000 ≤ (s.at tm).time →
    ∃ t, exec (.failback h k tm) s = .next t ∧ ((t.half h).sub k).failed = false ∧ ((t.half h).sub k).back = 3 ∧
      ((t.half (HalfId.peer h)).sub k).carry = false ∧ (t.half (HalfId.peer h)).lanes = (s.half (HalfId.peer h)).lanes) ∧
  (∀ h k tm s, s.runs = true → (s.half h).boot.ports = true → (s.half h).boot.failed = false → (s.half h).boot.ethClk = true →
    (s.half h).sp.down = false → k < subPorts (s.half h).net.mode →
    ((s.half h).sub k).up = false →
    ∃ t, exec (.subportLinkUp h k tm) s = .next t ∧ ((t.half h).sub k).up = true ∧ ((t.half h).sub k).upSince = (s.at tm).time ∧
      t.half (HalfId.peer h) = s.half (HalfId.peer h) ∧ t.out = s.out) ∧
  (∀ h rx tm k s, (s.at tm).receive h rx = .bad k → s.runs = true →
    ∃ t, exec (.receivedFrameDiscard h rx tm) s = .next t ∧
      (∀ j, Sparse.get zeroNat (t.half h).net.rxd j =
        if j = k then min (Sparse.get zeroNat (s.half h).net.rxd k + 1) (2 ^ 64 - 1) else Sparse.get zeroNat (s.half h).net.rxd j) ∧
      (t.half h).net.viewers = (s.half h).net.viewers ∧ (t.half h).lanes = (s.half h).lanes ∧
      t.half (HalfId.peer h) = s.half (HalfId.peer h) ∧ t.cmds = s.cmds ∧ t.out = s.out) ∧
  (∀ h v tm x s, v < 2048 → (s.half h).viewer v = some x → x.rep.moving = true → exec (.viewerIdle h v tm) s = .next (s.at tm)) ∧
  (∀ h v tm x s, v < 2048 → (s.half h).viewer v = some x → x.state = 1 → x.rep.moving = false →
    x.lastRx + (s.half h).net.idle * 1000000000 ≤ (s.at tm).time →
    ∃ y : Viewer, y = { x with state := 2, items := [], selects := false, slotJoined := false } ∧ ∃ u : State,
      u = ((s.at tm).putHalf h ((s.half h).putViewer v (some y))).viewerLeft v x y ∧
      exec (.viewerIdle h v tm) s = .next (u.event h 0x0003 x.lane (u.lane x.lane).frameNow (v + 2048 * halfNo h))) ∧
  (∀ l tm s, l < 256 → (s.netLane l).lock.lock ≠ 0 → (s.netLane l).lock.lastAt + 1000000000 ≤ (s.at tm).time →
    ∃ t, exec (.lockTimeout l tm) s = .next t ∧ t = (s.at tm).unlock l ∧ (t.netLane l).lock.lock = 0 ∧ t.lane l = s.lane l)

/-- The queue pairs and the event ring (R413, R415, R416, R429): a write of SVC_QP_CFG with EN of an idle pair with allowed sizes starts
it at slot 0 with PHASE 1; EN 0 stops it; the doorbells keep the low bits of INDEX; the same for the event ring. SUBMISSION_FETCH and
COMPLETION_WRITE (R410, R414, R417, R418, R423, R424): the next entry of a queue pair is accepted and SQ_HEAD passes it, one that cannot
be read, or whose parameter block cannot, stops the pair; the oldest completed command of the pair leaves with its result and its 16
bytes. -/
def Obligations.QueuePairs : Prop :=
  (∀ h q (v : BitVec 32) s, q < 32 → s.pfUp h = true → ((s.half h).qp q).en = false → v.toNat.testBit 15 = true →
    4 ≤ v.toNat % 16 → v.toNat % 16 ≤ v.toNat / 16 % 16 → v.toNat / 16 % 16 ≤ 12 →
    ∃ t x, exec (.queuePairEnable h q v) s = .next t ∧ (t.half h).qp q = x ∧ x.en = true ∧ x.errCfg = false ∧ x.errDma = false ∧
      x.sqHead = 0 ∧ x.tail = 0 ∧ x.cqHead = 0 ∧ x.slot = 0 ∧ x.phase = true ∧ x.sqlog = v.toNat % 16 ∧ x.cqlog = v.toNat / 16 % 16 ∧
      x.vec = v.toNat / 256 % 64 ∧ x.ien = v.toNat.testBit 14 ∧ (∀ p, p ≠ q → (t.half h).qp p = (s.half h).qp p) ∧ t.cmds = s.cmds) ∧
  (∀ h q (v : BitVec 32) s, q < 32 → s.pfUp h = true → ((s.half h).qp q).en = false → v.toNat.testBit 15 = true →
    (v.toNat / 16 % 16 < v.toNat % 16 ∨ v.toNat % 16 < 4 ∨ 12 < v.toNat % 16 ∨ v.toNat / 16 % 16 < 4 ∨ 12 < v.toNat / 16 % 16) →
    ∃ t, exec (.queuePairEnable h q v) s = .next t ∧ ((t.half h).qp q).en = false ∧ ((t.half h).qp q).errCfg = true) ∧
  (∀ h q (v : BitVec 32) s, q < 32 → s.pfUp h = true → v.toNat.testBit 15 = false →
    ∃ t, exec (.queuePairDisable h q v) s = .next t ∧ ((t.half h).qp q).en = false ∧
      (((s.half h).qp q).en = true → ∀ c ∈ t.cmds, c.src = .ring h q → c.discard = true ∧ c.reply = none)) ∧
  (∀ h q (v : BitVec 32) s, q < 32 → s.pfUp h = true →
    ∃ t u, exec (.sqTailWrite h q v) s = .next t ∧ (t.half h).qp q = { (s.half h).qp q with tail := ringIndex ((s.half h).qp q).sqlog v.toNat } ∧
      exec (.cqHeadWrite h q v) s = .next u ∧ (u.half h).qp q = { (s.half h).qp q with cqHead := ringIndex ((s.half h).qp q).cqlog v.toNat }) ∧
  (∀ h (v : BitVec 32) s, s.pfUp h = true → (s.half h).ev.en = false → v.toNat.testBit 15 = true → 4 ≤ v.toNat / 16 % 16 → v.toNat / 16 % 16 ≤ 12 →
    ∃ t, exec (.eventRingEnable h v) s = .next t ∧ (t.half h).ev.en = true ∧ (t.half h).ev.errCfg = false ∧ (t.half h).ev.head = 0 ∧
      (t.half h).ev.slot = 0 ∧ (t.half h).ev.phase = true ∧ (t.half h).ev.buf = (s.half h).ev.buf ∧ (t.half h).ev.eseq = (s.half h).ev.eseq) ∧
  (∀ h (v : BitVec 32) s, s.pfUp h = true →
    ∃ t, exec (.evHeadWrite h v) s = .next t ∧ (t.half h).ev = { (s.half h).ev with head := ringIndex (s.half h).ev.cqlog v.toNat }) ∧
  (∀ h q entry params tm s, q < 32 → s.pfUp h = true → (s.half h).serves = true → (s.half h).boot.ready = true →
    let x := (s.half h).qp q
    x.en = true → x.errDma = false → x.sqHead ≠ x.tail → s.cmds.length < 1024 → s.inFlight (.ring h q) < 2 ^ x.sqlog →
    let u := (s.at tm).putQp h q { x with sqHead := ringIndex x.sqlog (x.sqHead + 1) }
    let r := exec (.submissionFetch h q entry params tm) s
    (entry = none → r = .next ((s.at tm).putQp h q { x with errDma := true })) ∧
    (∀ e : Bytes, entry = some e → e.length = 64 →
      let b := e.take 32
      (hPlen b ≤ 32 → r = .next (u.accept (.ring h q) b (slice e 32 (hPlen b)))) ∧
      (32 < hPlen b → hPlen b ≤ 4096 → params = none → r = .next ((s.at tm).putQp h q { x with errDma := true })) ∧
      (∀ p : Bytes, 32 < hPlen b → params = some p → p.length = hPlen b → hPlen b ≤ 4096 → r = .next (u.accept (.ring h q) b p)) ∧
      (4096 < hPlen b → r = .next (u.accept (.ring h q) b [])))) ∧
  (∀ h q tm c r s, q < 32 → s.pfUp h = true → (s.half h).serves = true →
    let x := (s.half h).qp q
    x.en = true → x.ien = false → ringFull x.cqlog x.slot x.cqHead = false → s.completed h q = some (c, r) → (r.result.take c.rmax).isEmpty = true →
    ∃ t, exec (.completionWrite h q true tm) s = .next t ∧
      t.out = .hostWrite h (x.cqBase.toNat + 16 * x.slot) (completionEntry x q c r r.status r.detail) :: s.out ∧
      t.cmds = s.cmds.filter (fun d => !decide (d.id = c.id)) ∧ ((t.half h).qp q).slot = (nextSlot x.cqlog x.slot x.phase).1 ∧
      ((t.half h).qp q).phase = (nextSlot x.cqlog x.slot x.phase).2 ∧ (t.half h).lanes = (s.half h).lanes) ∧
  (∀ h q tm c r s, q < 32 → s.pfUp h = true → (s.half h).serves = true →
    let x := (s.half h).qp q
    x.en = true → x.ien = false → ringFull x.cqlog x.slot x.cqHead = false → s.completed h q = some (c, r) → (r.result.take c.rmax).isEmpty = false →
    (∃ t, exec (.completionWrite h q true tm) s = .next t ∧
      t.out = .hostWrite h (x.cqBase.toNat + 16 * x.slot) (completionEntry x q c r r.status r.detail) ::
        .hostWrite h c.raddr (r.result.take c.rmax) :: s.out) ∧
    (∃ t, exec (.completionWrite h q false tm) s = .next t ∧
      t.out = .hostWrite h (x.cqBase.toNat + 16 * x.slot) (completionEntry x q c r 16 0) :: s.out))

/-- EVENT_RING_WRITE, MSIX_VECTOR_UNMASK, MSIX_DEFERRED_SEND and FUNCTION_LEVEL_RESET (R417, R418, R429, R431, R569): the oldest event of
the buffer is written and leaves it; a pending message goes out when its vector is unmasked and messages are enabled, a due one when its
spacing ends; a function-level reset clears the queue pairs and the vectors and keeps the events that have not been written. The SMBus and
the registers of the host (R4, R409, R410, R413, R420, R541, R569): a packet of the right length with a good PEC is accepted, any other
answered with NACK; a block read gives the oldest reply, or 16 bytes of 0; the alert response address is given while a reply waits; a
write of a register of the queue, service, message and thread windows and of the message control takes effect where its width is the
register's and none else, and a write to a frame-tap window is discarded. -/
def Obligations.EventsAndRegisters : Prop :=
  (∀ h tm e rest s, s.pfUp h = true → (s.half h).serves = true → (s.half h).ev.en = true → (s.half h).ev.ien = false →
    (s.half h).ev.lostPend = false → ringFull (s.half h).ev.cqlog (s.half h).ev.slot (s.half h).ev.head = false → (s.half h).ev.buf = e :: rest →
    let v := (s.half h).ev
    ∃ t, exec (.eventRingWrite h tm) s = .next t ∧ t.out = .hostWrite h (v.base.toNat + 32 * v.slot) (e.bytes v.phase) :: s.out ∧
      (t.half h).ev.buf = rest ∧ (t.half h).ev.slot = (nextSlot v.cqlog v.slot v.phase).1 ∧
      (t.half h).ev.phase = (nextSlot v.cqlog v.slot v.phase).2 ∧ (t.half h).lanes = (s.half h).lanes) ∧
  (∀ h vec tm s, vec < 64 → s.pfUp h = true →
    let v := Sparse.get msixReset (s.half h).msix vec
    ∃ t, exec (.msixVectorUnmask h vec tm) s = .next t ∧ (Sparse.get msixReset (t.half h).msix vec).masked = false ∧
      ((s.half h).msixOpen = true → (Sparse.get msixReset (t.half h).msix vec).pending = false) ∧
      (v.pending = false ∨ (s.half h).msixOpen = false → (Sparse.get msixReset (t.half h).msix vec).pending = v.pending ∧ t.out = s.out) ∧
      (v.pending = true → (s.half h).msixOpen = true → v.lastSent = none → t.out = .msix h vec v.addr v.data :: s.out)) ∧
  (∀ h vec tm s, vec < 64 → s.pfUp h = true →
    let v := Sparse.get msixReset (s.half h).msix vec
    v.due = true → v.masked = false → (s.half h).msixOpen = true → (∀ t, v.lastSent = some t → t + 1000 ≤ (s.at tm).time) →
    ∃ t, exec (.msixDeferredSend h vec tm) s = .next t ∧ t.out = .msix h vec v.addr v.data :: s.out ∧
      (Sparse.get msixReset (t.half h).msix vec).due = false ∧ (Sparse.get msixReset (t.half h).msix vec).lastSent = some ((s.at tm).time)) ∧
  (∀ h s, s.pfUp h = true →
    ∃ t, exec (.functionLevelReset h) s = .next t ∧ (∀ q, (t.half h).qp q = qpReset q) ∧ (∀ k, Sparse.get msixReset (t.half h).msix k = msixReset k) ∧
      (t.half h).msixOpen = false ∧ (t.half h).ev.en = false ∧ (t.half h).ev.buf = (s.half h).ev.buf ∧ (t.half h).ev.eseq = (s.half h).ev.eseq ∧
      (t.half h).lanes = (s.half h).lanes ∧ t.half (HalfId.peer h) = s.half (HalfId.peer h) ∧
      (∀ c ∈ t.cmds, ∀ q, c.src = .ring h q → c.discard = true)) ∧
  (∀ (p : Bytes) tm g s, (s.at tm).smbusHalf = some g → 32 ≤ p.length → p.length = 32 + hPlen p → hPlen p ≤ 32 → s.inFlight .smbus < 4 →
    s.cmds.length < 1024 →
    exec (.smbusBlockWrite p true tm) s = .next ((s.at tm).accept .smbus (p.take 32) (p.drop 32))) ∧
  (∀ (p : Bytes) ok tm g s, (s.at tm).smbusHalf = some g → (ok = false ∨ p.length ≠ 32 + hPlen p ∨ 32 < hPlen p ∨ 4 ≤ s.inFlight .smbus) →
    exec (.smbusBlockWrite p ok tm) s = .next ((s.at tm).emit .smbusNack)) ∧
  (∀ g r rest s, s.smbusHalf = some g → s.smReplies = r :: rest →
    exec .smbusBlockRead s = .next ({ s with smReplies := rest }.emit (.smbus r))) ∧
  (∀ g s, s.smbusHalf = some g → s.smReplies = [] → exec .smbusBlockRead s = .next (s.emit (.smbus (List.replicate 16 0)))) ∧
  (∀ g s, s.smbusHalf = some g → s.smReplies ≠ [] →
    exec .smbusAlertResponse s = .next (s.emit (.smbusAddress (0x58 + (s.half g).pins.strapAddr)))) ∧
  (∀ h w r s, s.pfUp h = true → w.space = .queue h → (s.half h).queueReg w.off = some r →
    (r.1 = w.width → exec (.registerWrite w) s = .next (s.writeQueue h w.off (w.value.toNat % 2 ^ (8 * w.width)))) ∧
    (r.1 ≠ w.width → exec (.registerWrite w) s = .next s)) ∧
  (∀ h w r s, s.pfUp h = true → (s.half h).boot.ready = true → w.space = .svc h → s.svcReg h w.off = some r →
    (r.1 = w.width → exec (.registerWrite w) s = .next (s.writePin h w.off (w.value.toNat % 2 ^ (8 * w.width)))) ∧
    (r.1 ≠ w.width → exec (.registerWrite w) s = .next s)) ∧
  (∀ h w r s, s.pfUp h = true → w.space = .msix h → (s.half h).msixReg w.off = some r →
    (r.1 = w.width → exec (.registerWrite w) s = .next (s.writeMsix h w.off (w.value.toNat % 2 ^ (8 * w.width)))) ∧
    (r.1 ≠ w.width → exec (.registerWrite w) s = .next s)) ∧
  (∀ h w s, s.pfUp h = true → w.space = .msixControl h → w.off = 0 →
    (w.width = 2 → exec (.registerWrite w) s = .next (s.writeMsixControl h (w.value.toNat % 2 ^ 16))) ∧
    (w.width ≠ 2 → exec (.registerWrite w) s = .next s)) ∧
  (∀ l w s, l < 256 → w.space = .tap l → exec (.registerWrite w) s = .next s) ∧
  (∀ l t stamp w d i s, l < 256 → t < 4 → w.space = .thread l t stamp → findReg threadMap w.off = some (d, i) →
    (s.lane l).phase ≠ .stopped → (s.lane l).queue = [] →
    let v := w.value.toNat % 2 ^ (8 * w.width)
    (d.width ≠ w.width → exec (.registerWrite w) s = .next s) ∧
    (d.width = w.width → ∃ e : BeamEntry, e = { thread := t, stamp := stamp, off := w.off, width := w.width, data := v, read := false, applied := false } ∧
      exec (.registerWrite w) s = .next (s.putLane l ((s.lane l).store e (max stamp (s.lane l).bvt)))))

/-- The first check of R422 that a packet fails decides its status, in the order of the rule; a packet that fails none waits, neither
begun nor replied to. The completion of a command in flight (R319, R356, R417, R419, R420, R423, R424): a ring command's reply waits for
its completion entry, an SMBus command's for a read, and a control flow's is sent and kept, or the flow, its numbers used up, ends;
nothing of the lanes changes. -/
def Obligations.PacketsAndReplies : Prop :=
  (∀ (s : State) (src : Source) (b p : Bytes),
     (headerBad b = true → s.checkPacket src b p = some (2, 0)) ∧
     (headerBad b = false → opRow (hOp b) = none → s.checkPacket src b p = some (1, 0)) ∧
     (∀ r, headerBad b = false → opRow (hOp b) = some r → r.lane = true → 256 ≤ hTarget b → s.checkPacket src b p = some (4, 0)) ∧
     (∀ r, headerBad b = false → opRow (hOp b) = some r → r.lane = false → hTarget b ≠ 0xFFFF → hTarget b < 2 ^ 16 → s.checkPacket src b p = some (4, 0)) ∧
     (s.checkPacket src b p = none → ∃ c, (s.accept src b p).cmds = s.cmds ++ [c] ∧ c.id = s.nextCmd ∧ c.begun = false ∧ c.reply = none ∧
       c.opcode = hOp b ∧ c.tag = hTag b ∧ c.target = hTarget b ∧ c.params = p ∧ (s.accept src b p).nextCmd = s.nextCmd + 1)) ∧
  (∀ (s : State) (c : Cmd) (status detail : Nat) (result : Bytes), s.cmd c.id = some c → c.reply = none →
     (∀ h q, c.src = .ring h q → c.discard = false →
       (s.finish c.id status detail result).cmds = s.cmds.filter (fun d => !decide (d.id = c.id)) ++
         [{ c with begun := true, reply := some { status := status, detail := detail, result := result } }]) ∧
     (c.src = .smbus → (s.finish c.id status detail result).cmds = s.cmds.filter (fun d => !decide (d.id = c.id)) ∧
       (s.finish c.id status detail result).smReplies =
         s.smReplies ++ [replyBytes status c.tag result.length (if status = 9 then 2 else 0) detail 0 0 ++ result]) ∧
     (∀ h k, c.src = .control h → (s.half h).net.control = some k → k.flow.bound.isSome = true → 0xFFFFFFFE ≤ k.flow.seq →
       (s.finish c.id status detail result).cmds = s.cmds.filter (fun d => !decide (d.id = c.id)) ∧
       ((s.finish c.id status detail result).half h).net.control = none) ∧
     (∀ h k, c.src = .control h → (s.half h).net.control = some k → (k.flow.bound = none ∨ k.flow.seq < 0xFFFFFFFE) →
       (s.finish c.id status detail result).cmds = s.cmds.filter (fun d => !decide (d.id = c.id)) ∧
       ∃ k', ((s.finish c.id status detail result).half h).net.control = some k' ∧
         k'.kept = ((c.header, replyBytes status c.tag result.length (if status = 9 then 2 else 0) detail 0 0 ++ result, s.time) :: k.kept).take 256) ∧
     (∀ l, (s.finish c.id status detail result).lane l = s.lane l))

/-- A command of R432 that is turned away before its opcode's own checks (R422, R425 to R427, R452, R508, R512): where its half may begin
it and its deadline has passed, the device is safe, its half drains or its half is down, it completes with that status; where it may not
begin, only device time changes. OV_LOAD waits first while the display copy is copied back (R230), and LANE_STOP until the stores and
loads of a running lane are done (R94); a LANE_START whose lane has launched no longer begins (R434). That a command executes whole and
otherwise leaves all but time as it was is the choice of the model (assumptions 7 and 51). -/
def Obligations.CommandGate : Prop :=
  ∀ (i : Instr) (op id tm : Nat) (s : State), opcodeOf i = some (op, id, tm) →
    (op = 0x0303 → ∀ c, s.cmd id = some c → (s.lane c.target).op.copying = false) → (op = 0x0102 → s.stopWaits id = false) →
    (op = 0x0101 → s.startOf id = none) →
    (∀ c h e, (s.at tm).cmd id = some c → (s.at tm).mayBegin c op = some h → (s.at tm).gate c h = some e →
      exec i s = .next ((s.at tm).finish id e.1 e.2 [])) ∧
    (∀ c, (s.at tm).cmd id = some c → (s.at tm).mayBegin c op = none → exec i s = .next (s.at tm)) ∧
    ((s.at tm).cmd id = none → exec i s = .next (s.at tm))

/-- LANE_START, LANE_STOP, LANE_PAUSE, LANE_RESUME, LANE_NOTIFY and LANE_QUERY, and TITLE_COPY_COMPLETE (R62, R63, R94, R392, R427, R432
to R436): what each does once its checks are passed; LANE_STOP waits until the stores and loads of the lane's threads are done, and a
LANE_START whose lane has launched completes once its thread 0 has issued. A lane that has started (R37): it runs, with thread 0 active at
ENTRY, its other threads as the block admitted them, and every g register of thread 0 at 0; its LANE_START has not completed, and waits
for thread 0 to issue. Choices of the model: assumptions 52, 53, 94 and 119. -/
def Obligations.LaneCommands : Prop :=
  (∀ id tm l r s, s.startOf id = some (l, r) →
    let u := s.at tm
    ((s.half (halfOf l)).issued.contains l = true →
      exec (.laneStart id tm) s = .next ((u.putLane l { u.lane l with startCmd := none }).finish id 0 0 r)) ∧
    ((s.half (halfOf l)).issued.contains l = false → exec (.laneStart id tm) s = .next u)) ∧
  (∀ id tm c h t here z s, (s.at tm).starts id 0x0101 c h →
    let u := (s.at tm).entered c
    let l := c.target
    let b := c.params
    s.startOf id = none → (u.lane l).phase = .stopped → blockBad b = none → badTiming b (leAt b 0x15 1) = none → u.findTitle (halfOf l) (leAt b 0 4) = some (t, here) →
    u.admission l b (slotNeeds b) = .ok z →
    ∃ L : Lane, L = { Lane.ofBlock b z t.data.length (u.lane l).draws with pauseCmds := [c.id] } ∧
      exec (.laneStart id tm) s = .next (if here then (u.place l L z).launch l else u.place l L z)) ∧
  (∀ id tm s, s.stopWaits id = true → exec (.laneStop id tm) s = .next (s.at tm)) ∧
  (∀ id tm c h s, (s.at tm).starts id 0x0102 c h → (s.lane c.target).phase ≠ .stopped → s.stopWaits id = false →
    exec (.laneStop id tm) s = .next ((((s.at tm).entered c).stopLane c.target (some c.id)).done c [])) ∧
  (∀ id tm c h s, (s.at tm).starts id 0x0103 c h → (s.lane c.target).phase = .running →
    ∃ t, exec (.lanePause id tm) s = .next t ∧ (t.lane c.target).pauseDue.command = true ∧
      (t.lane c.target).pauseCmds = (s.lane c.target).pauseCmds ++ [c.id] ∧ (t.lane c.target).phase = .running ∧
      (t.lane c.target).mem = (s.lane c.target).mem ∧ (t.lane c.target).th = (s.lane c.target).th ∧ t.out = s.out) ∧
  (∀ id tm c h s, (s.at tm).starts id 0x0103 c h → (s.lane c.target).phase = .paused → (s.lane c.target).pausedFor.command = false →
    ∃ A : Lane, A.pausedFor = { (s.lane c.target).pausedFor with command := true } ∧ A.mem = (s.lane c.target).mem ∧
      exec (.lanePause id tm) s = .next ((((s.at tm).entered c).putLane c.target A).done c (leBytes 4 (s.lane c.target).frameNow))) ∧
  (∀ id tm c h s, (s.at tm).starts id 0x0104 c h →
    let L := s.lane c.target
    L.phase = .paused → L.pausedFor.fault = false → L.pausedFor.test = false → L.pausedFor.drain = false → L.snap = none →
    (L.pausedFor.ladder = false ∨ (s.half (halfOf c.target)).mon.stage < 3) →
    exec (.laneResume id tm) s = .next ((((s.at tm).entered c).resumeLane c.target 4).done c (leBytes 4 L.frameNow))) ∧
  (∀ id tm c h s, (s.at tm).starts id 0x0105 c h → (s.lane c.target).live = true →
    let L := s.lane c.target
    exec (.laneNotify id tm) s =
      .next ((((s.at tm).entered c).logInput c.target L L.inputVt 7 0 c.params none).done c (leBytes 8 L.inputVt))) ∧
  (∀ id tm c h s, (s.at tm).starts id 0x0106 c h →
    exec (.laneQuery id tm) s = .next (((s.at tm).entered c).done c (s.laneInfo c.target))) ∧
  (∀ h (n : BitVec 32) t s, Sparse.get noTitle (s.half h).titles n.toNat = some t → t.copying = true → s.runs = true →
    (∀ p ∈ (s.half h).held, p.2.title = n.toNat → p.2.phase ≠ .starting) →
    ∃ u, exec (.titleCopyComplete h n) s = .next u ∧
      Sparse.get noTitle (u.half h).titles n.toNat = some { t with copying := false, ready := true } ∧ (u.half h).lanes = (s.half h).lanes ∧
      u.half (HalfId.peer h) = s.half (HalfId.peer h)) ∧
  (∀ h (n : BitVec 32) t s, Sparse.get noTitle (s.half h).titles n.toNat = some t → t.copying = true → Goes (exec (.titleCopyComplete h n) s)) ∧
  (∀ (s : State) (l : Nat), l < 256 →
     ((s.launch l).lane l).phase = .running ∧ (((s.launch l).lane l).thread 0).active = true ∧
       (((s.launch l).lane l).thread 0).pc = w64 (bits ((s.lane l).unit.reg 0x34080) 2 38 * 4) ∧
       (((s.launch l).lane l).thread 0).vt = 0 ∧ (∀ r, (((s.launch l).lane l).thread 0).gReg r = 0) ∧
       (∀ t, 0 < t → ((s.launch l).lane l).thread t = (s.lane l).thread t) ∧ ((s.launch l).half (halfOf l)).issued.contains l = false ∧
       ((s.launch l).lane l).startCmd.map (·.1) = (s.lane l).pauseCmds.head?)

/-- The commands of viewers (R318, R341, R346, R360 to R362, R367, R369, R372, R375, R437): what each does once its checks are passed.
Choices of the model: assumptions 52 and 53. -/
def Obligations.ViewerCommands : Prop :=
  (∀ id tm c h v s, (s.at tm).starts id 0x0201 c h →
    let l := c.target
    let p := c.params
    let H := s.half h
    let x := viewerOf p l ((s.at tm).time)
    viewerBad p H.net.mode = none → ((s.lane l).phase = .running ∨ (s.lane l).phase = .paused) → H.holder x.flow.id = none → H.net.drain = false →
    H.freeViewer = some v → (H.viewersOf l).length < 32 → (∀ q ∈ H.viewersOf l, x.player = true → q.2.player = true → q.2.slot ≠ x.slot) →
    (s.at tm).overBudget l x.flow.sub x.budget none = false →
    ∃ (w : State) (y : Viewer), exec (.viewerAdd id tm) s = .next (w.done c (leBytes 2 (viewerNo h v) ++ [0, 0])) ∧ (w.half h).viewer v = some y ∧
      y = { x with t := y.t } ∧ (∀ n, n ≠ v → (w.half h).viewer n = H.viewer n) ∧ (w.lane l).mem = (s.lane l).mem ∧ (w.lane l).th = (s.lane l).th ∧
      w.out = s.out) ∧
  (∀ id tm c h v x s, (s.at tm).starts id 0x0202 c h → leAt c.params 2 1 = 0 → leAt c.params 3 1 = 0 →
    s.viewerAt c.target (leAt c.params 0 2) = some (v, x) →
    let u := (s.at tm).entered c
    exec (.viewerRemove id tm) s = .next ((u.sentBy h v (x.leave h u.time (u.lane x.lane).frameNow 1)).done c [])) ∧
  (∀ id tm c h v x s, (s.at tm).starts id 0x0203 c h →
    let p := c.params
    let m := leAt p 2 2
    m < 16 → (m.testBit 1 = true → leAt p 10 1 ≤ leAt p 11 1 ∧ leAt p 11 1 ≤ 3) → (m.testBit 2 = true → leAt p 12 1 ≤ 1) →
    (∀ i, i < 3 → leAt p (13 + i) 1 = 0) → s.viewerAt c.target (leAt p 0 2) = some (v, x) →
    (m.testBit 0 = true → s.overBudget c.target x.flow.sub (leAt p 4 4) (some v) = false) →
    let o : ViewerSet := x.setDue.getD { budget := none, levels := none, halfOk := none, pace := none }
    ∃ d : ViewerSet, d.budget = (if m.testBit 0 then some (leAt p 4 4) else o.budget) ∧
      d.levels = (if m.testBit 1 then some (leAt p 10 1, leAt p 11 1) else o.levels) ∧
      d.halfOk = (if m.testBit 2 then some (decide (leAt p 12 1 = 1)) else o.halfOk) ∧ d.pace = (if m.testBit 3 then some (leAt p 8 2) else o.pace) ∧
      let u := (s.at tm).entered c
      exec (.viewerSet id tm) s = .next ((u.putHalf h ((u.half h).putViewer v (some { x with setDue := some d }))).done c [])) ∧
  (∀ id tm c h v x s, (s.at tm).starts id 0x0204 c h → leAt c.params 2 1 = 0 → leAt c.params 3 1 = 0 →
    s.viewerAt c.target (leAt c.params 0 2) = some (v, x) →
    ∃ f : Flow, f.epoch = (x.flow.epoch + 1) % 256 ∧ f.seq = 0 ∧ f.key = slice c.params 4 32 ∧
      f.prev = some (x.flow.key, x.flow.epoch, x.flow.rx, (s.at tm).time + 1000000000) ∧ f.id = x.flow.id ∧ f.bound = x.flow.bound ∧
      let u := if x.player then ((s.at tm).entered c).putLane x.lane ((s.lane x.lane).mapVoice x.slot VoiceDec.newEpoch)
        else (s.at tm).entered c
      exec (.viewerRekey id tm) s =
        .next ((u.putHalf h ((u.half h).putViewer v (some { x with flow := f }))).done c (leBytes 1 f.epoch ++ [0, 0, 0]))) ∧
  (∀ id tm c h vs s, (s.at tm).starts id 0x0205 c h → 1 ≤ leAt c.params 0 1 → leAt c.params 0 1 ≤ 32 → leAt c.params 1 1 = 0 →
    s.listed c.target c.params = some vs →
    ∃ w : State, (∀ v x, v ∈ vs → (s.half h).viewer v = some x → ∃ y k, (w.half h).viewer v = some y ∧ y.keyDue = x.keyDue ++ k ∧ 3 ∈ k) ∧
      (∀ v, v ∉ vs → (w.half h).viewer v = (s.half h).viewer v) ∧ (w.half h).lanes = (s.half h).lanes ∧ w.out = s.out ∧
      ((∀ v x, v ∈ vs → (s.half h).viewer v = some x → x.state ≠ 1) → exec (.viewerKeyframe id tm) s = .next (w.done c (leBytes 4 0xFFFFFFFF))) ∧
      ((∃ v x, v ∈ vs ∧ (s.half h).viewer v = some x ∧ x.state = 1) → exec (.viewerKeyframe id tm) s = .next w)) ∧
  (∀ id tm c h v x s, (s.at tm).starts id 0x0206 c h → leAt c.params 2 1 ≤ 1 → leAt c.params 3 1 = 0 →
    s.viewerAt c.target (leAt c.params 0 2) = some (v, x) →
    let n := s.netLane c.target
    let on := decide (leAt c.params 2 1 = 1)
    let w := ((s.at tm).entered c).putNetLane c.target { n with pacer := v, pen := on, pacerByCmd := true }
    exec (.lanePacer id tm) s = .next ((if on = false ∨ n.pacer ≠ v ∨ n.pen = false then w.unlock c.target else w).done c []))

/-- The commands of timing, compositor and audio (R230, R240, R249, R300 to R303, R377, R434, R438, R439): those that bind wait in the
lane's log for their frame boundary; the others act at once. A command that binds (R401, R427, R438): it enters the lane's log at its
boundary, with its number, unless its deadline comes first. -/
def Obligations.TimingCommands : Prop :=
  (∀ id tm c h s, (s.at tm).starts id 0x0301 c h →
    let L := s.lane c.target
    let b := blockTiming L.block c.params
    L.live = true → (∀ i, i < 6 → leAt c.params i 1 = 0) → (∀ i, i < 4 → leAt c.params (0x14 + i) 1 = 0 ∧ leAt c.params (0x1C + i) 1 = 0) →
    badTiming b (leAt L.block 0x15 1) = none → (s.half h).overFetch (c.target % 128) b = none →
    exec (.timingSet id tm) s = .next (((s.at tm).entered c).bind c 6 0 c.params)) ∧
  (∀ id tm c h s, (s.at tm).starts id 0x0302 c h →
    let p := c.params
    let m := leAt p 0 1
    m < 16 → (m.testBit 0 = true → leAt p 1 1 ≤ 16) → (m.testBit 1 = true → leAt p 2 2 ≤ 4095) → leAt p 5 1 = 0 →
    (s.lane c.target).live = true → exec (.laneTune id tm) s = .next (((s.at tm).entered c).bind c 6 1 p)) ∧
  (∀ id tm c h s, (s.at tm).starts id 0x0303 c h →
    let p := c.params
    let L := s.lane c.target
    L.op.copying = false → leAt p 0 4 + leAt p 4 2 ≤ 131072 → 1 ≤ leAt p 4 2 → leAt p 4 2 ≤ 4088 → leAt p 6 2 = 0 →
    ∃ A : Lane, A.op.staging = L.op.staging.writeBytes (leAt p 0 4) (slice p 8 (leAt p 4 2)) ∧ A.op.display = L.op.display ∧ A.unit = L.unit ∧
      A.mem = L.mem ∧ A.th = L.th ∧ exec (.ovLoad id tm) s = .next ((((s.at tm).entered c).putLane c.target A).done c [])) ∧
  (∀ id tm c h s, (s.at tm).starts id 0x0304 c h →
    let p := c.params
    let n := leAt p 0 2
    let L := s.lane c.target
    1 ≤ n → n ≤ 255 → (∀ i, i < 6 → leAt p (2 + i) 1 = 0) → (∀ i, i < n → opEntryOk (slice p (8 + 16 * i) 16) = true) →
    ∃ A : Lane, A.op.act = L.op.act ∧ A.unit = L.unit ∧ A.mem = L.mem ∧ A.th = L.th ∧
      (let e := slice p (8 + 16 * (n - 1)) 16
       let o := 0x10000 + leAt e 0 2
       Sparse.get laneReset A.op.stage o = w64 (leAt e 8 8) &&& (operatorMask o).getD 0) ∧
      exec (.opSet id tm) s = .next ((((s.at tm).entered c).putLane c.target A).done c [])) ∧
  (∀ id tm c h s, (s.at tm).starts id 0x0305 c h → (s.lane c.target).live = true →
    bit (Sparse.get laneReset (s.lane c.target).op.stage 0x18800) 0 = false →
    ∃ n, exec (.opCommit id tm) s = .next (((s.at tm).entered c).bind c 5 0 (leBytes 4 n))) ∧
  (∀ id tm c h s, (s.at tm).starts id 0x0306 c h →
    let p := c.params
    let m := leAt p 0 2
    let L := s.lane c.target
    firstBad (xptChecks p) = none →
    ∃ A : Lane, (∀ o, o < 6 → A.unit.reg (0x38000 + 8 * o) = if m.testBit o then w64 (leAt p (8 + 8 * o) 8) else L.unit.reg (0x38000 + 8 * o)) ∧
      (∀ o, o < 6 → A.unit.reg (0x38040 + 4 * o) = if m.testBit (8 + o) then
        w64 (leAt p (56 + 4 * o) 4) &&& (if o = 5 then 0x01FF0003 else 0x01FF0007) else L.unit.reg (0x38040 + 4 * o)) ∧
      (A.unit.reg 0x38078 = if m.testBit 15 then w64 (leAt p 80 4) &&& 0xFF7FFF else L.unit.reg 0x38078) ∧ A.mem = L.mem ∧ A.th = L.th ∧
      A.op = L.op ∧ exec (.xptSet id tm) s = .next ((((s.at tm).entered c).putLane c.target A).done c [])) ∧
  (∀ id tm c h s, (s.at tm).starts id 0x0307 c h →
    let p := c.params
    let n := leAt p 8 4
    n % 4096 = 0 → n ≤ 2 ^ 24 → (∀ i, i < 4 → leAt p (12 + i) 1 = 0) →
    ∃ A : Lane, A.audio.ann.on = decide (n ≠ 0) ∧ A.audio.ann.addr = leAt p 0 8 ∧ A.audio.ann.size = n ∧ A.audio.ann.rd = 0 ∧ A.audio.ann.queue = [] ∧
      A.unit = (s.lane c.target).unit ∧ A.mem = (s.lane c.target).mem ∧ A.th = (s.lane c.target).th ∧
      exec (.announceRing id tm) s = .next ((((s.at tm).entered c).putLane c.target A).done c [])) ∧
  (∀ (s : State) (c : Cmd) (kind slot : Nat) (data : Bytes),
     let g := (s.lane c.target).bindAt
     (c.flags.testBit 2 = true → serialBefore c.deadline (g.2 % 2 ^ 32) = true → s.bind c kind slot data = s.finish c.id 11 0 []) ∧
     (c.flags.testBit 2 = false ∨ serialBefore c.deadline (g.2 % 2 ^ 32) = false →
       ∃ i, i ∈ ((s.bind c kind slot data).lane c.target).inputs ∧ i.vt = g.1 ∧ i.kind = kind ∧ i.slot = slot ∧ i.data = data ∧
         i.cmd = some c.id ∧ i.applied = false ∧ (s.bind c kind slot data).cmds = s.cmds ∧
         ((s.bind c kind slot data).lane c.target).mem = (s.lane c.target).mem))

/-- The commands of titles, snapshots and migration (R388, R391, R393, R406, R440 to R442): what each does once its checks are passed.
SNAPSHOT_ROUND, FINAL_ROUND, SCRUB and PSEUDO_CHANNEL_SPARE (R388, R389, R406, R441, R442, R452, R508): a round of pre-copy is counted and
a converged lane is asked to pause, the pages written since the last round being those of the next; the final round writes the image out
for a command or keeps it for the drain; a corrected error is counted, and an error found while the service processor restarts waits; a
failed pseudo-channel's copy ends on the spare. Choices of the model: assumptions 37, 54, 55 and 128. -/
def Obligations.MemoryCommands : Prop :=
  (∀ id data tm c h s, (s.at tm).starts id 0x0401 c h →
    let p := c.params
    leAt p 0 1 ≤ 1 → (∀ i, i < 3 → leAt p (1 + i) 1 = 0) → leAt p 8 8 ≤ 2 ^ 30 → Sparse.get noTitle (s.half h).titles (leAt p 4 4) = none →
    (s.half h).titleCount < 256 → leAt p 8 8 ≤ (s.half h).poolFree → data.length = leAt p 8 8 → sha384 data = slice p 24 48 →
    ∃ t : Title, t.data = data ∧ t.digest = slice p 24 48 ∧ t.ready = true ∧ t.refs = 0 ∧ t.unloading = false ∧
      exec (.titleLoad id data tm) s = .next ((((s.at tm).entered c).putTitle h (leAt p 4 4) (some t)).done c [])) ∧
  (∀ id tm c h t s, (s.at tm).starts id 0x0402 c h →
    let p := c.params
    leAt p 0 1 ≤ 1 → (∀ i, i < 3 → leAt p (1 + i) 1 = 0) → Sparse.get noTitle (s.half h).titles (leAt p 4 4) = some t →
    exec (.titleUnload id tm) s = .next ((((s.at tm).entered c).putTitle h (leAt p 4 4)
      (if t.refs = 0 then none else some { t with unloading := true })).done c (leBytes 4 t.refs))) ∧
  (∀ id (data : Bytes) tm c h t s, (s.at tm).starts id 0x0403 c h →
    let p := c.params
    let k := leAt p 8 4
    leAt p 0 1 ≤ 1 → (∀ i, i < 3 → leAt p (1 + i) 1 = 0) → (∀ i, i < 4 → leAt p (12 + i) 1 = 0) →
    Sparse.get noTitle (s.half h).titles (leAt p 4 4) = some t → k < t.crcs.length → data.length = 4096 → crc32 data = t.crcs.getD k 0 →
    ∃ u : Title, u.data = (t.data.take (4096 * k) ++ data ++ t.data.drop (4096 * k + 4096)).take t.data.length ∧ u.digest = t.digest ∧
      u.bad = t.bad.filter (fun x => decide (x ≠ k)) ∧
      exec (.titleRepair id data tm) s = .next (((((s.at tm).entered c).putTitle h (leAt p 4 4) (some u)).dropTitle h (leAt p 4 4)
        (4096 * k) 4096).done c [])) ∧
  (∀ id tm c h s, (s.at tm).starts id 0x0404 c h →
    let p := c.params
    let L := s.lane c.target
    leAt p 0 4 < 6 → (∀ i, i < 4 → leAt p (4 + i) 1 = 0) → (L.phase = .running ∨ L.phase = .paused) → L.snap = none →
    ∃ t z, exec (.laneSnapshot id tm) s = .next t ∧ (t.lane c.target).snap = some z ∧ z.cmd = some c.id ∧ z.drain = false ∧ z.rounds = 0 ∧
      z.live = ((leAt p 0 1).testBit 0 && decide (L.phase = .running)) ∧ (t.lane c.target).mem = L.mem ∧ (t.lane c.target).th = L.th ∧ t.out = s.out) ∧
  (∀ id image tm c h t z s, (s.at tm).starts id 0x0405 c h →
    let p := c.params
    let l := c.target
    let b := image.take (leAt p 16 8)
    let k := slice (imageSection b 1) 0 72
    let u := (s.at tm).entered c
    leAt p 0 4 < 2 → (∀ i, i < 4 → leAt p (4 + i) 1 = 0) → (s.lane l).phase = .stopped → imageBad b = none → blockBad k = none →
    (s.half h).titleReady (leAt b 0x1C 4) = some t → t.digest = slice b 0x20 48 → badTiming k (leAt k 0x15 1) = none →
    u.admission l k (slotNeeds k) = .ok z →
    let v := u.startImage l b z t.data.length ((leAt p 0 1).testBit 0)
    exec (.laneRestore id image tm) s = .next (v.done c (v.startResult l))) ∧
  (∀ id tm c h s, (s.at tm).starts id 0x0406 c h →
    let p := c.params
    let n := leAt p 0 1
    let e (i : Nat) : Bytes := slice p (4 + 28 * i) 28
    n ≤ 32 → (∀ i, i < 3 → leAt p (1 + i) 1 = 0) →
    (∀ i, i < n → leAt p (4 + 28 * i + 2) 1 = 0 ∧ leAt p (4 + 28 * i + 3) 1 = 0 ∧ (leAt (e i) 8 1 = 4 ∨ leAt (e i) 8 1 = 6) ∧ leAt (e i) 9 1 = 0) →
    (∀ i, i < n → (s.viewerAt c.target (leAt (e i) 0 2)).isSome = true) →
    exec (.movePlan id tm) s = .next ((((s.at tm).entered c).putNetLane c.target { s.netLane c.target with
      plan := (List.range n).map (fun i => (leAt (e i) 0 2 % 2048, slice (e i) 4 24)) }).done c [])) ∧
  (∀ id tm c h r s, (s.at tm).starts id 0x0407 c h →
    let p := c.params
    let L := s.lane c.target
    let d := leAt p 0 2
    (d = 0xFFFF ∨ (d < 256 ∧ halfOf d ≠ halfOf c.target)) → leAt p 2 1 = 0 → leAt p 3 1 = 0 → (L.phase = .running ∨ L.phase = .paused) → L.snap = none →
    ((s.at tm).entered c).moveTo c.target d = .ok r →
    ∃ t z, exec (.laneMove id tm) s = .next t ∧ (t.lane c.target).snap = some z ∧ z.cmd = some c.id ∧ z.drain = false ∧ z.rounds = 0 ∧
      z.live = decide (L.phase = .running) ∧ (t.lane c.target).mem = L.mem ∧ (t.lane c.target).th = L.th ∧ t.out = s.out) ∧
  (∀ l tm z s, l < 256 → (s.lane l).snap = some z → (s.lane l).phase = .running → z.frozen = false → z.live = true → (s.lane l).pauseDue.drain = false →
    ∃ t y, exec (.snapshotRound l tm) s = .next t ∧ (t.lane l).snap = some y ∧ y.rounds = z.rounds + 1 ∧ y.cmd = z.cmd ∧ y.drain = z.drain ∧
      y.todo = z.dirty.length ∧ y.dirty = [] ∧
      (t.lane l).pauseDue.drain = (t.lane l).converged y ((s.at tm).time) ∧ (t.lane l).mem = (s.lane l).mem ∧ (t.lane l).th = (s.lane l).th ∧
      t.out = s.out) ∧
  (∀ l tm z k id c s, l < 256 → (s.lane l).snap = some z → (s.lane l).phase = .paused → z.frozen = false →
    ((s.lane l).sealCkpt ((s.at tm).time)).pausedCkpt = some k → z.cmd = some id → s.cmd id = some c → c.opcode ≠ 0x0407 →
    exec (.finalRound l tm) s = .next ((s.at tm).finishSnapshot l k c z.live)) ∧
  (∀ l tm z k s, l < 256 → (s.lane l).snap = some z → (s.lane l).phase = .paused → z.frozen = false →
    ((s.lane l).sealCkpt ((s.at tm).time)).pausedCkpt = some k → z.cmd = none →
    ∃ t y, exec (.finalRound l tm) s = .next t ∧ (t.lane l).snap = some y ∧ y.frozen = true ∧ y.image.isSome = true ∧ y.drain = z.drain ∧
      (t.lane l).mem = (s.lane l).mem) ∧
  (∀ l tm z k id c t s, l < 256 → (s.lane l).snap = some z → (s.lane l).phase = .paused → z.frozen = false →
    ((s.lane l).sealCkpt ((s.at tm).time)).pausedCkpt = some k → z.cmd = some id → s.cmd id = some c → c.opcode = 0x0407 →
    (s.at tm).finishMove l k c = some t → exec (.finalRound l tm) s = .next t) ∧
  (∀ l tm z s, l < 256 → (s.lane l).snap = some z → (s.lane l).phase = .paused → z.frozen = false →
    ((s.lane l).sealCkpt ((s.at tm).time)).pausedCkpt = none → exec (.finalRound l tm) s = .next ((s.at tm).ckptAt l (s.lane l).bvt)) ∧
  (∀ h addr tm s, addr < 48 * 2 ^ 30 → s.runs = true → (s.half h).sp.down = false → (s.half h).sp.spRestart = true →
    exec (.scrub h addr .none tm) s = .next (s.at tm) ∧
    ∀ e, e ≠ .none → exec (.scrub h addr e tm) s =
      .next ((s.at tm).putHalf h ((s.half h).putOff (.hbm (addr / 256 % 64) (Config.hbmRow addr) e) (s.at tm).time))) ∧
  (∀ h addr tm s, addr < 48 * 2 ^ 30 → s.runs = true → (s.half h).sp.down = false → (s.half h).sp.spRestart = false →
    (∃ t, exec (.scrub h addr .none tm) s = .next t ∧ t.east = s.east ∧ t.west = s.west ∧ t.out = s.out) ∧
    (∃ t, exec (.scrub h addr .corrected tm) s = .next t ∧ (t.half h).sp.memCorr = (s.half h).sp.memCorr + 1 ∧ (t.half h).lanes = (s.half h).lanes) ∧
    ∀ e, exec (.scrub h addr e tm) s = .next ((s.at tm).hbmRead h (addr / 256 % 64) (Config.hbmRow addr) e 0)) ∧
  (∀ h pc s, pc < 64 → s.runs = true → (s.half h).sp.down = false → (s.half h).sp.pcFailing.contains pc = true →
    ∃ t, exec (.pseudoChannelSpare h pc) s = .next t ∧ (t.half h).sp.spared = (s.half h).sp.spared ++ [pc] ∧
      (t.half h).sp.pcFailing.contains pc = false ∧ (t.half h).lanes = (s.half h).lanes ∧ t.half (HalfId.peer h) = s.half (HalfId.peer h))

/-- The commands of the device and its ports (R356, R431, R432, R443): what each does once its checks are passed. Choices of the model:
assumption 63. -/
def Obligations.DeviceCommands : Prop :=
  (∀ id tm c h s, (s.at tm).starts id 0x0706 c h → leAt c.params 0 1 ≤ 1 → leAt c.params 4 4 = 0 →
    let u := (s.at tm).entered c
    exec (.ctrlFlow id tm) s = .next ((u.putHalf h ((u.half h).setControl none)).done c [])) ∧
  (∀ id tm c h s, (s.at tm).starts id 0x0706 c h →
    let p := c.params
    let u := (s.at tm).entered c
    p.length = 56 → leAt p 0 1 ≤ 1 → leAt p 4 4 ≠ 0 → leAt p 1 1 ≤ 1 → leAt p 2 1 < subPorts (s.half h).net.mode → (leAt p 3 1 = 4 ∨ leAt p 3 1 = 6) →
    (∀ i, i < 3 → leAt p (8 + i) 1 = 0) → leAt p 0x0B 1 ≤ 15 → leAt p 0x0E 1 ≤ 63 → 1 ≤ leAt p 0x0F 1 → (∀ i, i < 2 → leAt p (0x16 + i) 1 = 0) →
    (leAt p 1 1 = 0 → ∀ i, i < 16 → leAt p (0x28 + i) 1 = 0) → (s.half h).holder (leAt p 4 4) = none →
    ∃ k : Control, k.flow.id = leAt p 4 4 ∧ k.mask = 0 ∧ k.kept = [] ∧ k.flow.epoch = 0 ∧ k.flow.seq = 0 ∧ k.flow.bound = none ∧
      exec (.ctrlFlow id tm) s = .next ((u.putHalf h ((u.half h).setControl (some k))).done c [])) ∧
  (∀ id tm c h s, (s.at tm).starts id 0x0801 c h → exec (.devInfo id tm) s = .next (((s.at tm).entered c).done c s.devInfo)) ∧
  (∀ id tm c h s, (s.at tm).starts id 0x0802 c h →
    let p := c.params
    let m := leAt p 1 1
    let N := (s.half h).net
    leAt p 0 1 ≤ 1 → m < 32 → (m.testBit 0 = true → leAt p 2 1 ≤ 3) → (m.testBit 1 = true → leAt p 3 1 ≤ 1) → (m.testBit 2 = true → 1 ≤ leAt p 4 1) →
    (m.testBit 4 = true → 1 ≤ leAt p 6 1) → leAt p 7 1 = 0 → (m.testBit 0 = false ∨ leAt p 2 1 = N.mode ∨ (s.half h).portDrained = true) →
    ∃ n : Net, n.mode = (if m.testBit 0 then leAt p 2 1 else N.mode) ∧ n.foEn = (if m.testBit 1 then decide (leAt p 3 1 = 1) else N.foEn) ∧
      n.fb = (if m.testBit 2 then leAt p 4 1 else N.fb) ∧ n.foScale = (if m.testBit 3 then leAt p 5 1 else N.foScale) ∧
      n.idle = (if m.testBit 4 then leAt p 6 1 else N.idle) ∧ n.viewers = N.viewers ∧ n.subs = N.subs ∧
      exec (.portCfg id tm) s = .next (((((s.at tm).entered c).putHalf h (Half.saveSettings { s.half h with net := n })).settlePorts).done c [])) ∧
  (∀ id tm c h s, (s.at tm).starts id 0x0803 c h →
    let p := c.params
    leAt p 0 1 ≤ 1 → leAt p 1 1 < subPorts (s.half h).net.mode → leAt p 8 1 ≤ 16 → leAt p 9 1 ≤ 16 → (∀ i, i < 6 → leAt p (10 + i) 1 = 0) →
    ∃ q : SubPort, q.mac = slice p 2 6 ∧ q.ip4 = (List.range (leAt p 8 1)).map (fun i => slice p (16 + 4 * i) 4) ∧
      q.ip6 = (List.range (leAt p 9 1)).map (fun i => slice p (16 + 4 * leAt p 8 1 + 16 * i) 16) ∧ q.failed = ((s.half h).sub (leAt p 1 1)).failed ∧
      exec (.portAddr id tm) s = .next ((((s.at tm).entered c).putHalf h ((s.half h).putSub (leAt p 1 1) q).saveSettings).done c [])) ∧
  (∀ id tm c h s, (s.at tm).starts id 0x0804 c h →
    let p := c.params
    leAt p 0 1 ≤ 1 → leAt p 2 1 = 0 → leAt p 3 1 = 0 →
    (leAt p 1 1 = 0 → ∃ H : Half, H.net = { (s.half h).net with drain := false } ∧ H.lanes = (s.half h).lanes ∧
      exec (.portDrain id tm) s = .next ((((s.at tm).entered c).putHalf h H).done c [])) ∧
    (leAt p 1 1 = 1 → ∃ H : Half, H.net = { (s.half h).net with drain := true, drainCmds := (s.half h).net.drainCmds ++ [c.id] } ∧
      H.lanes = (s.half h).lanes ∧ exec (.portDrain id tm) s = .next ((((s.at tm).entered c).putHalf h H).portEmpty h))) ∧
  (∀ id tm c h s, (s.at tm).starts id 0x0805 c h →
    let p := c.params
    let n := leAt p 1 1
    leAt p 0 1 ≤ 1 → 1 ≤ n → n ≤ 64 → (∀ i, i < 6 → leAt p (2 + i) 1 = 0) → (∀ i, i < n → leAt p (8 + 4 * i) 4 < 2 ^ 26) →
    let u := (s.at tm).entered c
    exec (.regRead id tm) s = .next (u.done c ((List.range n).flatMap (fun i => leBytes 8 (u.barRead h (leAt p (8 + 4 * i) 4)))))) ∧
  (∀ id tm c h g k s, (s.at tm).starts id 0x0808 c h → (∀ i, i < 4 → leAt c.params (4 + i) 1 = 0) → c.src = .control g → (s.half g).net.control = some k →
    let u := (s.at tm).entered c
    exec (.eventSub id tm) s = .next ((u.putHalf g ((u.half g).setControl (some { k with mask := leAt c.params 0 4 }))).done c [])) ∧
  (∀ id tm c h s, (s.at tm).starts id 0x0809 c h → exec (.nop id tm) s = .next (((s.at tm).entered c).done c c.params))

/-- The commands of monitors, lifetime record, tests and faults (R420, R454 to R456, R462, R463, R472, R473, R490, R492): what each does
once its checks are passed. -/
def Obligations.MonitorCommands : Prop :=
  (∀ id tm c h s, (s.at tm).starts id 0x0501 c h →
    let p := c.params
    let k := leAt p 1 1
    leAt p 0 1 ≤ 1 → k < 3 → leAt p 2 2 < monCount k → 1 ≤ leAt p 4 2 → leAt p 4 2 ≤ (if c.src = .smbus then 8 else 64) →
    leAt p 2 2 + leAt p 4 2 ≤ monCount k → leAt p 6 1 = 0 → leAt p 7 1 = 0 →
    let entry (i : Nat) : Bytes := let x := (s.half h).mon.get k i
      leBytes 2 (unsigned 16 x.value) ++ leBytes 2 (unsigned 16 x.low) ++ leBytes 2 (unsigned 16 x.high) ++
        leBytes 1 (x.below.toNat + 2 * x.above.toNat + 4 * x.failed.toNat) ++ [0]
    exec (.monRead id tm) s = .next (((s.at tm).entered c).done c ((List.range (leAt p 4 2)).flatMap (fun i => entry (leAt p 2 2 + i))))) ∧
  (∀ id tm c h s, (s.at tm).starts id 0x0502 c h →
    let p := c.params
    let k := leAt p 1 1
    let i := leAt p 2 2
    leAt p 0 1 ≤ 1 → k < 3 → i < monCount k →
    ∃ x : Monitor, x.low = monWord k (leAt p 4 2) ∧ x.high = monWord k (leAt p 6 2) ∧ x.value = ((s.half h).mon.get k i).value ∧
      exec (.monLimits id tm) s = .next ((((s.at tm).entered c).setMon h ((s.half h).mon.put k i x)).done c [])) ∧
  (∀ id tm c h s, (s.at tm).starts id 0x0503 c h →
    let p := c.params
    let k := leAt p 0 1
    let o := leAt p 4 4
    let n := leAt p 8 4
    k ≤ 2 → (∀ i, i < 3 → leAt p (1 + i) 1 = 0) → o < 4096 → 1 ≤ n → n ≤ (if c.src = .smbus then 64 else 4096) → o + n ≤ 4096 →
    (k = 2 → (s.half h).auth.role ≠ .isolated) →
    exec (.lifeRead id tm) s = .next (((s.at tm).entered c).done c
      (slice (if k = 2 then mergedLife s.east.life.image s.west.life.image else lifeBytes h (s.half h).life.image) o n))) ∧
  (∀ id tm c h s, (s.at tm).starts id 0x0504 c h →
    exec (.lifeFlush id tm) s = .next (((((s.at tm).entered c).flush .east false).flush .west false).done c [])) ∧
  (∀ id tm c h s, (s.at tm).starts id 0x0602 c h →
    let p := c.params
    let k := leAt p 8 4
    leAt p 0 1 ≤ 1 → (∀ i, i < 3 → leAt p (1 + i) 1 = 0) → 1 ≤ k → k ≤ 64 → (∃ r ∈ (s.half h).sp.records, r.number = leAt p 4 4) →
    exec (.faultRead id tm) s = .next (((s.at tm).entered c).done c
      ((((s.half h).sp.records.filter (fun r => decide (leAt p 4 4 ≤ r.number))).take k).flatMap FaultRecord.bytes))) ∧
  (∀ id tm c h s, (s.at tm).starts id 0x0601 c h →
    let p := c.params
    leAt p 0 1 ≤ 1 → leAt p 1 1 ≤ 4 → leAt p 2 2 < unitCount (unitKind (leAt p 1 1)) →
    (s.half h).isRetired (unitKind (leAt p 1 1)) (leAt p 2 2) = false → leAt p 4 4 ≤ 1 →
    exec (.selftest id tm) s =
      .next (((s.at tm).entered c).askTest c h (unitKind (leAt p 1 1)) (leAt p 2 2) (decide (leAt p 4 4 = 1)) false)) ∧
  (∀ id tm c h s, (s.at tm).starts id 0x0603 c h →
    let p := c.params
    leAt p 0 1 ≤ 1 → leAt p 1 1 ≤ 4 → leAt p 2 2 < unitCount (unitKind (leAt p 1 1)) →
    (s.half h).isRetired (unitKind (leAt p 1 1)) (leAt p 2 2) = false → leAt p 4 4 = 0 →
    exec (.unitRetire id tm) s = .next (((s.at tm).entered c).askTest c h (unitKind (leAt p 1 1)) (leAt p 2 2) false true)) ∧
  (∀ (u : State) (c : Cmd) h i force retire, (u.half h).indexOf h (luBase h + i) = none →
    ((u.askTest c h .laneUnit i force retire).half h).sp.tests =
      (u.half h).sp.tests ++ [{ kind := .laneUnit, idx := i, cmd := some c.id, retire := retire }] ∧
    ((u.askTest c h .laneUnit i force retire).half h).sp.spares = (u.half h).sp.spares.filter (fun x => decide (x ≠ luBase h + i))) ∧
  (∀ id tm c h s, (s.at tm).starts id 0x0604 c h →
    let p := c.params
    let site := leAt p 1 1
    let i := leAt p 2 2
    let w := leAt p 4 4
    let x := w / 2 ^ 16 % 16
    leAt p 0 1 ≤ 1 → site ≤ 12 → (siteRange h site).1 ≤ i → i < (siteRange h site).1 + (siteRange h site).2 → (site = 9 → domainHalf i = h) →
    w / 64 % 4 = 0 → 1 ≤ w / 256 % 256 → w / 2 ^ 20 = 0 → (site = 3 ∨ x = 0) →
    let v := ((s.at tm).entered c).injectOne h site i x
    let first := if (v.half h).sp.last = (s.half h).sp.last then 0 else (s.half h).sp.last + 1
    let z := v.injectMore h site i x (w / 256 % 256 - 1)
    exec (.faultInject id tm) s = .next (if (z.half h).sp.spRestart then z else z.done c (leBytes 4 first)))

/-- The commands of firmware, presence and drain (R506, R507, R514, R519 to R521, R529, R533, R535): what each does once its checks are
passed. -/
def Obligations.FirmwareCommands : Prop :=
  (∀ id (data : Bytes) tm c h s, (s.at tm).starts id 0x0701 c h →
    let p := c.params
    let o := leAt p 4 4
    let n := leAt p 16 4
    leAt p 0 1 ≤ 1 → (∀ i, i < 3 → leAt p (1 + i) 1 = 0) → o < 2 ^ 24 → o + n ≤ 2 ^ 24 → (∀ i, i < 4 → leAt p (20 + i) 1 = 0) →
    (s.half h).fw.waiting = 0 → data.length = n → 0 < n →
    ∃ H : Half, H.fw.staging = ((s.half h).fw.staging.writeBytes (o / 65536 * 65536)
        (List.replicate (roundUp (o + n) 65536 - o / 65536 * 65536) 0xFF)).writeBytes o data ∧
      H.fw.comps = (s.half h).fw.comps ∧ H.lanes = (s.half h).lanes ∧
      exec (.fwStage id data tm) s = .next ((((s.at tm).entered c).putHalf h H).done c [])) ∧
  (∀ id tm c h s, (s.at tm).starts id 0x0702 c h →
    let p := c.params
    let k := leAt p 1 1
    let n := leAt p 4 4
    let F := (s.half h).fw
    let b := F.staging.readBytes 0 (min stagingSize (256 + imgLength (F.staging.readBytes 0 256)))
    leAt p 0 1 ≤ 1 → 1 ≤ k → k ≤ 5 → leAt p 2 1 = 0 → leAt p 3 1 = 0 → F.badImage b k (some n) false = none → s.commitBad h k b = none →
    ∃ H : Half, H.fw.waiting = k ∧ H.fw.waitLen = n ∧
      H.fw.keyFloor = (if (leAt b 0x1A 1).testBit 0 then max F.keyFloor (imgSigner b) else F.keyFloor) ∧ H.fw.comps = F.comps ∧ H.fw.staging = F.staging ∧
      H.life.due = true ∧ H.lanes = (s.half h).lanes ∧
      exec (.fwCommit id tm) s = .next ((((s.at tm).entered c).putHalf h H).done c (leBytes 4 (imgVersion b)))) ∧
  (∀ id tm c h s, (s.at tm).starts id 0x0703 c h → leAt c.params 0 1 ≤ 1 → (∀ i, i < 3 → leAt c.params (1 + i) 1 = 0) →
    exec (.fwQuery id tm) s = .next (((s.at tm).entered c).done c (s.half h).fw.table)) ∧
  (∀ id tm c h s, (s.at tm).starts id 0x0704 c h →
    exec (.presenceStatus id tm) s = .next (((s.at tm).entered c).done c ((s.at tm).entered c).presenceBytes)) ∧
  (∀ id tm c h s, (s.at tm).starts id 0x0705 c h →
    ∃ u, u.presence.openAt = none ∧ exec (.presenceEnd id tm) s = .next (u.done c []) ∧ u = ((s.at tm).entered c).endGrant 4) ∧
  (∀ id tm c h s, (s.at tm).starts id 0x0806 c h →
    let p := c.params
    let n := leAt p 16 8
    let u := (s.at tm).entered c
    leAt p 0 1 ≤ 1 → (∀ i, i < 7 → leAt p (1 + i) 1 = 0) → leAt p 8 8 % 4096 = 0 → (n = 0 ∨ (n % 4096 = 0 ∧ 8192 ≤ n)) →
    ((s.half h).drain.state = 0 →
      let v := u.beginDrain h false true u.time
      let v := v.drainEvent h 2 0xFFFF v.drainCount
      let v := if n = 0 then v else v.bufferEverywhere h (leAt p 0 1) (leAt p 8 8) n
      exec (.drain id tm) s = .next (v.done c v.drainResult)) ∧
    ((s.half h).drain.state ≠ 0 → n ≠ 0 → (s.half h).drain.buf = false → (s.half h).drain.waitOver = false → (s.half h).drainPhase ≠ 4 →
      let v := u.bufferEverywhere h (leAt p 0 1) (leAt p 8 8) n
      exec (.drain id tm) s = .next (v.done c v.drainResult))) ∧
  (∀ id tm c h s, (s.at tm).starts id 0x0807 c h →
    exec (.drainStatus id tm) s = .next (((s.at tm).entered c).done c ((s.at tm).drainStatus h)))

/-- FAULT_DETECTED (R388, R449 to R453): a fault of a running half is handled by its kind and class. A masked one outside classes 6, 8, 11
and 12 of a unit that has not failed three times within 24 h is only counted; a lockstep mismatch stops the service processor, which
restarts; a fault of a lane unit with a spare moves its lane to the spare and rolls it back. A fault while the service processor restarts
waits, with its time, until it serves again. A fault record (R455, R457): it takes the number after LAST, stands at the end of the log, of
which the newest 4,096 are kept. Choices of the model: assumptions 32, 33, 36, 123, 124 and 125. -/
def Obligations.FaultsHandled : Prop :=
  (∀ (f : FaultInfo) (tm : Nat) (s : State), f.cls < 16 → unitOk f.half f.cls f.unitNo = true → (∀ l, f.lane = some l → l < 256 ∧ halfOf l = f.half) →
     s.runs = true → (s.half f.half).sp.down = false → f.cls ≠ 14 →
     ((s.half f.half).sp.spRestart = true → ∃ p : Sparing,
       p = { (s.half f.half).sp with later := (s.half f.half).sp.later ++ [((s.at tm).time, .fault f)] } ∧
       exec (.faultDetected f tm) s = .next ((s.at tm).putHalf f.half { s.half f.half with sp := p })) ∧
     ((s.half f.half).sp.spRestart = false →
     exec (.faultDetected f tm) s = .next ((s.at tm).fault f 0) ∧
     (f.kind = .masked → f.cls ≠ 6 → f.cls ≠ 8 → f.cls ≠ 11 → f.cls ≠ 12 →
       (∀ u, faultUnit f = some u → (s.half f.half).sp.recent u (s.at tm).time < 3) → ∃ t, exec (.faultDetected f tm) s = .next t ∧
         Sparse.get zeroNat (t.half f.half).sp.masked f.cls = min (Sparse.get zeroNat (s.half f.half).sp.masked f.cls + 1) (2 ^ 32 - 1) ∧
         (t.half f.half).sp.records = (s.half f.half).sp.records ∧ (t.half f.half).lanes = (s.half f.half).lanes ∧
         t.half (HalfId.peer f.half) = s.half (HalfId.peer f.half) ∧ t.cmds = s.cmds ∧ t.out = s.out) ∧
     (f.kind = .detected → f.cls = 10 →
       ∃ t, exec (.faultDetected f tm) s = .next t ∧ (t.half f.half).sp.spRestart = true ∧ (t.half f.half).sp.spFault = some f ∧
         (t.half f.half).sp.records = (s.half f.half).sp.records ∧ (t.half f.half).lanes = (s.half f.half).lanes ∧ t.cmds = s.cmds ∧ t.out = s.out) ∧
     (∀ n u rest, f.kind = .detected → f.cls = 3 → (s.half f.half).indexOf f.half f.unitNo = some n → n < 128 → (s.half f.half).sp.spares = u :: rest →
       (s.half f.half).sp.handoff = none → (s.half f.half).drain.state = 0 → (s.lane (laneNo f.half n)).phase = .running →
       (s.lane (laneNo f.half n)).goodCkpt.isSome = true →
       ∃ t, exec (.faultDetected f tm) s = .next t ∧ (t.half f.half).luOf f.half n = u ∧ (t.lane (laneNo f.half n)).phase = .rolling ∧
         (t.lane (laneNo f.half n)).mem = (s.lane (laneNo f.half n)).mem ∧ (t.lane (laneNo f.half n)).ckpts.map (·.vt) = (s.lane (laneNo f.half n)).ckpts.map (·.vt)))) ∧
  (∀ (s : State) (h : HalfId) (r : FaultRecord),
     ((s.record h r).half h).sp.last = (s.half h).sp.last + 1 ∧
     ((s.record h r).half h).sp.records.getLast? = some { r with number := (s.half h).sp.last + 1 } ∧
     ((s.record h r).half h).sp.records.length = min ((s.half h).sp.records.length + 1) 4096 ∧
     (∀ q ∈ ((s.record h r).half h).sp.records, q ∈ (s.half h).sp.records ∨ q = { r with number := (s.half h).sp.last + 1 }) ∧
     ((s.record h r).half h).lanes = (s.half h).lanes ∧ (s.record h r).half (HalfId.peer h) = s.half (HalfId.peer h))

/-- SP_RESTART_COMPLETE, HALF_RECOVERY_END, LANE_UNIT_ROTATION, SPARE_HANDOFF, CORE_SWAP and UNIT_TEST_COMPLETE (R452 to R454, R458 to
R462, R469): the service processor serves and listens again and handles the faults that have waited; a half recovers or is down; the next
lane unit in service gives its place to the spare, at once or at the hand-off of its lane, and the next core once its stores and loads are
done; a freed unit that passes its test is a spare again. Choices of the model: assumptions 39, 42 and 70. -/
def Obligations.RestartAndRotation : Prop :=
  (∀ h tm s, s.runs = true → (s.half h).sp.spRestart = true → (s.half h).sp.down = false → (s.half h).boot.failed = false → (s.half h).fw.restart = none →
    ∃ u : State, exec (.spRestartComplete h tm) s = .next (u.faultsLater h (s.half h).sp.later) ∧ (u.half h).sp.spRestart = false ∧
      (u.half h).sp.later = [] ∧ (u.half h).auth.claimUntil = (s.at tm).time + 20000 ∧
      (u.half h).auth.role = (if (s.half h).auth.role = .isolated then .isolated else .starting)) ∧
  (∀ h tm s, s.runs = true → (s.half h).sp.recovering = true → (s.half h).sp.down = false →
    ((s.at tm).time ≤ (s.half h).sp.spTime + 100000000 → (∀ p ∈ (s.half h).held, p.2.phase ≠ .rolling) →
      ∃ t, exec (.halfRecoveryEnd h true tm) s = .next t ∧ (t.half h).sp.recovering = false ∧ (t.half h).lanes = (s.half h).lanes ∧ t.out = s.out) ∧
    (∃ t, exec (.halfRecoveryEnd h false tm) s = .next t ∧ (t.half h).sp.down = true ∧ (t.half h).lanes = [] ∧ (t.half h).pins = (s.half h).pins ∧
      (t.half h).life.mram = (s.half h).life.mram)) ∧
  (∀ h tm u rest j n s, s.rotates h = true → (s.half h).sp.luHalt = false → (s.half h).sp.handoff = none → (s.half h).sp.spares = u :: rest →
    (s.half h).nextUnit .laneUnit 132 ((s.half h).sp.luNext - luBase h) (fun j => ((s.half h).indexOf h (luBase h + j)).isSome) = some j →
    (s.half h).indexOf h (luBase h + j) = some n → n < 128 →
    (((s.lane (laneNo h n)).phase = .running ∨ (s.lane (laneNo h n)).phase = .rolling) →
      ∃ t, exec (.laneUnitRotation h tm) s = .next t ∧ (t.half h).sp.handoff = some (laneNo h n, u) ∧ (t.half h).sp.spares = rest ∧
        (t.half h).sp.luNext = luBase h + (j + 1) % 132 ∧ (t.half h).sp.luMap = (s.half h).sp.luMap ∧ (t.half h).lanes = (s.half h).lanes) ∧
    (((s.lane (laneNo h n)).phase = .stopped ∨ (s.lane (laneNo h n)).phase = .paused) →
      ∃ t, exec (.laneUnitRotation h tm) s = .next t ∧ (t.half h).luOf h n = u ∧ (t.half h).lanes = (s.half h).lanes)) ∧
  (∀ l tm u s, l < 256 → (s.half (halfOf l)).sp.handoff = some (l, u) → s.rotates (halfOf l) = true → (s.lane l).canHandOff = true →
    ∃ t, exec (.spareHandoff l tm) s = .next t ∧ (t.half (halfOf l)).luOf (halfOf l) (l % 128) = u ∧ (t.half (halfOf l)).sp.handoff = none ∧
      (t.half (halfOf l)).lanes = (s.half (halfOf l)).lanes) ∧
  (∀ h tm q p c s, s.rotates h = true → (s.half h).sp.coreHalt = false → (s.half h).sp.spareCore = some q →
    (s.half h).nextUnit .core 17 (s.half h).sp.coreNext (fun p => ((s.half h).logicalOf p).isSome) = some p → (s.half h).logicalOf p = some c →
    (s.half h).coreDrained c = true →
    ∃ t, exec (.coreSwap h tm) s = .next t ∧ (t.half h).coreOf c = q ∧ (t.half h).sp.spareCore = none ∧ (t.half h).sp.coreNext = (p + 1) % 17 ∧
      (t.half h).lanes = (s.half h).lanes ∧ (t.half h).ctxs = (s.half h).ctxs) ∧
  (∀ h i tm s, i < 132 → s.runs = true → (s.half h).serves = true → (s.half h).sp.tests = [{ kind := .laneUnit, idx := i, cmd := none, retire := false }] →
    (s.half h).indexOf h (luBase h + i) = none → (s.half h).isRetired .laneUnit i = false → luBase h + i ∉ (s.half h).sp.spares →
    ∃ t, exec (.unitTestComplete h .laneUnit i true tm) s = .next t ∧ (t.half h).sp.spares = (s.half h).sp.spares ++ [luBase h + i] ∧
      (t.half h).sp.tests = [] ∧ (t.half h).lanes = (s.half h).lanes) ∧
  (∀ h u i pass tm x s, i < unitCount u → s.runs = true → (s.half h).serves = true → s.clear h u i = true →
    x ∈ (s.half h).sp.tests → x.kind = u → x.idx = i → Goes (exec (.unitTestComplete h u i pass tm) s))

/-- HEARTBEAT_SEND, HEARTBEAT_RECEIVE, HEARTBEAT_MISS, CLAIM_RESOLVE, ROLE_LISTEN_END and AUTHORITY_SAMPLE (R464 to R469, R541): words go
out on both wires with the next SEQ; a valid word is noted, and an invalid one, or any on a wire that is lost, ignored; a subordinate that
misses its peer claims; the claim resolves by what was heard and by AUTHORITY. The outcomes of a claim (R467). Read by inference:
assumptions 40 and 41. -/
def Obligations.AuthorityAndClaims : Prop :=
  (∀ h tm s, s.talks h = true →
    let a := (s.half h).auth
    let q (w : Nat) : Nat := (Sparse.get zeroNat a.seqTx w + 1) % 256
    ∃ t, exec (.heartbeatSend h tm) s = .next t ∧ t.out = .heartbeat h 1 (a.word (q 1)) :: .heartbeat h 0 (a.word (q 0)) :: s.out ∧
      (∀ w, w < 2 → Sparse.get zeroNat (t.half h).auth.seqTx w = q w) ∧ (t.half h).auth.passLeft = a.passLeft - 1 ∧
      (t.half h).auth.role = (if 0 < a.passLeft ∧ a.role = .inCharge then .subordinate else a.role) ∧ (t.half h).lanes = (s.half h).lanes) ∧
  (∀ h w (n : BitVec 32) tm s, w < 2 → s.talks h = true → (s.at tm).time < Sparse.get zeroNat (s.half h).auth.wireOff w →
    exec (.heartbeatReceive h w n tm) s = .next (s.at tm)) ∧
  (∀ h w (n : BitVec 32) tm s, w < 2 → s.talks h = true → Sparse.get zeroNat (s.half h).auth.wireOff w ≤ (s.at tm).time →
    ((s.half h).auth.validWord w n.toNat = true →
      exec (.heartbeatReceive h w n tm) s = .next ((s.at tm).putHalf h ((s.half h).setAuth ((s.half h).auth.hear w n.toNat ((s.at tm).time))))) ∧
    ((s.half h).auth.validWord w n.toNat = false → exec (.heartbeatReceive h w n tm) s = .next (s.at tm))) ∧
  (∀ h tm s, s.talks h = true → (s.half h).auth.missed ((s.at tm).time) = true → (s.half h).auth.claiming = none →
    ((s.half h).auth.role = .subordinate →
      ∃ t, exec (.heartbeatMiss h tm) s = .next t ∧ (t.half h).auth.claiming = some ((s.at tm).time) ∧ (t.half h).auth.role = .subordinate ∧
        (t.half h).auth.claims = min ((s.half h).auth.claims + 1) 65535 ∧ (t.half h).lanes = (s.half h).lanes ∧ t.out = s.out) ∧
    ((s.half h).auth.role = .inCharge → (s.half h).auth.peerLost = false →
      ∃ t, exec (.heartbeatMiss h tm) s = .next t ∧ (t.half h).auth.peerLost = true ∧ (t.half h).auth.role = .inCharge ∧
        (t.half h).sp.last = (s.half h).sp.last + 1 ∧ (t.half h).lanes = (s.half h).lanes)) ∧
  (∀ h up down tm t0 s, s.talks h = true → (s.half h).auth.claiming = some t0 → t0 + 8000 ≤ (s.at tm).time →
    let a := (s.half h).auth
    let pin := s.authority h up down
    ∃ t, exec (.claimResolve h up down tm) s = .next t ∧ (t.half h).auth.claiming = none ∧ (t.half h).auth.role = (a.outcomeOf h pin).2 ∧
      (t.half h).auth.outcome = (a.outcomeOf h pin).1 ∧ (t.half h).auth.pin = pin ∧ (t.half h).lanes = (s.half h).lanes) ∧
  (∀ h tm s, s.talks h = true → (s.half h).boot.stage ≠ 5 → (s.half h).auth.role = .starting → (s.half h).auth.claimUntil ≤ (s.at tm).time →
    ∃ t, exec (.roleListenEnd h tm) s = .next t ∧ (t.half h).auth.role = .subordinate ∧
      ((s.half h).auth.heardRole1 = true → (t.half h).auth.claiming = (s.half h).auth.claiming) ∧
      ((s.half h).auth.heardRole1 = false → (s.half h).auth.missed ((s.at tm).time) = true → (t.half h).auth.claiming = some ((s.at tm).time)) ∧
      (t.half h).lanes = (s.half h).lanes ∧ t.out = s.out) ∧
  (∀ h up down s, s.runs = true → (s.half h).serves = true →
    ∃ t, exec (.authoritySample h up down) s = .next t ∧ (t.half h).auth.pin = s.authority h up down ∧ (t.half h).auth.role = (s.half h).auth.role ∧
      (t.half h).lanes = (s.half h).lanes ∧ t.out = s.out) ∧
  (∀ (a : Authority) (h : HalfId) (pin : Nat), pin < 3 →
     (a.heardRole1 = true → a.outcomeOf h pin = (1, .subordinate)) ∧
     (a.heardRole1 = false → a.heardClaim = false → a.heardAny = false → namesHalf h pin ≠ 2 → a.outcomeOf h pin = (2, .inCharge)) ∧
     (a.heardRole1 = false → a.heardClaim = false → a.heardAny = false → namesHalf h pin = 2 → a.outcomeOf h pin = (3, .isolated)) ∧
     (a.heardRole1 = false → a.heardClaim = true → namesHalf h pin = 1 → a.outcomeOf h pin = (4, .inCharge)) ∧
     (a.heardRole1 = false → a.heardClaim = true → namesHalf h pin = 2 → a.outcomeOf h pin = (4, .isolated)) ∧
     (a.heardRole1 = false → a.heardClaim = true → pin = 0 → a.outcomeOf h pin = (5, if a.pref = halfNo h then .inCharge else .isolated)))

/-- MONITOR_UPDATE, LADDER_PAUSE, LADDER_RESUME, AVS_UPDATE, AVS_RETRY, DROOP_START, DROOP_END and THERMTRIP (R470 to R483, R487, R489): a
reading is kept and compared with its limits; the ladder pauses a lane every 100 ms and resumes the last one it paused; the core voltage
is asked for in steps of 5 mV; a droop of a rail is counted in its bin; THERMTRIP stops every clock. The throttle ladder (R475, R479): it
moves by one step at most, up where T_half reaches the next threshold, down after a second below the one for leaving; a half below the
lowest stage that it may hold goes there at once. LIFE_SECOND, LIFETIME_FLUSH and MIRROR_WRITE (R484, R485, R490, R491): a second of power
is counted, with its temperature; a flush that is due writes the image with GEN + 1; a half that is held in reset or has no power counts
and writes nothing; the image reaches the peer's mirror of its parity, or is skipped. Read by inference: assumption 56. -/
def Obligations.MonitorsAndLifetime : Prop :=
  (∀ h idx (v : Int) tm s, s.operates h = true → idx < 24 → 0 ≤ v → v ≤ 65535 →
    ∃ t, exec (.monitorUpdate h 1 idx v tm) s = .next t ∧ (t.half h).mon.get 1 idx = (((s.half h).mon.get 1 idx).read 1 v).1 ∧
      (t.half h).mon.stage = (s.half h).mon.stage ∧ (t.half h).lanes = (s.half h).lanes) ∧
  (∀ h idx (v : Int) tm s, s.operates h = true → idx < 64 → 0 ≤ v → v ≤ 65535 →
    ∃ t, exec (.monitorUpdate h 2 idx v tm) s = .next t ∧ (t.half h).mon.get 2 idx = (((s.half h).mon.get 2 idx).read 2 v).1 ∧
      (t.half h).mon.stage = (s.half h).mon.stage ∧ (t.half h).lanes = (s.half h).lanes) ∧
  (∀ h idx (v : Int) tm s, s.operates h = true → idx < 32 → -32768 ≤ v → v ≤ 32767 →
    ∃ t, exec (.monitorUpdate h 0 idx v tm) s = .next t ∧ ((t.half h).mon.get 0 idx).value = v ∧ (t.half h).lanes = (s.half h).lanes) ∧
  (∀ h i L tm s, s.operates h = true → (s.half h).mon.stage = 3 → 1184 ≤ (s.half h).thalf → (s.half h).mon.ladderAt ≤ (s.at tm).time →
    ladderChoice ((s.half h).held.filter (fun p => decide (p.2.phase = .running) && !p.2.pauseDue.any)) = some (i, L) → i < 128 →
    ∃ t, exec (.ladderPause h tm) s = .next t ∧ (t.lane (laneNo h i)).pauseDue = { L.pauseDue with ladder := true } ∧
      (t.half h).mon.ladder = laneNo h i :: (s.half h).mon.ladder ∧ (t.half h).mon.ladderAt = (s.at tm).time + 100000000 ∧ t.out = s.out) ∧
  (∀ h l rest tm s, s.operates h = true → (s.half h).mon.ladder = l :: rest → (s.half h).mon.stage ≠ 3 → (s.half h).mon.ladderAt ≤ (s.at tm).time →
    (s.lane l).phase = .paused → (s.lane l).pausedFor.ladder = true → ({ (s.lane l).pausedFor with ladder := false } : PauseWhy).any = false →
    (s.lane l).snap = none →
    exec (.ladderResume h tm) s =
      .next (((s.at tm).setMon h { (s.half h).mon with ladder := rest, ladderAt := (s.at tm).time + 100000000 }).resumeLane l 4)) ∧
  (∀ h acked rb tm s, s.operates h = true → (s.half h).boot.ready = true → (s.half h).mon.avsFault = false →
    let mv := (s.half h).avsNext
    (acked = true ∨ (s.half h).mon.avsNacks < 2) → avsClose mv rb = true →
    ∃ t, exec (.avsUpdate h acked rb tm) s = .next t ∧ t.out = .avs h mv :: s.out ∧ (t.half h).mon.avsMv = mv ∧ (t.half h).mon.avsFault = false ∧
      (t.half h).mon.avsNacks = (if acked then 0 else (s.half h).mon.avsNacks + 1) ∧ (t.half h).lanes = (s.half h).lanes) ∧
  (∀ h rb tm s, s.operates h = true → (s.half h).boot.ready = true → (s.half h).mon.avsFault = false → 2 ≤ (s.half h).mon.avsNacks →
    ∃ t, exec (.avsUpdate h false rb tm) s = .next t ∧ (t.half h).mon.avsFault = true ∧ 1 ≤ (t.half h).mon.stage) ∧
  (∀ h acked rb tm s, s.operates h = true → (s.half h).mon.avsFault = true →
    ∃ t, exec (.avsRetry h acked rb tm) s = .next t ∧ (t.half h).mon.avsFault = !(acked && avsClose (s.half h).avsNext rb) ∧
      (t.half h).mon.avsNacks = 0 ∧ t.out = .avs h (s.half h).avsNext :: s.out) ∧
  (∀ h rail tm s, s.operates h = true → rail < 8 → assoc rail (s.half h).mon.droops = none →
    ∃ t, exec (.droopStart h rail tm) s = .next t ∧ (t.half h).mon.droops = (s.half h).mon.droops ++ [(rail, (s.at tm).time)] ∧
      (t.half h).lanes = (s.half h).lanes ∧ t.out = s.out) ∧
  (∀ h rail depth t0 tm s, s.operates h = true → rail < 8 → assoc rail (s.half h).mon.droops = some t0 → 25 ≤ depth → t0 + 1000 ≤ (s.at tm).time →
    ∃ t, exec (.droopEnd h rail depth tm) s = .next t ∧ assoc rail (t.half h).mon.droops = none ∧
      (t.half h).life.image.readNat (0x2C0 + 32 * rail + 4 * droopBin depth) 4 =
        min ((s.half h).life.image.readNat (0x2C0 + 32 * rail + 4 * droopBin depth) 4 + 1) (2 ^ 32 - 1)) ∧
  (∀ tm s, s.powered = true → s.thermtrip = false →
    ∃ t, exec (.thermtrip tm) s = .next t ∧ t.thermtrip = true ∧ t.runs = false ∧
      ∀ h, (t.half h).mon.trip = true ∧ (t.half h).life.tripWord = min ((s.half h).life.tripWord + 1) (2 ^ 32 - 1)) ∧
  ((∀ (s : State) (h : HalfId), (s.half h).mon.stage < (s.half h).mon.floor → ((s.ladder h).half h).mon.stage = (s.half h).mon.floor) ∧
   ∀ (s : State) (h : HalfId), (s.half h).mon.stage ≤ 3 → (s.half h).mon.floor2 = false → (s.half h).mon.avsFault = false →
     let k := (s.half h).mon.stage
     let t := (s.half h).thalf
     (k < 3 → stageEnter (k + 1) ≤ t → ((s.ladder h).half h).mon.stage = k + 1) ∧
     (0 < k → t < stageLeave k → (s.half h).mon.stageAt + 1000000000 ≤ s.time → ((s.ladder h).half h).mon.stage = k - 1) ∧
     (0 < k → t < stageLeave k → s.time < (s.half h).mon.stageAt + 1000000000 → (k = 3 ∨ t < stageEnter (k + 1)) →
       ((s.ladder h).half h).mon.stage = k) ∧
     ((k = 0 ∨ stageLeave k ≤ t) → (k = 3 ∨ t < stageEnter (k + 1)) → ((s.ladder h).half h).mon.stage = k)) ∧
  (∀ h tm s, s.operates h = true → ∃ t, exec (.lifeSecond h tm) s = .next t ∧ (t.half h).life.seconds = (s.half h).life.seconds + 1 ∧
    (t.half h).life.image.readNat 0x18 8 = min ((s.half h).life.image.readNat 0x18 8 + 1) (2 ^ 64 - 1) ∧
    ((s.half h).life.nextS ≤ 1 → (t.half h).life.due = true) ∧ (t.half h).lanes = (s.half h).lanes ∧ t.out = s.out ∧
    t.half (HalfId.peer h) = s.half (HalfId.peer h)) ∧
  (∀ h tm s, s.operates h = true → (s.half h).life.due = true →
    ∃ t, exec (.lifetimeFlush h tm) s = .next t ∧ (t.half h).life.gen = (s.half h).life.gen + 1 ∧ (t.half h).life.due = false ∧
      (t.half h).life.toMirror = some (lifeBytes h (t.half h).life.image) ∧
      (∃ k, k < 2 ∧ Sparse.get noImage (t.half h).life.mram k = some (lifeBytes h (t.half h).life.image)) ∧ (t.half h).lanes = (s.half h).lanes ∧
      t.half (HalfId.peer h) = s.half (HalfId.peer h)) ∧
  (∀ h v tm s, s.operates h = false →
    exec (.monitorUpdate h 0 0 v tm) s = .next (s.at tm) ∧ exec (.lifeSecond h tm) s = .next (s.at tm) ∧
      exec (.lifetimeFlush h tm) s = .next (s.at tm)) ∧
  (∀ h b s, (s.half h).life.toMirror = some b → (s.half (HalfId.peer h)).sp.down = false →
    (∃ t, exec (.mirrorWrite h true) s = .next t ∧ (t.half h).life.toMirror = none ∧ (t.half h).life.mirrorOk = true ∧
      Sparse.get noImage (t.half (HalfId.peer h)).life.mram (2 + leAt b 8 8 % 2) = some b) ∧
    (∃ t, exec (.mirrorWrite h false) s = .next t ∧ (t.half h).life.toMirror = none ∧ (t.half h).life.mirrorOk = false ∧
      t.half (HalfId.peer h) = s.half (HalfId.peer h)))

/-- PWRGD_RISE, PWRGD_FALL, RESET_N_ASSERT and RESET_N_RELEASE (R495, R497 to R501): power and reset put both halves into their reset
state, with the lanes gone; MRAM stays, and boot starts at stage 0 after a power-on reset and at stage 1 after RESET_N; without REFCLK_AON
there is no start. BOOT_STAGE_COMPLETE, DEVICE_READY, PERST_ASSERT, PERST_RELEASE and REFCLK_LOSS (R497, R498, R501 to R504): a stage ends
and the next begins, stage 5 with the processor listening, the port may be configured beside stages 3 to 6, or the boot fails with its
error and the half is held in reset; after stage 8 a half is READY; the device is READY once the half in charge is and the other is, has
failed or is late; PERSTn_N and a missing clock stop the half's function. Choices of the model: assumptions 4, 60 and 72. -/
def Obligations.ResetAndBoot : Prop :=
  (∀ pins tm s, pins.missing.contains .aon = true → exec (.pwrgdRise pins tm) s = .next (s.at tm)) ∧
  (∀ pins tm s, s.powered = false → pins.missing.contains .aon = false →
    ∃ t, exec (.pwrgdRise pins tm) s = .next t ∧ t.powered = true ∧ t.thermtrip = false ∧ t.ready = false ∧ t.time = 0 ∧ t.cmds = [] ∧
      ∀ h, (t.half h).lanes = [] ∧ (t.half h).boot.stage = 0 ∧ (t.half h).boot.por = true ∧ (t.half h).boot.ready = false ∧
        (t.half h).boot.ethClk = !pins.missing.contains (.eth h) ∧ (t.half h).boot.pcieClk = !pins.missing.contains (.pcie h) ∧
        (t.half h).life.mram = (s.half h).life.mram) ∧
  (∀ s, s.powered = true →
    ∃ t, exec .pwrgdFall s = .next t ∧ t.powered = false ∧ t.ready = false ∧ t.cmds = [] ∧
      ∀ h, (t.half h).lanes = [] ∧ (t.half h).life.mram = (s.half h).life.mram ∧ (t.half h).fw.comps = (s.half h).fw.comps) ∧
  (∀ tm s, s.powered = true → s.inReset = false →
    ∃ t, exec (.resetNAssert tm) s = .next t ∧ t.inReset = true ∧ t.ready = false ∧ t.cmds = [] ∧
      ∀ h, (t.half h).lanes = [] ∧ (t.half h).life.mram = (s.half h).life.mram ∧ (t.half h).fw.comps = (s.half h).fw.comps) ∧
  (∀ pins tm s, s.inReset = true →
    ∃ t, exec (.resetNRelease pins tm) s = .next t ∧ t.inReset = false ∧ t.time = 0 ∧ t.presence.lockdown = s.presence.lockdown ∧
      ∀ h, (t.half h).lanes = [] ∧ (t.half h).boot.pinReset = true ∧ (t.half h).boot.ready = false ∧
        (t.half h).boot.stage = (if (s.half h).boot.por then (s.half h).boot.stage else 1) ∧ (t.half h).life.mram = (s.half h).life.mram) ∧
  (∀ h e tm s, s.runs = true → (s.half h).sp.down = false → (s.half h).boot.failed = false → (s.half h).boot.ready = false → 1 ≤ e → e ≤ 6 →
    ∃ t, exec (.bootStageComplete h (.failed e) tm) s = .next t ∧ (t.half h).boot.failed = true ∧ (t.half h).boot.err = e ∧
      (t.half h).auth.role = .starting ∧ (t.half h).lanes = [] ∧ (t.half h).life.mram = (s.half h).life.mram ∧ (t.half h).pins = (s.half h).pins) ∧
  (∀ h tm s, s.runs = true → (s.half h).sp.down = false → (s.half h).boot.failed = false → (s.half h).boot.ready = false → (s.at tm).stageMayEnd h = false →
    exec (.bootStageComplete h .done tm) s = .next (s.at tm)) ∧
  (∀ h tm s, s.runs = true → (s.half h).sp.down = false → (s.half h).boot.failed = false → (s.half h).boot.ready = false →
    3 ≤ (s.half h).boot.stage → (s.half h).boot.stage ≤ 6 → (s.half h).boot.ports = false →
    ∃ t, exec (.bootStageComplete h .ports tm) s = .next t ∧ (t.half h).boot.ports = true ∧ (t.half h).boot.stage = (s.half h).boot.stage ∧
      (t.half h).net.subs = (s.half h).fw.setSubs ∧ (t.half h).lanes = (s.half h).lanes) ∧
  (∀ h tm s, s.runs = true → (s.half h).sp.down = false → (s.half h).boot.failed = false → (s.half h).boot.ready = false →
    (s.at tm).stageMayEnd h = true →
    exec (.bootStageComplete h .done tm) s = .next ((s.at tm).endStage h false) ∧
    (∀ f, exec (.bootStageComplete h (.slots f) tm) s = .next ((s.at tm).endStage h f)) ∧
    ((s.half h).boot.stage = 8 → (((s.at tm).endStage h false).half h).boot.ready = true) ∧
    ((s.half h).boot.stage = 0 ∨ (s.half h).boot.stage = 2 ∨ (s.half h).boot.stage = 4 ∨ (s.half h).boot.stage = 7 →
      (((s.at tm).endStage h false).half h).boot.stage = (s.half h).boot.stage + 1 ∧
      (((s.at tm).endStage h false).half h).boot.ready = false) ∧
    ((s.half h).boot.stage = 4 → (((s.at tm).endStage h false).half h).auth.role = .starting ∧
      (((s.at tm).endStage h false).half h).auth.claimUntil = (s.at tm).time + 20000)) ∧
  (∀ h tm s, s.inCharge = some h → s.ready = false → s.runs = true → (s.half h).boot.ready = true → (s.half (HalfId.peer h)).boot.ready = true →
    ∃ t, exec (.deviceReady tm) s = .next t ∧ t.ready = true ∧ (t.half h).lanes = (s.half h).lanes) ∧
  (∀ h s, ∃ t, exec (.perstAssert h) s = .next t ∧ (t.half h).boot.perstHeld = true ∧ (∀ q, (t.half h).qp q = qpReset q) ∧ (t.half h).ev.en = false ∧
    ((∀ l ∈ (s.half h).drain.lanes, halfOf l = h) → t.half (HalfId.peer h) = s.half (HalfId.peer h))) ∧
  (∀ h tm s, ∃ t, exec (.perstRelease h tm) s = .next t ∧ (t.half h).boot.perstHeld = false ∧ (t.half h).qps = (s.half h).qps ∧
    (t.half h).lanes = (s.half h).lanes ∧ t.half (HalfId.peer h) = s.half (HalfId.peer h)) ∧
  (∀ s, s.powered = true → ∃ t, exec (.refclkLoss .aon) s = .next t ∧ t.powered = false) ∧
  (∀ h s, (∃ t, exec (.refclkLoss (.eth h)) s = .next t ∧ (t.half h).boot.ethClk = false ∧ (∀ k, k < 4 → ((t.half h).sub k).up = false) ∧
      (t.half h).lanes = (s.half h).lanes ∧ t.half (HalfId.peer h) = s.half (HalfId.peer h)) ∧
    ∃ t, exec (.refclkLoss (.pcie h)) s = .next t ∧ (t.half h).boot.pcieClk = false ∧ (∀ q, (t.half h).qp q = qpReset q))

/-- EJECT, DRAIN_NOTICE, IMAGE_WRITE_OUT, DRAIN_BUFFER_TIMEOUT and SAFE (R506 to R514): a drain starts and reaches the other half; a
frozen lane's image goes to the buffer or is lost; without a buffer for 2 s no image is kept; once all is drained the device is safe.
FW_COPY, TRIAL_RESTART, TRIAL_RESTART_TIMEOUT and TRAINING_TABLES_WRITE (R522, R523): a waiting image goes to the inactive slot; the
processor in charge passes the charge on before its restart, a subordinate one restarts into the trial slot; a start that does not come in
40 ms takes the previous slot; new training tables are marked trial. Choices of the model: assumptions 59 and 62. -/
def Obligations.DrainAndFirmware : Prop :=
  (∀ h tm s, s.runs = true → (s.half h).serves = true → (s.half h).pins.input h .ejectN ≠ none → s.inCharge = some h → (s.half h).drain.state = 0 →
    let u := (s.at tm).beginDrain h true false ((s.at tm).time)
    exec (.eject h tm) s = .next (u.drainEvent h 1 0xFFFF u.drainCount)) ∧
  (∀ h tm s, s.runs = true → (s.half h).drains = true → (s.half h).drain.state = 0 →
    let d := (s.half (HalfId.peer h)).drain
    d.state ≠ 0 →
    let u := (s.at tm).beginDrain h d.eject d.cmd d.began
    exec (.drainNotice h tm) s = .next (if d.buf then u.setBuffer h d.dest d.addr d.size else u)) ∧
  (∀ l tm s, l < 256 →
    let d := (s.half (halfOf l)).drain
    d.state ≠ 0 → d.lanes.contains l = true → (s.lane l).drainFrozen = true →
    (d.buffersOver = true → exec (.imageWriteOut l tm) s = .next ((s.at tm).loseImage l)) ∧
    (∀ z b, d.buffersOver = false → (s.lane l).snap = some z → z.image = some b → s.pfUp (halfOf l) = true → d.buf = true →
      d.nextOff + b.length ≤ d.start (halfOf l) + d.part →
      exec (.imageWriteOut l tm) s = .next (((s.at tm).writeImage l b).drainMore (halfOf l))) ∧
    (∀ z b, d.buffersOver = false → (s.lane l).snap = some z → z.image = some b → s.pfUp (halfOf l) = true → d.buf = true →
      d.start (halfOf l) + d.part < d.nextOff + b.length →
      exec (.imageWriteOut l tm) s = .next (((s.at tm).loseImage l).drainMore (halfOf l)))) ∧
  (∀ h tm s, s.inCharge = some h → (s.half h).drain.state = 1 → (s.half h).drain.buf = false → (s.half h).drain.waitOver = false →
    (s.half h).drain.began + 2000000000 ≤ (s.at tm).time →
    let waited (u : State) (g : HalfId) : State := u.setDrain g { (u.half g).drain with waitOver := true }
    exec (.drainBufferTimeout tm) s =
      .next ((waited (waited (((s.at tm).giveUpBuffer .east).giveUpBuffer .west) .east) .west).drainEvent h 4 0xFFFF 0)) ∧
  (∀ h tm s, s.inCharge = some h → s.runs = true → (s.half h).drainPhase = 3 → (s.half (HalfId.peer h)).drainPhase = 3 →
    ∃ t, exec (.safe tm) s = .next t ∧ t.safe = true ∧ (t.half h).drain.state = 4 ∧ (t.half h).life.gen = (s.half h).life.gen + 1) ∧
  (∀ h tm s, s.runs = true → (s.half h).serves = true → (s.half h).boot.ready = true →
    let F := (s.half h).fw
    F.copyDue = true → F.waiting ≠ 0 →
    let b := F.staging.readBytes 0 F.waitLen
    ∃ t, exec (.fwCopy h tm) s = .next t ∧ (t.half h).fw.waiting = 0 ∧ (t.half h).fw.copyDue = false ∧
      (((t.half h).fw.comp F.waiting).slot (F.comp F.waiting).other).state = (if (F.badImage b F.waiting none false).isNone then 2 else 4) ∧
      (((t.half h).fw.comp F.waiting).slot (F.comp F.waiting).other).image = b ∧ ((t.half h).fw.comp F.waiting).active = (F.comp F.waiting).active ∧
      (t.half h).lanes = (s.half h).lanes ∧ t.out = s.out) ∧
  (∀ h tm s, s.runs = true → (s.half h).serves = true → (s.half h).boot.ready = true →
    (((s.half h).fw.comp 1).a.state = 2 ∨ ((s.half h).fw.comp 1).b.state = 2) → (s.half h).auth.passLeft = 0 →
    ((s.half h).auth.role = .inCharge → ∃ t, exec (.trialRestart h tm) s = .next t ∧ (t.half h).auth.passLeft = 5 ∧ (t.half h).fw = (s.half h).fw ∧
      (t.half h).lanes = (s.half h).lanes) ∧
    ((s.half h).auth.role ≠ .inCharge → ∃ t, exec (.trialRestart h tm) s = .next t ∧ (t.half h).sp.spRestart = true ∧
      (t.half h).fw.restart = some ((s.at tm).time) ∧ (t.half h).fw.prevSlot = ((s.half h).fw.comp 1).active ∧ (t.half h).lanes = (s.half h).lanes)) ∧
  (∀ h t0 tm s, (s.half h).fw.restart = some t0 → s.runs = true → t0 + 40000000 ≤ (s.at tm).time →
    ∃ t, exec (.trialRestartTimeout h tm) s = .next t ∧ (t.half h).fw.restart = none ∧ ((t.half h).fw.comp 1).active = (s.half h).fw.prevSlot ∧
      (((s.half h).fw.comp 1).a.state = 3 → ((t.half h).fw.comp 1).a.state = 4) ∧ (t.half h).lanes = (s.half h).lanes) ∧
  (∀ h (v : BitVec 32) (body : Bytes) tm s, s.runs = true → (s.half h).serves = true → (s.half h).boot.ready = true → (s.half h).fw.tables = true →
    256 + body.length ≤ slotSize 5 →
    ∃ t b, exec (.trainingTablesWrite h v body tm) s = .next t ∧ (t.half h).fw.tables = false ∧
      (((t.half h).fw.comp 5).slot ((s.half h).fw.comp 5).other) = { state := 2, image := b } ∧ b.drop 256 = body ∧ imgVersion b = v.toNat ∧
      imgSigner b = 0 ∧ imgLength b = body.length ∧ (t.half h).lanes = (s.half h).lanes)

/-- PRESENCE_ACTION, GRANT_EXPIRY and SEAL_BAND_CHANGE (R526, R527, R529 to R532): an action opens a grant of 600 s or moves its end, at
most to 1,800 s after it opened; a grant ends at its time; the seal loop's band follows its resistance, and a broken loop is a tamper
event. MFIO_MUX_WRITE, MFIO_CFG_WRITE, MFIO_SWITCH_HOLD_END and PIN_INTERRUPT (R542, R547, R548, R550 to R552): a guarded write without
physical presence is denied and counted; otherwise the function changes, the pad held meanwhile; the configuration is written; a pin's
condition sets its status bit. Choices of the model: assumptions 58 and 61. -/
def Obligations.PresenceAndPins : Prop :=
  (∀ h tm s, s.reports h = true → (s.half h).pins.strapMode = 0 → (s.half h).pins.input h .serviceBtn ≠ none →
    exec (.presenceAction h tm) s = .next ((s.at tm).grantAction 1)) ∧
  (∀ h tm s, s.reports h = true → (s.half h).pins.strapMode = 2 → (s.half h).band = 1 → (s.half h).pins.sensesSeal h = true →
    exec (.presenceAction h tm) s = .next ((s.at tm).grantAction 3)) ∧
  (∀ src (s : State), s.presence.openAt = none → s.presence.lockdown = false → s.inCharge ≠ none →
    (s.grantAction src).presence.openAt = some s.time ∧ (s.grantAction src).presence.endAt = s.time + 600000000000 ∧
      (s.grantAction src).presence.source = src) ∧
  (∀ t0 src (s : State), s.presence.openAt = some t0 → s.time ≤ s.presence.endAt → s.presence.lockdown = false → s.inCharge ≠ none → src ≠ 2 →
    (s.grantAction src).presence.openAt = some t0 ∧
      (s.grantAction src).presence.endAt = min (s.time + 600000000000) (t0 + 1800000000000)) ∧
  (∀ t0 tm s, s.presence.openAt = some t0 → s.presence.endAt ≤ (s.at tm).time →
    ∃ t, exec (.grantExpiry tm) s = .next t ∧ t.presence.openAt = none ∧ t.presence.endAt = 0) ∧
  (∀ h (k : BitVec 12) i tm s, s.runs = true → (s.half h).boot.failed = false → (s.half h).sp.down = false →
    (s.half h).pins.input h .seal = some i → (s.half h).pins.analog h i = true →
    ∃ t, exec (.sealBandChange h (some k) tm) s = .next t ∧ (t.half h).band = sealBand (k.toNat * 125) ∧ (t.half h).ohms = k.toNat * 125 / 32 ∧
      Sparse.get zeroNat (t.half h).pins.adc i = k.toNat ∧
      ((s.half h).pins.strapMode = 2 → (s.half h).loopBand ≠ 2 → sealBand (k.toNat * 125) = 2 → s.presence.lockdown = false →
        t.presence.lockdown = true ∧ t.presence.openAt = none)) ∧
  (∀ h tm s, s.runs = true → (s.half h).boot.failed = false → (s.half h).sp.down = false → exec (.sealBandChange h none tm) s = .next ((s.at tm).senseSeal h)) ∧
  (∀ h i (v : BitVec 32) s, i < 32 → s.pfUp h = true → (s.half h).boot.ready = true →
    let p := (s.half h).pins
    let sel := v.toNat % 8
    let guards := guardedFns.contains (p.fn h i) || (decide (sel < 4) && guardedFns.contains (pinFn i sel))
    (guards = true → s.mayGuard = false →
      ∃ t, exec (.mfioMuxWrite h i v) s = .next t ∧ (t.half h).pins.deny = min (p.deny + 1) 65535 ∧ (t.half h).pins.mux = p.mux) ∧
    ((guards = false ∨ s.mayGuard = true) → sel < 4 → sel ≠ p.sel h i →
      ∃ t, exec (.mfioMuxWrite h i v) s = .next t ∧ (t.half h).pins.sel h i = sel ∧ ((t.half h).pins.held i).isSome = true ∧
        (∀ j, j ≠ i → (t.half h).pins.sel h j = p.sel h j)) ∧
    ((guards = false ∨ s.mayGuard = true) → (4 ≤ sel ∨ sel = p.sel h i) → exec (.mfioMuxWrite h i v) s = .next s)) ∧
  (∀ h i (v : BitVec 32) s, i < 32 → s.pfUp h = true → (s.half h).boot.ready = true →
    (guardedFns.contains ((s.half h).pins.fn h i) = false ∨ s.mayGuard = true) →
    ∃ t, exec (.mfioCfgWrite h i v) s = .next t ∧ (t.half h).pins.conf h i = w64 (v.toNat % 256) ∧ (t.half h).pins.mux = (s.half h).pins.mux) ∧
  (∀ h i x s, i < 32 → (s.half h).pins.held i = some x →
    ∃ t, exec (.mfioSwitchHoldEnd h i) s = .next t ∧ (t.half h).pins.held i = none ∧ (t.half h).pins.mux = (s.half h).pins.mux ∧
      (t.half h).lanes = (s.half h).lanes ∧ t.out = s.out) ∧
  (∀ h i level tm s, i < 32 → s.runs = true → (s.half h).boot.failed = false → (s.half h).sp.down = false →
    let p := (s.half h).pins
    ∃ t, exec (.pinInterrupt h i level tm) s = .next t ∧ bit (t.half h).pins.pad i = level ∧
      ((p.analog h i = false ∧ irqHolds (Sparse.get zeroNat p.irqMode i) (bit p.pad i) level = true) → bit (t.half h).pins.irqStat i = true) ∧
      ((p.analog h i = true ∨ irqHolds (Sparse.get zeroNat p.irqMode i) (bit p.pad i) level = false) → (t.half h).pins.irqStat = p.irqStat ∧ t.out = s.out))

/-- A step takes the command at the front of the queue and runs it on the state that holds the rest of the queue; on an empty queue the
block idles (DESIGN CHOICE, assumption 1). -/
def Obligations.StepTakesFront : Prop :=
  (∀ c rest s, s.pending = c :: rest → step s = exec c { s with pending := rest }) ∧
  (∀ s, s.pending = [] → step s = .next s)

/-- What a device reset leaves (R8, R78, R164, R416, R429, R454, R458, R473, R501, R552): no lane, no command, no event; every queue pair
and the event ring disabled; the spares; the limits of the monitors; the pins' functions; boot at stage 1. A boot that begins at stage 1
is assumption 4. -/
def Obligations.AfterReset : Prop :=
  (∀ l, (State.reset.lane l).phase = .stopped ∧ (∀ o, (State.reset.lane l).unit.reg o = laneReset o) ∧ (State.reset.lane l).unit.lic.pend = 0 ∧
    ∀ n, n < 8 → ((State.reset.lane l).unit.tim.get n).run = false ∧ ((State.reset.lane l).unit.tim.get n).armed = true ∧
      ((State.reset.lane l).unit.tim.get n).count = 0) ∧
  State.reset.cmds = [] ∧ State.reset.ready = false ∧ State.reset.safe = false ∧ State.reset.presence.openAt = none ∧
  (∀ h, (State.reset.half h).boot.stage = 1 ∧ (State.reset.half h).boot.ready = false ∧ (∀ q, ((State.reset.half h).qp q).en = false) ∧
    (State.reset.half h).ev.en = false ∧ (State.reset.half h).ev.buf = [] ∧ (State.reset.half h).sp.records = [] ∧ (State.reset.half h).sp.last = 0 ∧
    (State.reset.half h).sp.spareCore = some 16 ∧ (State.reset.half h).sp.spares.length = 4 ∧ (State.reset.half h).net.mode = 0 ∧
    (∀ u ∈ (State.reset.half h).sp.spares, ∀ n, n < 128 → (State.reset.half h).luOf h n ≠ u) ∧
    (∀ c, c < 16 → Sparse.get slotReset (State.reset.half h).slots (16 * c) = 15 ∧
      Sparse.get slotReset (State.reset.half h).slots (16 * c + 8) = 16) ∧
    (∀ i, ((State.reset.half h).mon.get 0 i).low = -320 ∧ ((State.reset.half h).mon.get 0 i).high = 1080 ∧
      ((State.reset.half h).mon.get 2 i).low = 0 ∧ ((State.reset.half h).mon.get 2 i).high = 0xFFFF) ∧
    (∀ i, 16 ≤ i → i < 32 → (State.reset.half h).pins.sel h i = 0))

/-- What stops the block: a command faults exactly where an operand of it names a unit that the manual does not give, and is refused
exactly where firmware's own instructions and registers would run at system level (R107). Every other command on every state answers a
next state. The fault is the choice of the model (assumption 8), the refusal stands for what the manual leaves to firmware (assumption 9). -/
def Obligations.StopsExactly : Prop :=
  (∀ i s, i.wellFormed = false → exec i s = .fault .noUnit) ∧
  (∀ i s, i.wellFormed = true → NoFault (exec i s)) ∧
  (∀ (c : Ctx) (i : Instr) (n : NInstr) (s : State), c.ok = true → (∃ h k z, c = .sys h k z) → s.issues c n = true →
    ((∃ b, i = .sysx c b ∧ n = .sysx b) ∨ (∃ rd m, i = .mfs c rd m ∧ n = .mfs rd m ∧ 0x800 ≤ m.toNat) ∨
      (∃ ra m, i = .mts c ra m ∧ n = .mts ra m ∧ 0x800 ≤ m.toNat)) → exec i s = .refused .firmware) ∧
  (∀ i s r, exec i s = .refused r → r = .firmware ∧ ∃ h k z,
    (∃ b, i = .sysx (.sys h k z) b) ∨ (∃ rd m, i = .mfs (.sys h k z) rd m ∧ 0x800 ≤ m.toNat) ∨
      (∃ ra m, i = .mts (.sys h k z) ra m ∧ 0x800 ≤ m.toNat))

/-- The Nongagon instruction word (R108 to R111, R127): decoding the word of a well-formed instruction gives it back, with every operand
at every value; a word that decodes is the word of a well-formed instruction, and of that one only. -/
def Obligations.WordsRoundTrip : Prop :=
  (∀ i : NInstr, i.wf = true → ndecode (nencode i) = some i) ∧
  (∀ (w : BitVec 32) (i : NInstr), ndecode w = some i → i.wf = true ∧ nencode i = w)

/-- What every step keeps: a half never holds more events than the 64 of its buffer and the slots of the largest ring (R429), an enabled
ring has at most 2^12 slots, and the log never holds more than 4,096 fault records (R455). That events wait in one queue for the slots of
the ring and for the 64 of the buffer is read by inference (assumption 31). -/
def Obligations.StepKeepsBounds : Prop :=
  ∀ s t, s.bounded → step s = .next t → t.bounded

/-- The bounds of the event buffer and of the fault log hold after a device reset (R429, R455). -/
def Obligations.ResetBounded : Prop :=
 State.reset.bounded

/-- The levee of a lane (R13, R447): work inside one lane leaves every other lane of the device as it was, as long as its own lane has not
stopped with it. -/
def Obligations.LaneIsolation : Prop :=
  ∀ i l s t, laneWork i = some l → exec i s = .next t → (t.lane l).phase ≠ .stopped →
    ∀ m, m < 256 → m ≠ l → t.lane m = s.lane m
end

