-- ==== Sys2Proof/Laws/Crypto.lean ====
section
/-! SUPPORT. The S-box table that the rounds of AES read is the function of FIPS 197 that it stands for. -/
namespace Sys2Proof.Machine

theorem sbox_eq_sboxOf : ∀ a, a < 256 → sbox a = sboxOf a := by decide +kernel

end Sys2Proof.Machine
end

