-- ==== Sys2Proof/Laws/Sparse.lean ====
section
/-! SUPPORT. Laws of sparse maps and memories: a read after a write, and the canonical form that every write keeps. -/
namespace Sys2Proof.Machine
variable {V : Type}

theorem Sparse.get_filter_same (d : Nat → V) (m : Sparse V) (k : Nat) :
    Sparse.get d (m.filter (fun p => !decide (p.1 = k))) k = d k := by
  induction m with
  | nil => rfl
  | cons p t ih => by_cases h : p.1 = k <;> simp [Sparse.get, h, ih]
theorem Sparse.get_filter_other (d : Nat → V) (m : Sparse V) (k j : Nat) (h : j ≠ k) :
    Sparse.get d (m.filter (fun p => !decide (p.1 = k))) j = Sparse.get d m j := by
  induction m with
  | nil => rfl
  | cons p t ih =>
    by_cases e : p.1 = k
    · have : p.1 ≠ j := by omega
      simp [Sparse.get, e, ih, Ne.symm h]
    · simp [Sparse.get, e, ih]
theorem Sparse.get_insert_same (d : Nat → V) (m : Sparse V) (k : Nat) (v : V) : Sparse.get d (Sparse.insert m k v) k = v := by
  induction m with
  | nil => simp [Sparse.insert, Sparse.get]
  | cons p t ih =>
    simp only [Sparse.insert]
    split
    · simp [Sparse.get]
    · split
      · simp [Sparse.get]
      · have : p.1 ≠ k := by omega
        simp [Sparse.get, this, ih]
theorem Sparse.get_insert_other (d : Nat → V) (m : Sparse V) (k j : Nat) (v : V) (h : j ≠ k) :
    Sparse.get d (Sparse.insert m k v) j = Sparse.get d m j := by
  induction m with
  | nil => simp [Sparse.insert, Sparse.get, Ne.symm h]
  | cons p t ih =>
    simp only [Sparse.insert]
    split
    · simp [Sparse.get, Ne.symm h]
    · split
      · rename_i hk
        have : p.1 ≠ j := by omega
        simp [Sparse.get, this, Ne.symm h]
      · simp [Sparse.get, ih]

variable [DecidableEq V]

@[simp] theorem Sparse.get_set_same (d : Nat → V) (m : Sparse V) (k : Nat) (v : V) :
    Sparse.get d (Sparse.set d m k v) k = v := by
  unfold Sparse.set
  split
  · rename_i h; rw [Sparse.get_filter_same, h]
  · exact Sparse.get_insert_same d m k v
theorem Sparse.get_set_other (d : Nat → V) (m : Sparse V) (k j : Nat) (v : V) (h : j ≠ k) :
    Sparse.get d (Sparse.set d m k v) j = Sparse.get d m j := by
  unfold Sparse.set
  split
  · exact Sparse.get_filter_other d m k j h
  · exact Sparse.get_insert_other d m k j v h
theorem Sparse.get_set (d : Nat → V) (m : Sparse V) (k j : Nat) (v : V) :
    Sparse.get d (Sparse.set d m k v) j = if j = k then v else Sparse.get d m j := by
  split
  · rename_i h; subst h; exact Sparse.get_set_same d m j v
  · rename_i h; exact Sparse.get_set_other d m k j v h

theorem Sparse.wfFrom_weaken (d : Nat → V) (m : Sparse V) (lo lo' : Nat) (hl : lo' ≤ lo) (hm : Sparse.wfFrom d lo m = true) :
    Sparse.wfFrom d lo' m = true := by
  cases m with
  | nil => rfl
  | cons q u =>
    simp only [Sparse.wfFrom, Bool.and_eq_true, decide_eq_true_eq] at hm ⊢
    exact ⟨⟨by omega, hm.1.2⟩, hm.2⟩
theorem Sparse.wfFrom_filter (d : Nat → V) (m : Sparse V) (k : Nat) :
    ∀ lo, Sparse.wfFrom d lo m = true → Sparse.wfFrom d lo (m.filter (fun p => !decide (p.1 = k))) = true := by
  induction m with
  | nil => intro lo _; rfl
  | cons p t ih =>
    intro lo h
    simp only [Sparse.wfFrom, Bool.and_eq_true, decide_eq_true_eq] at h
    by_cases e : p.1 = k
    · simp only [List.filter_cons, e, decide_true, Bool.not_true, Bool.false_eq_true, if_false]
      exact Sparse.wfFrom_weaken d _ _ _ (by omega) (ih _ h.2)
    · simp only [List.filter_cons, e, decide_false, Bool.not_false, if_true, Sparse.wfFrom, Bool.and_eq_true, decide_eq_true_eq]
      exact ⟨h.1, ih _ h.2⟩
theorem Sparse.wfFrom_insert (d : Nat → V) (m : Sparse V) (k : Nat) (v : V) (hv : v ≠ d k) :
    ∀ lo, lo ≤ k → Sparse.wfFrom d lo m = true → Sparse.wfFrom d lo (Sparse.insert m k v) = true := by
  induction m with
  | nil => intro lo hk _; simp [Sparse.insert, Sparse.wfFrom, hk, hv]
  | cons p t ih =>
    intro lo hk h
    have hc := h
    simp only [Sparse.wfFrom, Bool.and_eq_true, decide_eq_true_eq] at h
    simp only [Sparse.insert]
    split
    · simp only [Sparse.wfFrom, Bool.and_eq_true, decide_eq_true_eq]
      exact ⟨⟨hk, hv⟩, ⟨by omega, h.1.2⟩, h.2⟩
    · split
      · rename_i h1 h2
        subst h2
        simp only [Sparse.wfFrom, Bool.and_eq_true, decide_eq_true_eq]
        exact ⟨⟨hk, hv⟩, h.2⟩
      · simp only [Sparse.wfFrom, Bool.and_eq_true, decide_eq_true_eq]
        exact ⟨h.1, ih _ (by omega) h.2⟩
/-- A write keeps the canonical form. -/
theorem Sparse.wf_set (d : Nat → V) (m : Sparse V) (k : Nat) (v : V) (h : m.wf d = true) : (Sparse.set d m k v).wf d = true := by
  unfold Sparse.set
  split
  · exact Sparse.wfFrom_filter d m k 0 h
  · rename_i hv; exact Sparse.wfFrom_insert d m k v hv 0 (Nat.zero_le _) h

@[simp] theorem Mem.wf_nil : Mem.wf [] = true := rfl
theorem Mem.wf_write (m : Mem) (a : Nat) (b : Byte) (h : m.wf = true) : (m.write a b).wf = true := Sparse.wf_set _ _ _ _ h
theorem Mem.wf_writeBytes (m : Mem) (a : Nat) (bs : Bytes) (h : m.wf = true) : (m.writeBytes a bs).wf = true := by
  induction bs generalizing m a with
  | nil => exact h
  | cons b t ih => exact ih _ _ (Mem.wf_write m a b h)
@[simp] theorem Mem.read_write_same (m : Mem) (a : Nat) (b : Byte) : (m.write a b).read a = b := Sparse.get_set_same _ _ _ _
theorem Mem.read_write_other (m : Mem) (a c : Nat) (b : Byte) (h : c ≠ a) : (m.write a b).read c = m.read c :=
  Sparse.get_set_other _ _ _ _ _ h
/-- A write of bytes leaves every address outside them alone. -/
theorem Mem.read_writeBytes_outside (m : Mem) (a c : Nat) (bs : Bytes) (h : c < a ∨ a + bs.length ≤ c) :
    (m.writeBytes a bs).read c = m.read c := by
  induction bs generalizing m a with
  | nil => rfl
  | cons b t ih =>
    simp only [List.length_cons] at h
    rw [Mem.writeBytes, ih _ _ (by omega), Mem.read_write_other _ _ _ _ (by omega)]

end Sys2Proof.Machine
end

