-- ==== Sys2Proof/Laws/State.lean ====
section
/-! SUPPORT. Laws of the updates of the state: what each leaves, field by field, and reads after writes of halves, lanes and threads. -/
namespace Sys2Proof.Machine
open Sys2Proof

@[simp] theorem Thread.setG_f (x : Thread) (r : RegNo) (v : Word) : (x.setG r v).f = x.f := by unfold Thread.setG; split <;> rfl
@[simp] theorem Thread.setG_pc (x : Thread) (r : RegNo) (v : Word) : (x.setG r v).pc = x.pc := by unfold Thread.setG; split <;> rfl
@[simp] theorem Thread.setG_ie (x : Thread) (r : RegNo) (v : Word) : (x.setG r v).ie = x.ie := by unfold Thread.setG; split <;> rfl
@[simp] theorem Thread.setG_level (x : Thread) (r : RegNo) (v : Word) : (x.setG r v).level = x.level := by unfold Thread.setG; split <;> rfl
@[simp] theorem Thread.setG_frames (x : Thread) (r : RegNo) (v : Word) : (x.setG r v).frames = x.frames := by unfold Thread.setG; split <;> rfl
@[simp] theorem Thread.setG_vbase (x : Thread) (r : RegNo) (v : Word) : (x.setG r v).vbase = x.vbase := by unfold Thread.setG; split <;> rfl
@[simp] theorem Thread.setG_fcsr (x : Thread) (r : RegNo) (v : Word) : (x.setG r v).fcsr = x.fcsr := by unfold Thread.setG; split <;> rfl
@[simp] theorem Thread.setG_scratch (x : Thread) (r : RegNo) (v : Word) : (x.setG r v).scratch = x.scratch := by unfold Thread.setG; split <;> rfl
@[simp] theorem Thread.setG_vt (x : Thread) (r : RegNo) (v : Word) : (x.setG r v).vt = x.vt := by unfold Thread.setG; split <;> rfl
@[simp] theorem Thread.setG_capVt (x : Thread) (r : RegNo) (v : Word) : (x.setG r v).capVt = x.capVt := by unfold Thread.setG; split <;> rfl
@[simp] theorem Thread.setG_admitted (x : Thread) (r : RegNo) (v : Word) : (x.setG r v).admitted = x.admitted := by unfold Thread.setG; split <;> rfl
@[simp] theorem Thread.setG_active (x : Thread) (r : RegNo) (v : Word) : (x.setG r v).active = x.active := by unfold Thread.setG; split <;> rfl
@[simp] theorem Thread.setG_waiting (x : Thread) (r : RegNo) (v : Word) : (x.setG r v).waiting = x.waiting := by unfold Thread.setG; split <;> rfl
@[simp] theorem Thread.setG_trapped (x : Thread) (r : RegNo) (v : Word) : (x.setG r v).trapped = x.trapped := by unfold Thread.setG; split <;> rfl
@[simp] theorem Thread.setG_slots (x : Thread) (r : RegNo) (v : Word) : (x.setG r v).slots = x.slots := by unfold Thread.setG; split <;> rfl
@[simp] theorem Thread.setG_prefetch (x : Thread) (r : RegNo) (v : Word) : (x.setG r v).prefetch = x.prefetch := by unfold Thread.setG; split <;> rfl
@[simp] theorem Thread.setG_lineBuf (x : Thread) (r : RegNo) (v : Word) : (x.setG r v).lineBuf = x.lineBuf := by unfold Thread.setG; split <;> rfl
@[simp] theorem Thread.setG_sb (x : Thread) (r : RegNo) (v : Word) : (x.setG r v).sb = x.sb := by unfold Thread.setG; split <;> rfl
@[simp] theorem Thread.setG_loads (x : Thread) (r : RegNo) (v : Word) : (x.setG r v).loads = x.loads := by unfold Thread.setG; split <;> rfl
@[simp] theorem Thread.setG_units (x : Thread) (r : RegNo) (v : Word) : (x.setG r v).units = x.units := by unfold Thread.setG; split <;> rfl
@[simp] theorem Thread.setG_entering (x : Thread) (r : RegNo) (v : Word) : (x.setG r v).entering = x.entering := by unfold Thread.setG; split <;> rfl
@[simp] theorem Thread.setF_g (x : Thread) (r : RegNo) (v : Word) : (x.setF r v).g = x.g := rfl
@[simp] theorem Thread.setF_pc (x : Thread) (r : RegNo) (v : Word) : (x.setF r v).pc = x.pc := rfl
@[simp] theorem Thread.setF_ie (x : Thread) (r : RegNo) (v : Word) : (x.setF r v).ie = x.ie := rfl
@[simp] theorem Thread.setF_level (x : Thread) (r : RegNo) (v : Word) : (x.setF r v).level = x.level := rfl
@[simp] theorem Thread.setF_frames (x : Thread) (r : RegNo) (v : Word) : (x.setF r v).frames = x.frames := rfl
@[simp] theorem Thread.setF_vbase (x : Thread) (r : RegNo) (v : Word) : (x.setF r v).vbase = x.vbase := rfl
@[simp] theorem Thread.setF_fcsr (x : Thread) (r : RegNo) (v : Word) : (x.setF r v).fcsr = x.fcsr := rfl
@[simp] theorem Thread.setF_scratch (x : Thread) (r : RegNo) (v : Word) : (x.setF r v).scratch = x.scratch := rfl
@[simp] theorem Thread.setF_vt (x : Thread) (r : RegNo) (v : Word) : (x.setF r v).vt = x.vt := rfl
@[simp] theorem Thread.setF_capVt (x : Thread) (r : RegNo) (v : Word) : (x.setF r v).capVt = x.capVt := rfl
@[simp] theorem Thread.setF_admitted (x : Thread) (r : RegNo) (v : Word) : (x.setF r v).admitted = x.admitted := rfl
@[simp] theorem Thread.setF_active (x : Thread) (r : RegNo) (v : Word) : (x.setF r v).active = x.active := rfl
@[simp] theorem Thread.setF_waiting (x : Thread) (r : RegNo) (v : Word) : (x.setF r v).waiting = x.waiting := rfl
@[simp] theorem Thread.setF_trapped (x : Thread) (r : RegNo) (v : Word) : (x.setF r v).trapped = x.trapped := rfl
@[simp] theorem Thread.setF_slots (x : Thread) (r : RegNo) (v : Word) : (x.setF r v).slots = x.slots := rfl
@[simp] theorem Thread.setF_prefetch (x : Thread) (r : RegNo) (v : Word) : (x.setF r v).prefetch = x.prefetch := rfl
@[simp] theorem Thread.setF_lineBuf (x : Thread) (r : RegNo) (v : Word) : (x.setF r v).lineBuf = x.lineBuf := rfl
@[simp] theorem Thread.setF_sb (x : Thread) (r : RegNo) (v : Word) : (x.setF r v).sb = x.sb := rfl
@[simp] theorem Thread.setF_loads (x : Thread) (r : RegNo) (v : Word) : (x.setF r v).loads = x.loads := rfl
@[simp] theorem Thread.setF_units (x : Thread) (r : RegNo) (v : Word) : (x.setF r v).units = x.units := rfl
@[simp] theorem Thread.setF_entering (x : Thread) (r : RegNo) (v : Word) : (x.setF r v).entering = x.entering := rfl
@[simp] theorem Thread.prune_g (x : Thread) : (x.prune).g = x.g := rfl
@[simp] theorem Thread.prune_f (x : Thread) : (x.prune).f = x.f := rfl
@[simp] theorem Thread.prune_pc (x : Thread) : (x.prune).pc = x.pc := rfl
@[simp] theorem Thread.prune_ie (x : Thread) : (x.prune).ie = x.ie := rfl
@[simp] theorem Thread.prune_level (x : Thread) : (x.prune).level = x.level := rfl
@[simp] theorem Thread.prune_frames (x : Thread) : (x.prune).frames = x.frames := rfl
@[simp] theorem Thread.prune_vbase (x : Thread) : (x.prune).vbase = x.vbase := rfl
@[simp] theorem Thread.prune_fcsr (x : Thread) : (x.prune).fcsr = x.fcsr := rfl
@[simp] theorem Thread.prune_scratch (x : Thread) : (x.prune).scratch = x.scratch := rfl
@[simp] theorem Thread.prune_vt (x : Thread) : (x.prune).vt = x.vt := rfl
@[simp] theorem Thread.prune_capVt (x : Thread) : (x.prune).capVt = x.capVt := rfl
@[simp] theorem Thread.prune_admitted (x : Thread) : (x.prune).admitted = x.admitted := rfl
@[simp] theorem Thread.prune_active (x : Thread) : (x.prune).active = x.active := rfl
@[simp] theorem Thread.prune_waiting (x : Thread) : (x.prune).waiting = x.waiting := rfl
@[simp] theorem Thread.prune_trapped (x : Thread) : (x.prune).trapped = x.trapped := rfl
@[simp] theorem Thread.prune_slots (x : Thread) : (x.prune).slots = x.slots := rfl
@[simp] theorem Thread.prune_lineBuf (x : Thread) : (x.prune).lineBuf = x.lineBuf := rfl
@[simp] theorem Thread.prune_sb (x : Thread) : (x.prune).sb = x.sb := rfl
@[simp] theorem Thread.prune_loads (x : Thread) : (x.prune).loads = x.loads := rfl
@[simp] theorem Thread.prune_units (x : Thread) : (x.prune).units = x.units := rfl
@[simp] theorem Thread.prune_entering (x : Thread) : (x.prune).entering = x.entering := rfl
@[simp] theorem Thread.next_g (x : Thread) : (x.next).g = x.g := rfl
@[simp] theorem Thread.next_f (x : Thread) : (x.next).f = x.f := rfl
@[simp] theorem Thread.next_ie (x : Thread) : (x.next).ie = x.ie := rfl
@[simp] theorem Thread.next_level (x : Thread) : (x.next).level = x.level := rfl
@[simp] theorem Thread.next_frames (x : Thread) : (x.next).frames = x.frames := rfl
@[simp] theorem Thread.next_vbase (x : Thread) : (x.next).vbase = x.vbase := rfl
@[simp] theorem Thread.next_fcsr (x : Thread) : (x.next).fcsr = x.fcsr := rfl
@[simp] theorem Thread.next_scratch (x : Thread) : (x.next).scratch = x.scratch := rfl
@[simp] theorem Thread.next_vt (x : Thread) : (x.next).vt = x.vt := rfl
@[simp] theorem Thread.next_capVt (x : Thread) : (x.next).capVt = x.capVt := rfl
@[simp] theorem Thread.next_admitted (x : Thread) : (x.next).admitted = x.admitted := rfl
@[simp] theorem Thread.next_active (x : Thread) : (x.next).active = x.active := rfl
@[simp] theorem Thread.next_waiting (x : Thread) : (x.next).waiting = x.waiting := rfl
@[simp] theorem Thread.next_trapped (x : Thread) : (x.next).trapped = x.trapped := rfl
@[simp] theorem Thread.next_slots (x : Thread) : (x.next).slots = x.slots := rfl
@[simp] theorem Thread.next_lineBuf (x : Thread) : (x.next).lineBuf = x.lineBuf := rfl
@[simp] theorem Thread.next_sb (x : Thread) : (x.next).sb = x.sb := rfl
@[simp] theorem Thread.next_loads (x : Thread) : (x.next).loads = x.loads := rfl
@[simp] theorem Thread.next_units (x : Thread) : (x.next).units = x.units := rfl
@[simp] theorem Thread.jump_g (x : Thread) (a : Word) : (x.jump a).g = x.g := rfl
@[simp] theorem Thread.jump_f (x : Thread) (a : Word) : (x.jump a).f = x.f := rfl
@[simp] theorem Thread.jump_ie (x : Thread) (a : Word) : (x.jump a).ie = x.ie := rfl
@[simp] theorem Thread.jump_level (x : Thread) (a : Word) : (x.jump a).level = x.level := rfl
@[simp] theorem Thread.jump_frames (x : Thread) (a : Word) : (x.jump a).frames = x.frames := rfl
@[simp] theorem Thread.jump_vbase (x : Thread) (a : Word) : (x.jump a).vbase = x.vbase := rfl
@[simp] theorem Thread.jump_fcsr (x : Thread) (a : Word) : (x.jump a).fcsr = x.fcsr := rfl
@[simp] theorem Thread.jump_scratch (x : Thread) (a : Word) : (x.jump a).scratch = x.scratch := rfl
@[simp] theorem Thread.jump_vt (x : Thread) (a : Word) : (x.jump a).vt = x.vt := rfl
@[simp] theorem Thread.jump_capVt (x : Thread) (a : Word) : (x.jump a).capVt = x.capVt := rfl
@[simp] theorem Thread.jump_admitted (x : Thread) (a : Word) : (x.jump a).admitted = x.admitted := rfl
@[simp] theorem Thread.jump_active (x : Thread) (a : Word) : (x.jump a).active = x.active := rfl
@[simp] theorem Thread.jump_waiting (x : Thread) (a : Word) : (x.jump a).waiting = x.waiting := rfl
@[simp] theorem Thread.jump_trapped (x : Thread) (a : Word) : (x.jump a).trapped = x.trapped := rfl
@[simp] theorem Thread.jump_slots (x : Thread) (a : Word) : (x.jump a).slots = x.slots := rfl
@[simp] theorem Thread.jump_lineBuf (x : Thread) (a : Word) : (x.jump a).lineBuf = x.lineBuf := rfl
@[simp] theorem Thread.jump_sb (x : Thread) (a : Word) : (x.jump a).sb = x.sb := rfl
@[simp] theorem Thread.jump_loads (x : Thread) (a : Word) : (x.jump a).loads = x.loads := rfl
@[simp] theorem Thread.jump_units (x : Thread) (a : Word) : (x.jump a).units = x.units := rfl
@[simp] theorem Thread.charge_g (e : CoreEnv) (n : Nat) (x : Thread) : (x.charge e n).g = x.g := by unfold Thread.charge; split <;> rfl
@[simp] theorem Thread.charge_f (e : CoreEnv) (n : Nat) (x : Thread) : (x.charge e n).f = x.f := by unfold Thread.charge; split <;> rfl
@[simp] theorem Thread.charge_pc (e : CoreEnv) (n : Nat) (x : Thread) : (x.charge e n).pc = x.pc := by unfold Thread.charge; split <;> rfl
@[simp] theorem Thread.charge_ie (e : CoreEnv) (n : Nat) (x : Thread) : (x.charge e n).ie = x.ie := by unfold Thread.charge; split <;> rfl
@[simp] theorem Thread.charge_level (e : CoreEnv) (n : Nat) (x : Thread) : (x.charge e n).level = x.level := by unfold Thread.charge; split <;> rfl
@[simp] theorem Thread.charge_frames (e : CoreEnv) (n : Nat) (x : Thread) : (x.charge e n).frames = x.frames := by unfold Thread.charge; split <;> rfl
@[simp] theorem Thread.charge_vbase (e : CoreEnv) (n : Nat) (x : Thread) : (x.charge e n).vbase = x.vbase := by unfold Thread.charge; split <;> rfl
@[simp] theorem Thread.charge_fcsr (e : CoreEnv) (n : Nat) (x : Thread) : (x.charge e n).fcsr = x.fcsr := by unfold Thread.charge; split <;> rfl
@[simp] theorem Thread.charge_scratch (e : CoreEnv) (n : Nat) (x : Thread) : (x.charge e n).scratch = x.scratch := by unfold Thread.charge; split <;> rfl
@[simp] theorem Thread.charge_capVt (e : CoreEnv) (n : Nat) (x : Thread) : (x.charge e n).capVt = x.capVt := by unfold Thread.charge; split <;> rfl
@[simp] theorem Thread.charge_admitted (e : CoreEnv) (n : Nat) (x : Thread) : (x.charge e n).admitted = x.admitted := by unfold Thread.charge; split <;> rfl
@[simp] theorem Thread.charge_active (e : CoreEnv) (n : Nat) (x : Thread) : (x.charge e n).active = x.active := by unfold Thread.charge; split <;> rfl
@[simp] theorem Thread.charge_waiting (e : CoreEnv) (n : Nat) (x : Thread) : (x.charge e n).waiting = x.waiting := by unfold Thread.charge; split <;> rfl
@[simp] theorem Thread.charge_trapped (e : CoreEnv) (n : Nat) (x : Thread) : (x.charge e n).trapped = x.trapped := by unfold Thread.charge; split <;> rfl
@[simp] theorem Thread.charge_slots (e : CoreEnv) (n : Nat) (x : Thread) : (x.charge e n).slots = x.slots := by unfold Thread.charge; split <;> rfl
@[simp] theorem Thread.charge_prefetch (e : CoreEnv) (n : Nat) (x : Thread) : (x.charge e n).prefetch = x.prefetch := by unfold Thread.charge; split <;> rfl
@[simp] theorem Thread.charge_lineBuf (e : CoreEnv) (n : Nat) (x : Thread) : (x.charge e n).lineBuf = x.lineBuf := by unfold Thread.charge; split <;> rfl
@[simp] theorem Thread.charge_sb (e : CoreEnv) (n : Nat) (x : Thread) : (x.charge e n).sb = x.sb := by unfold Thread.charge; split <;> rfl
@[simp] theorem Thread.charge_loads (e : CoreEnv) (n : Nat) (x : Thread) : (x.charge e n).loads = x.loads := by unfold Thread.charge; split <;> rfl
@[simp] theorem Thread.charge_units (e : CoreEnv) (n : Nat) (x : Thread) : (x.charge e n).units = x.units := by unfold Thread.charge; split <;> rfl
@[simp] theorem Thread.charge_entering (e : CoreEnv) (n : Nat) (x : Thread) : (x.charge e n).entering = x.entering := by unfold Thread.charge; split <;> rfl
@[simp] theorem Thread.stampNow_g (e : CoreEnv) (x : Thread) : (x.stampNow e).g = x.g := by unfold Thread.stampNow; split <;> rfl
@[simp] theorem Thread.stampNow_f (e : CoreEnv) (x : Thread) : (x.stampNow e).f = x.f := by unfold Thread.stampNow; split <;> rfl
@[simp] theorem Thread.stampNow_pc (e : CoreEnv) (x : Thread) : (x.stampNow e).pc = x.pc := by unfold Thread.stampNow; split <;> rfl
@[simp] theorem Thread.stampNow_ie (e : CoreEnv) (x : Thread) : (x.stampNow e).ie = x.ie := by unfold Thread.stampNow; split <;> rfl
@[simp] theorem Thread.stampNow_level (e : CoreEnv) (x : Thread) : (x.stampNow e).level = x.level := by unfold Thread.stampNow; split <;> rfl
@[simp] theorem Thread.stampNow_frames (e : CoreEnv) (x : Thread) : (x.stampNow e).frames = x.frames := by unfold Thread.stampNow; split <;> rfl
@[simp] theorem Thread.stampNow_vbase (e : CoreEnv) (x : Thread) : (x.stampNow e).vbase = x.vbase := by unfold Thread.stampNow; split <;> rfl
@[simp] theorem Thread.stampNow_fcsr (e : CoreEnv) (x : Thread) : (x.stampNow e).fcsr = x.fcsr := by unfold Thread.stampNow; split <;> rfl
@[simp] theorem Thread.stampNow_scratch (e : CoreEnv) (x : Thread) : (x.stampNow e).scratch = x.scratch := by unfold Thread.stampNow; split <;> rfl
@[simp] theorem Thread.stampNow_capVt (e : CoreEnv) (x : Thread) : (x.stampNow e).capVt = x.capVt := by unfold Thread.stampNow; split <;> rfl
@[simp] theorem Thread.stampNow_admitted (e : CoreEnv) (x : Thread) : (x.stampNow e).admitted = x.admitted := by unfold Thread.stampNow; split <;> rfl
@[simp] theorem Thread.stampNow_active (e : CoreEnv) (x : Thread) : (x.stampNow e).active = x.active := by unfold Thread.stampNow; split <;> rfl
@[simp] theorem Thread.stampNow_waiting (e : CoreEnv) (x : Thread) : (x.stampNow e).waiting = x.waiting := by unfold Thread.stampNow; split <;> rfl
@[simp] theorem Thread.stampNow_trapped (e : CoreEnv) (x : Thread) : (x.stampNow e).trapped = x.trapped := by unfold Thread.stampNow; split <;> rfl
@[simp] theorem Thread.stampNow_slots (e : CoreEnv) (x : Thread) : (x.stampNow e).slots = x.slots := by unfold Thread.stampNow; split <;> rfl
@[simp] theorem Thread.stampNow_prefetch (e : CoreEnv) (x : Thread) : (x.stampNow e).prefetch = x.prefetch := by unfold Thread.stampNow; split <;> rfl
@[simp] theorem Thread.stampNow_lineBuf (e : CoreEnv) (x : Thread) : (x.stampNow e).lineBuf = x.lineBuf := by unfold Thread.stampNow; split <;> rfl
@[simp] theorem Thread.stampNow_sb (e : CoreEnv) (x : Thread) : (x.stampNow e).sb = x.sb := by unfold Thread.stampNow; split <;> rfl
@[simp] theorem Thread.stampNow_loads (e : CoreEnv) (x : Thread) : (x.stampNow e).loads = x.loads := by unfold Thread.stampNow; split <;> rfl
@[simp] theorem Thread.stampNow_units (e : CoreEnv) (x : Thread) : (x.stampNow e).units = x.units := by unfold Thread.stampNow; split <;> rfl
@[simp] theorem Thread.stampNow_entering (e : CoreEnv) (x : Thread) : (x.stampNow e).entering = x.entering := by unfold Thread.stampNow; split <;> rfl
@[simp] theorem Thread.trap_g (x : Thread) : (x.trap).g = x.g := rfl
@[simp] theorem Thread.trap_f (x : Thread) : (x.trap).f = x.f := rfl
@[simp] theorem Thread.trap_pc (x : Thread) : (x.trap).pc = x.pc := rfl
@[simp] theorem Thread.trap_ie (x : Thread) : (x.trap).ie = x.ie := rfl
@[simp] theorem Thread.trap_level (x : Thread) : (x.trap).level = x.level := rfl
@[simp] theorem Thread.trap_frames (x : Thread) : (x.trap).frames = x.frames := rfl
@[simp] theorem Thread.trap_vbase (x : Thread) : (x.trap).vbase = x.vbase := rfl
@[simp] theorem Thread.trap_fcsr (x : Thread) : (x.trap).fcsr = x.fcsr := rfl
@[simp] theorem Thread.trap_scratch (x : Thread) : (x.trap).scratch = x.scratch := rfl
@[simp] theorem Thread.trap_vt (x : Thread) : (x.trap).vt = x.vt := rfl
@[simp] theorem Thread.trap_capVt (x : Thread) : (x.trap).capVt = x.capVt := rfl
@[simp] theorem Thread.trap_admitted (x : Thread) : (x.trap).admitted = x.admitted := rfl
@[simp] theorem Thread.trap_slots (x : Thread) : (x.trap).slots = x.slots := rfl
@[simp] theorem Thread.trap_prefetch (x : Thread) : (x.trap).prefetch = x.prefetch := rfl
@[simp] theorem Thread.trap_lineBuf (x : Thread) : (x.trap).lineBuf = x.lineBuf := rfl
@[simp] theorem Thread.trap_sb (x : Thread) : (x.trap).sb = x.sb := rfl
@[simp] theorem Thread.trap_loads (x : Thread) : (x.trap).loads = x.loads := rfl
@[simp] theorem Thread.trap_units (x : Thread) : (x.trap).units = x.units := rfl
@[simp] theorem Thread.trap_entering (x : Thread) : (x.trap).entering = x.entering := rfl
@[simp] theorem Lane.setThread_phase (x : Lane) (t : Nat) (y : Thread) : (x.setThread t y).phase = x.phase := rfl
@[simp] theorem Lane.setThread_block (x : Lane) (t : Nat) (y : Thread) : (x.setThread t y).block = x.block := rfl
@[simp] theorem Lane.setThread_title (x : Lane) (t : Nat) (y : Thread) : (x.setThread t y).title = x.title := rfl
@[simp] theorem Lane.setThread_titleLen (x : Lane) (t : Nat) (y : Thread) : (x.setThread t y).titleLen = x.titleLen := rfl
@[simp] theorem Lane.setThread_core (x : Lane) (t : Nat) (y : Thread) : (x.setThread t y).core = x.core := rfl
@[simp] theorem Lane.setThread_det (x : Lane) (t : Nat) (y : Thread) : (x.setThread t y).det = x.det := rfl
@[simp] theorem Lane.setThread_prio (x : Lane) (t : Nat) (y : Thread) : (x.setThread t y).prio = x.prio := rfl
@[simp] theorem Lane.setThread_ckptPages (x : Lane) (t : Nat) (y : Thread) : (x.setThread t y).ckptPages = x.ckptPages := rfl
@[simp] theorem Lane.setThread_inputDelay (x : Lane) (t : Nat) (y : Thread) : (x.setThread t y).inputDelay = x.inputDelay := rfl
@[simp] theorem Lane.setThread_unit (x : Lane) (t : Nat) (y : Thread) : (x.setThread t y).unit = x.unit := rfl
@[simp] theorem Lane.setThread_tail (x : Lane) (t : Nat) (y : Thread) : (x.setThread t y).tail = x.tail := rfl
@[simp] theorem Lane.setThread_tailWr (x : Lane) (t : Nat) (y : Thread) : (x.setThread t y).tailWr = x.tailWr := rfl
@[simp] theorem Lane.setThread_tailAt (x : Lane) (t : Nat) (y : Thread) : (x.setThread t y).tailAt = x.tailAt := rfl
@[simp] theorem Lane.setThread_op (x : Lane) (t : Nat) (y : Thread) : (x.setThread t y).op = x.op := rfl
@[simp] theorem Lane.setThread_mem (x : Lane) (t : Nat) (y : Thread) : (x.setThread t y).mem = x.mem := rfl
@[simp] theorem Lane.setThread_log (x : Lane) (t : Nat) (y : Thread) : (x.setThread t y).log = x.log := rfl
@[simp] theorem Lane.setThread_gate (x : Lane) (t : Nat) (y : Thread) : (x.setThread t y).gate = x.gate := rfl
@[simp] theorem Lane.setThread_near (x : Lane) (t : Nat) (y : Thread) : (x.setThread t y).near = x.near := rfl
@[simp] theorem Lane.setThread_bvt (x : Lane) (t : Nat) (y : Thread) : (x.setThread t y).bvt = x.bvt := rfl
@[simp] theorem Lane.setThread_mil (x : Lane) (t : Nat) (y : Thread) : (x.setThread t y).mil = x.mil := rfl
@[simp] theorem Lane.setThread_late (x : Lane) (t : Nat) (y : Thread) : (x.setThread t y).late = x.late := rfl
@[simp] theorem Lane.setThread_lateAt (x : Lane) (t : Nat) (y : Thread) : (x.setThread t y).lateAt = x.lateAt := rfl
@[simp] theorem Lane.setThread_hold (x : Lane) (t : Nat) (y : Thread) : (x.setThread t y).hold = x.hold := rfl
@[simp] theorem Lane.setThread_holdAt (x : Lane) (t : Nat) (y : Thread) : (x.setThread t y).holdAt = x.holdAt := rfl
@[simp] theorem Lane.setThread_copied (x : Lane) (t : Nat) (y : Thread) : (x.setThread t y).copied = x.copied := rfl
@[simp] theorem Lane.setThread_queue (x : Lane) (t : Nat) (y : Thread) : (x.setThread t y).queue = x.queue := rfl
@[simp] theorem Lane.setThread_replies (x : Lane) (t : Nat) (y : Thread) : (x.setThread t y).replies = x.replies := rfl
@[simp] theorem Lane.setThread_cross (x : Lane) (t : Nat) (y : Thread) : (x.setThread t y).cross = x.cross := rfl
@[simp] theorem Lane.setThread_inputs (x : Lane) (t : Nat) (y : Thread) : (x.setThread t y).inputs = x.inputs := rfl
@[simp] theorem Lane.setThread_inOrder (x : Lane) (t : Nat) (y : Thread) : (x.setThread t y).inOrder = x.inOrder := rfl
@[simp] theorem Lane.setThread_opRecords (x : Lane) (t : Nat) (y : Thread) : (x.setThread t y).opRecords = x.opRecords := rfl
@[simp] theorem Lane.setThread_meters (x : Lane) (t : Nat) (y : Thread) : (x.setThread t y).meters = x.meters := rfl
@[simp] theorem Lane.setThread_pauseDue (x : Lane) (t : Nat) (y : Thread) : (x.setThread t y).pauseDue = x.pauseDue := rfl
@[simp] theorem Lane.setThread_pausedFor (x : Lane) (t : Nat) (y : Thread) : (x.setThread t y).pausedFor = x.pausedFor := rfl
@[simp] theorem Lane.setThread_pauseCmds (x : Lane) (t : Nat) (y : Thread) : (x.setThread t y).pauseCmds = x.pauseCmds := rfl
@[simp] theorem Lane.setThread_ckpts (x : Lane) (t : Nat) (y : Thread) : (x.setThread t y).ckpts = x.ckpts := rfl
@[simp] theorem Lane.setThread_early (x : Lane) (t : Nat) (y : Thread) : (x.setThread t y).early = x.early := rfl
@[simp] theorem Lane.setThread_pages (x : Lane) (t : Nat) (y : Thread) : (x.setThread t y).pages = x.pages := rfl
@[simp] theorem Lane.setThread_roll (x : Lane) (t : Nat) (y : Thread) : (x.setThread t y).roll = x.roll := rfl
@[simp] theorem Lane.setThread_lostCkpts (x : Lane) (t : Nat) (y : Thread) : (x.setThread t y).lostCkpts = x.lostCkpts := rfl
@[simp] theorem Lane.setThread_rollbacks (x : Lane) (t : Nat) (y : Thread) : (x.setThread t y).rollbacks = x.rollbacks := rfl
@[simp] theorem Lane.setThread_audio (x : Lane) (t : Nat) (y : Thread) : (x.setThread t y).audio = x.audio := rfl
@[simp] theorem Lane.setThread_enc (x : Lane) (t : Nat) (y : Thread) : (x.setThread t y).enc = x.enc := rfl
@[simp] theorem Lane.setThread_snap (x : Lane) (t : Nat) (y : Thread) : (x.setThread t y).snap = x.snap := rfl
@[simp] theorem Lane.setThread_opqPend (x : Lane) (t : Nat) (y : Thread) : (x.setThread t y).opqPend = x.opqPend := rfl
@[simp] theorem Lane.setThread_opqBits (x : Lane) (t : Nat) (y : Thread) : (x.setThread t y).opqBits = x.opqBits := rfl
@[simp] theorem Lane.setThread_lastPads (x : Lane) (t : Nat) (y : Thread) : (x.setThread t y).lastPads = x.lastPads := rfl
@[simp] theorem Lane.setThread_lastAcc (x : Lane) (t : Nat) (y : Thread) : (x.setThread t y).lastAcc = x.lastAcc := rfl
@[simp] theorem Lane.setThread_draws (x : Lane) (t : Nat) (y : Thread) : (x.setThread t y).draws = x.draws := rfl
@[simp] theorem Lane.setThread_hidden (x : Lane) (t : Nat) (y : Thread) : (x.setThread t y).hidden = x.hidden := rfl
@[simp] theorem Lane.setThread_nearAt (x : Lane) (t : Nat) (y : Thread) : (x.setThread t y).nearAt = x.nearAt := rfl
@[simp] theorem Lane.setThread_stopping (x : Lane) (t : Nat) (y : Thread) : (x.setThread t y).stopping = x.stopping := rfl
@[simp] theorem Lane.setThread_startCmd (x : Lane) (t : Nat) (y : Thread) : (x.setThread t y).startCmd = x.startCmd := rfl
@[simp] theorem Half.putLane_net (x : Half) (i : Nat) (L : Lane) : (x.putLane i L).net = x.net := rfl
@[simp] theorem Half.putLane_qps (x : Half) (i : Nat) (L : Lane) : (x.putLane i L).qps = x.qps := rfl
@[simp] theorem Half.putLane_ev (x : Half) (i : Nat) (L : Lane) : (x.putLane i L).ev = x.ev := rfl
@[simp] theorem Half.putLane_msix (x : Half) (i : Nat) (L : Lane) : (x.putLane i L).msix = x.msix := rfl
@[simp] theorem Half.putLane_sys (x : Half) (i : Nat) (L : Lane) : (x.putLane i L).sys = x.sys := rfl
@[simp] theorem Half.putLane_sysMem (x : Half) (i : Nat) (L : Lane) : (x.putLane i L).sysMem = x.sysMem := rfl
@[simp] theorem Half.putLane_icache (x : Half) (i : Nat) (L : Lane) : (x.putLane i L).icache = x.icache := rfl
@[simp] theorem Half.putLane_dcache (x : Half) (i : Nat) (L : Lane) : (x.putLane i L).dcache = x.dcache := rfl
@[simp] theorem Half.putLane_slots (x : Half) (i : Nat) (L : Lane) : (x.putLane i L).slots = x.slots := rfl
@[simp] theorem Half.putLane_ctxs (x : Half) (i : Nat) (L : Lane) : (x.putLane i L).ctxs = x.ctxs := rfl
@[simp] theorem Half.putLane_coreStat (x : Half) (i : Nat) (L : Lane) : (x.putLane i L).coreStat = x.coreStat := rfl
@[simp] theorem Half.putLane_slotNow (x : Half) (i : Nat) (L : Lane) : (x.putLane i L).slotNow = x.slotNow := rfl
@[simp] theorem Half.putLane_borrowed (x : Half) (i : Nat) (L : Lane) : (x.putLane i L).borrowed = x.borrowed := rfl
@[simp] theorem Half.putLane_titles (x : Half) (i : Nat) (L : Lane) : (x.putLane i L).titles = x.titles := rfl
@[simp] theorem Half.putLane_sp (x : Half) (i : Nat) (L : Lane) : (x.putLane i L).sp = x.sp := rfl
@[simp] theorem Half.putLane_auth (x : Half) (i : Nat) (L : Lane) : (x.putLane i L).auth = x.auth := rfl
@[simp] theorem Half.putLane_mon (x : Half) (i : Nat) (L : Lane) : (x.putLane i L).mon = x.mon := rfl
@[simp] theorem Half.putLane_life (x : Half) (i : Nat) (L : Lane) : (x.putLane i L).life = x.life := rfl
@[simp] theorem Half.putLane_boot (x : Half) (i : Nat) (L : Lane) : (x.putLane i L).boot = x.boot := rfl
@[simp] theorem Half.putLane_fw (x : Half) (i : Nat) (L : Lane) : (x.putLane i L).fw = x.fw := rfl
@[simp] theorem Half.putLane_pins (x : Half) (i : Nat) (L : Lane) : (x.putLane i L).pins = x.pins := rfl
@[simp] theorem Half.putLane_drain (x : Half) (i : Nat) (L : Lane) : (x.putLane i L).drain = x.drain := rfl
@[simp] theorem Half.putLane_band (x : Half) (i : Nat) (L : Lane) : (x.putLane i L).band = x.band := rfl
@[simp] theorem Half.putLane_ohms (x : Half) (i : Nat) (L : Lane) : (x.putLane i L).ohms = x.ohms := rfl
@[simp] theorem Half.putLane_draws (x : Half) (i : Nat) (L : Lane) : (x.putLane i L).draws = x.draws := rfl
@[simp] theorem Half.putLane_msixEnable (x : Half) (i : Nat) (L : Lane) : (x.putLane i L).msixEnable = x.msixEnable := rfl
@[simp] theorem Half.putLane_msixMask (x : Half) (i : Nat) (L : Lane) : (x.putLane i L).msixMask = x.msixMask := rfl
@[simp] theorem Half.putLane_issued (x : Half) (i : Nat) (L : Lane) : (x.putLane i L).issued = x.issued := rfl
@[simp] theorem State.putHalf_time (x : State) (h : HalfId) (H : Half) : (x.putHalf h H).time = x.time := by cases h <;> rfl
@[simp] theorem State.putHalf_powered (x : State) (h : HalfId) (H : Half) : (x.putHalf h H).powered = x.powered := by cases h <;> rfl
@[simp] theorem State.putHalf_inReset (x : State) (h : HalfId) (H : Half) : (x.putHalf h H).inReset = x.inReset := by cases h <;> rfl
@[simp] theorem State.putHalf_ready (x : State) (h : HalfId) (H : Half) : (x.putHalf h H).ready = x.ready := by cases h <;> rfl
@[simp] theorem State.putHalf_safe (x : State) (h : HalfId) (H : Half) : (x.putHalf h H).safe = x.safe := by cases h <;> rfl
@[simp] theorem State.putHalf_thermtrip (x : State) (h : HalfId) (H : Half) : (x.putHalf h H).thermtrip = x.thermtrip := by cases h <;> rfl
@[simp] theorem State.putHalf_presence (x : State) (h : HalfId) (H : Half) : (x.putHalf h H).presence = x.presence := by cases h <;> rfl
@[simp] theorem State.putHalf_cmds (x : State) (h : HalfId) (H : Half) : (x.putHalf h H).cmds = x.cmds := by cases h <;> rfl
@[simp] theorem State.putHalf_nextCmd (x : State) (h : HalfId) (H : Half) : (x.putHalf h H).nextCmd = x.nextCmd := by cases h <;> rfl
@[simp] theorem State.putHalf_smReplies (x : State) (h : HalfId) (H : Half) : (x.putHalf h H).smReplies = x.smReplies := by cases h <;> rfl
@[simp] theorem State.putHalf_out (x : State) (h : HalfId) (H : Half) : (x.putHalf h H).out = x.out := by cases h <;> rfl
@[simp] theorem State.putHalf_images (x : State) (h : HalfId) (H : Half) : (x.putHalf h H).images = x.images := by cases h <;> rfl
@[simp] theorem State.putHalf_freeCtr (x : State) (h : HalfId) (H : Half) : (x.putHalf h H).freeCtr = x.freeCtr := by cases h <;> rfl
@[simp] theorem State.putHalf_pending (x : State) (h : HalfId) (H : Half) : (x.putHalf h H).pending = x.pending := by cases h <;> rfl
@[simp] theorem State.putLane_time (x : State) (l : Nat) (L : Lane) : (x.putLane l L).time = x.time := by unfold State.putLane; simp
@[simp] theorem State.putLane_powered (x : State) (l : Nat) (L : Lane) : (x.putLane l L).powered = x.powered := by unfold State.putLane; simp
@[simp] theorem State.putLane_inReset (x : State) (l : Nat) (L : Lane) : (x.putLane l L).inReset = x.inReset := by unfold State.putLane; simp
@[simp] theorem State.putLane_ready (x : State) (l : Nat) (L : Lane) : (x.putLane l L).ready = x.ready := by unfold State.putLane; simp
@[simp] theorem State.putLane_safe (x : State) (l : Nat) (L : Lane) : (x.putLane l L).safe = x.safe := by unfold State.putLane; simp
@[simp] theorem State.putLane_thermtrip (x : State) (l : Nat) (L : Lane) : (x.putLane l L).thermtrip = x.thermtrip := by unfold State.putLane; simp
@[simp] theorem State.putLane_presence (x : State) (l : Nat) (L : Lane) : (x.putLane l L).presence = x.presence := by unfold State.putLane; simp
@[simp] theorem State.putLane_cmds (x : State) (l : Nat) (L : Lane) : (x.putLane l L).cmds = x.cmds := by unfold State.putLane; simp
@[simp] theorem State.putLane_nextCmd (x : State) (l : Nat) (L : Lane) : (x.putLane l L).nextCmd = x.nextCmd := by unfold State.putLane; simp
@[simp] theorem State.putLane_smReplies (x : State) (l : Nat) (L : Lane) : (x.putLane l L).smReplies = x.smReplies := by unfold State.putLane; simp
@[simp] theorem State.putLane_out (x : State) (l : Nat) (L : Lane) : (x.putLane l L).out = x.out := by unfold State.putLane; simp
@[simp] theorem State.putLane_images (x : State) (l : Nat) (L : Lane) : (x.putLane l L).images = x.images := by unfold State.putLane; simp
@[simp] theorem State.putLane_freeCtr (x : State) (l : Nat) (L : Lane) : (x.putLane l L).freeCtr = x.freeCtr := by unfold State.putLane; simp
@[simp] theorem State.putLane_pending (x : State) (l : Nat) (L : Lane) : (x.putLane l L).pending = x.pending := by unfold State.putLane; simp
@[simp] theorem State.at_powered (x : State) (tm : Nat) : (x.at tm).powered = x.powered := rfl
@[simp] theorem State.at_inReset (x : State) (tm : Nat) : (x.at tm).inReset = x.inReset := rfl
@[simp] theorem State.at_ready (x : State) (tm : Nat) : (x.at tm).ready = x.ready := rfl
@[simp] theorem State.at_safe (x : State) (tm : Nat) : (x.at tm).safe = x.safe := rfl
@[simp] theorem State.at_thermtrip (x : State) (tm : Nat) : (x.at tm).thermtrip = x.thermtrip := rfl
@[simp] theorem State.at_east (x : State) (tm : Nat) : (x.at tm).east = x.east := rfl
@[simp] theorem State.at_west (x : State) (tm : Nat) : (x.at tm).west = x.west := rfl
@[simp] theorem State.at_presence (x : State) (tm : Nat) : (x.at tm).presence = x.presence := rfl
@[simp] theorem State.at_cmds (x : State) (tm : Nat) : (x.at tm).cmds = x.cmds := rfl
@[simp] theorem State.at_nextCmd (x : State) (tm : Nat) : (x.at tm).nextCmd = x.nextCmd := rfl
@[simp] theorem State.at_smReplies (x : State) (tm : Nat) : (x.at tm).smReplies = x.smReplies := rfl
@[simp] theorem State.at_out (x : State) (tm : Nat) : (x.at tm).out = x.out := rfl
@[simp] theorem State.at_images (x : State) (tm : Nat) : (x.at tm).images = x.images := rfl
@[simp] theorem State.at_freeCtr (x : State) (tm : Nat) : (x.at tm).freeCtr = x.freeCtr := rfl
@[simp] theorem State.at_pending (x : State) (tm : Nat) : (x.at tm).pending = x.pending := rfl
@[simp] theorem State.putThread_time (x : State) (c : Ctx) (y : Thread) : (x.putThread c y).time = x.time := by cases c <;> simp [State.putThread]
@[simp] theorem State.putThread_powered (x : State) (c : Ctx) (y : Thread) : (x.putThread c y).powered = x.powered := by cases c <;> simp [State.putThread]
@[simp] theorem State.putThread_inReset (x : State) (c : Ctx) (y : Thread) : (x.putThread c y).inReset = x.inReset := by cases c <;> simp [State.putThread]
@[simp] theorem State.putThread_ready (x : State) (c : Ctx) (y : Thread) : (x.putThread c y).ready = x.ready := by cases c <;> simp [State.putThread]
@[simp] theorem State.putThread_safe (x : State) (c : Ctx) (y : Thread) : (x.putThread c y).safe = x.safe := by cases c <;> simp [State.putThread]
@[simp] theorem State.putThread_thermtrip (x : State) (c : Ctx) (y : Thread) : (x.putThread c y).thermtrip = x.thermtrip := by cases c <;> simp [State.putThread]
@[simp] theorem State.putThread_presence (x : State) (c : Ctx) (y : Thread) : (x.putThread c y).presence = x.presence := by cases c <;> simp [State.putThread]
@[simp] theorem State.putThread_cmds (x : State) (c : Ctx) (y : Thread) : (x.putThread c y).cmds = x.cmds := by cases c <;> simp [State.putThread]
@[simp] theorem State.putThread_nextCmd (x : State) (c : Ctx) (y : Thread) : (x.putThread c y).nextCmd = x.nextCmd := by cases c <;> simp [State.putThread]
@[simp] theorem State.putThread_smReplies (x : State) (c : Ctx) (y : Thread) : (x.putThread c y).smReplies = x.smReplies := by cases c <;> simp [State.putThread]
@[simp] theorem State.putThread_out (x : State) (c : Ctx) (y : Thread) : (x.putThread c y).out = x.out := by cases c <;> simp [State.putThread]
@[simp] theorem State.putThread_images (x : State) (c : Ctx) (y : Thread) : (x.putThread c y).images = x.images := by cases c <;> simp [State.putThread]
@[simp] theorem State.putThread_freeCtr (x : State) (c : Ctx) (y : Thread) : (x.putThread c y).freeCtr = x.freeCtr := by cases c <;> simp [State.putThread]
@[simp] theorem State.putThread_pending (x : State) (c : Ctx) (y : Thread) : (x.putThread c y).pending = x.pending := by cases c <;> simp [State.putThread]
@[simp] theorem State.putCmd_time (x : State) (c : Cmd) : (x.putCmd c).time = x.time := rfl
@[simp] theorem State.putCmd_powered (x : State) (c : Cmd) : (x.putCmd c).powered = x.powered := rfl
@[simp] theorem State.putCmd_inReset (x : State) (c : Cmd) : (x.putCmd c).inReset = x.inReset := rfl
@[simp] theorem State.putCmd_ready (x : State) (c : Cmd) : (x.putCmd c).ready = x.ready := rfl
@[simp] theorem State.putCmd_safe (x : State) (c : Cmd) : (x.putCmd c).safe = x.safe := rfl
@[simp] theorem State.putCmd_thermtrip (x : State) (c : Cmd) : (x.putCmd c).thermtrip = x.thermtrip := rfl
@[simp] theorem State.putCmd_east (x : State) (c : Cmd) : (x.putCmd c).east = x.east := rfl
@[simp] theorem State.putCmd_west (x : State) (c : Cmd) : (x.putCmd c).west = x.west := rfl
@[simp] theorem State.putCmd_presence (x : State) (c : Cmd) : (x.putCmd c).presence = x.presence := rfl
@[simp] theorem State.putCmd_nextCmd (x : State) (c : Cmd) : (x.putCmd c).nextCmd = x.nextCmd := rfl
@[simp] theorem State.putCmd_smReplies (x : State) (c : Cmd) : (x.putCmd c).smReplies = x.smReplies := rfl
@[simp] theorem State.putCmd_out (x : State) (c : Cmd) : (x.putCmd c).out = x.out := rfl
@[simp] theorem State.putCmd_images (x : State) (c : Cmd) : (x.putCmd c).images = x.images := rfl
@[simp] theorem State.putCmd_freeCtr (x : State) (c : Cmd) : (x.putCmd c).freeCtr = x.freeCtr := rfl
@[simp] theorem State.putCmd_pending (x : State) (c : Cmd) : (x.putCmd c).pending = x.pending := rfl

@[simp] theorem Thread.next_pc (x : Thread) : x.next.pc = x.pc + 4 := rfl
@[simp] theorem Thread.next_entering (x : Thread) : x.next.entering = x.entering := rfl
@[simp] theorem Thread.jump_pc (x : Thread) (a : Word) : (x.jump a).pc = a := rfl
@[simp] theorem Thread.jump_prefetch (x : Thread) (a : Word) : (x.jump a).prefetch = [] := rfl
@[simp] theorem Thread.jump_entering (x : Thread) (a : Word) : (x.jump a).entering = x.entering := rfl
theorem Thread.charge_vt (e : CoreEnv) (n : Nat) (x : Thread) : (x.charge e n).vt = if e.det then x.vt + n * e.cpu else x.vt := by
  unfold Thread.charge; split <;> rfl
theorem Thread.stampNow_vt (e : CoreEnv) (x : Thread) : (x.stampNow e).vt = if e.det then x.vt else if e.sys then 0 else e.bvt := by
  unfold Thread.stampNow; split <;> rfl
/-- A g register after a write: g0 stays 0 (R104). -/
theorem Thread.gReg_setG (x : Thread) (r q : RegNo) (v : Word) :
    (x.setG r v).gReg q = if q = r then (if r = 0 then 0 else v) else x.gReg q := by
  by_cases h0 : r = 0
  · subst h0
    by_cases hq : q = 0
    · subst hq; simp [Thread.gReg]
    · simp [Thread.setG, show ¬ q = 0#5 from hq]
  · by_cases hq : q = r
    · subst hq
      have h0' : ¬ q = 0#5 := h0
      simp [Thread.setG, Thread.gReg, h0']
    · have : q.toNat ≠ r.toNat := fun e => hq (BitVec.eq_of_toNat_eq e)
      have h0' : ¬ r = 0#5 := h0
      by_cases hz : q = 0
      · subst hz; simp [Thread.gReg, show ¬ (0#5 = r) from fun e => h0 e.symm]
      · simp [Thread.setG, Thread.gReg, h0', hq, Sparse.get_set_other, this]
theorem Thread.fReg_setF (x : Thread) (r q : RegNo) (v : Word) : (x.setF r v).fReg q = if q = r then v else x.fReg q := by
  unfold Thread.setF Thread.fReg
  by_cases hq : q = r
  · subst hq; simp
  · have : q.toNat ≠ r.toNat := fun e => hq (BitVec.eq_of_toNat_eq e)
    simp [hq, Sparse.get_set_other, this]
@[simp] theorem Thread.gReg_setF (x : Thread) (r q : RegNo) (v : Word) : (x.setF r v).gReg q = x.gReg q := rfl
@[simp] theorem Thread.fReg_setG (x : Thread) (r q : RegNo) (v : Word) : (x.setG r v).fReg q = x.fReg q := by simp [Thread.fReg]
@[simp] theorem Thread.gReg_next (x : Thread) (r : RegNo) : x.next.gReg r = x.gReg r := rfl
@[simp] theorem Thread.fReg_next (x : Thread) (r : RegNo) : x.next.fReg r = x.fReg r := rfl
@[simp] theorem Thread.gReg_jump (x : Thread) (a : Word) (r : RegNo) : (x.jump a).gReg r = x.gReg r := rfl
@[simp] theorem Thread.fReg_jump (x : Thread) (a : Word) (r : RegNo) : (x.jump a).fReg r = x.fReg r := rfl
@[simp] theorem Thread.gReg_charge (e : CoreEnv) (n : Nat) (x : Thread) (r : RegNo) : (x.charge e n).gReg r = x.gReg r := by
  simp [Thread.gReg]
@[simp] theorem Thread.fReg_charge (e : CoreEnv) (n : Nat) (x : Thread) (r : RegNo) : (x.charge e n).fReg r = x.fReg r := by
  simp [Thread.fReg]
@[simp] theorem Thread.gReg_stampNow (e : CoreEnv) (x : Thread) (r : RegNo) : (x.stampNow e).gReg r = x.gReg r := by
  simp [Thread.gReg]
@[simp] theorem Thread.fReg_stampNow (e : CoreEnv) (x : Thread) (r : RegNo) : (x.stampNow e).fReg r = x.fReg r := by
  simp [Thread.fReg]

@[simp] theorem State.half_putHalf (s : State) (h : HalfId) (H : Half) : (s.putHalf h H).half h = H := by cases h <;> rfl
theorem State.half_putHalf_other (s : State) (h g : HalfId) (H : Half) (e : g ≠ h) : (s.putHalf h H).half g = s.half g := by
  cases h <;> cases g <;> simp_all <;> rfl
@[simp] theorem State.half_peer_putHalf (s : State) (h : HalfId) (H : Half) :
    (s.putHalf h H).half (HalfId.peer h) = s.half (HalfId.peer h) := by cases h <;> rfl
@[simp] theorem State.putHalf_putHalf (s : State) (h : HalfId) (H K : Half) : (s.putHalf h H).putHalf h K = s.putHalf h K := by
  cases h <;> rfl
@[simp] theorem State.half_at (s : State) (tm : Nat) (h : HalfId) : (s.at tm).half h = s.half h := by cases h <;> rfl
@[simp] theorem State.lane_at (s : State) (tm l : Nat) : (s.at tm).lane l = s.lane l := by simp [State.lane]
@[simp] theorem Half.lane_putLane (H : Half) (i : Nat) (L : Lane) : (H.putLane i L).lane i = L := by
  simp [Half.putLane, Half.lane]
@[simp] theorem State.lane_putLane (s : State) (l : Nat) (L : Lane) : (s.putLane l L).lane l = L := by
  simp [State.putLane, State.lane]
/-- A write of a lane leaves every other lane alone (R447). -/
theorem State.lane_putLane_other (s : State) (l m : Nat) (L : Lane) (hl : l < 256) (hm : m < 256) (h : m ≠ l) :
    (s.putLane l L).lane m = s.lane m := by
  unfold State.putLane State.lane
  by_cases e : halfOf m = halfOf l
  · have : m % 128 ≠ l % 128 := by
      simp only [halfOf] at e
      split at e <;> split at e <;> first | omega | simp at e
    rw [e]; simp [Half.putLane, Half.lane, Sparse.get_set_other _ _ _ _ _ this]
  · rw [State.half_putHalf_other _ _ _ _ e]
@[simp] theorem Lane.thread_setThread (L : Lane) (t : Nat) (x : Thread) : (L.setThread t x).thread t = x := by
  simp [Lane.setThread, Lane.thread]
theorem Lane.thread_setThread_other (L : Lane) (t u : Nat) (x : Thread) (h : u ≠ t) : (L.setThread t x).thread u = L.thread u := by
  simp [Lane.setThread, Lane.thread, Sparse.get_set_other _ _ _ _ _ h]
@[simp] theorem State.thread_putThread (s : State) (c : Ctx) (x : Thread) : (s.putThread c x).thread c = x := by
  cases c <;> simp [State.putThread, State.thread]
@[simp] theorem State.half_putCmd (s : State) (c : Cmd) (h : HalfId) : (s.putCmd c).half h = s.half h := by cases h <;> rfl
@[simp] theorem State.lane_putCmd (s : State) (c : Cmd) (l : Nat) : (s.putCmd c).lane l = s.lane l := by simp [State.lane]

/-- The slot of an issue leaves all of the state but a core's counts, its cycle and its last borrower (R77, R78), and the issues that a LANE_START waits for (R434). -/
theorem State.tookSlot_cores_only (s : State) (c : Ctx) : s.tookSlot c = s ∨
    ∃ h a b d i n, s.tookSlot c = s.putHalf h { s.half h with coreStat := a, slotNow := b, borrowed := d, issued := i, draws := n } := by
  unfold State.tookSlot
  split
  · exact .inl rfl
  · exact .inr ⟨_, _, _, _, _, _, rfl⟩
@[simp] theorem State.lane_tookSlot (s : State) (c : Ctx) (l : Nat) : (s.tookSlot c).lane l = s.lane l := by
  obtain e | ⟨h, a, b, d, i, n, e⟩ := s.tookSlot_cores_only c <;> rw [e]
  simp only [State.lane]
  cases h <;> cases halfOf l <;> rfl
@[simp] theorem State.sys_tookSlot (s : State) (c : Ctx) (h : HalfId) : ((s.tookSlot c).half h).sys = (s.half h).sys := by
  obtain e | ⟨g, a, b, d, i, n, e⟩ := s.tookSlot_cores_only c <;> rw [e]
  cases h <;> cases g <;> rfl
@[simp] theorem State.sysMem_tookSlot (s : State) (c : Ctx) (h : HalfId) : ((s.tookSlot c).half h).sysMem = (s.half h).sysMem := by
  obtain e | ⟨g, a, b, d, i, n, e⟩ := s.tookSlot_cores_only c <;> rw [e]
  cases h <;> cases g <;> rfl
@[simp] theorem State.thread_tookSlot (s : State) (c d : Ctx) : (s.tookSlot c).thread d = s.thread d := by
  cases d <;> simp [State.thread]
@[simp] theorem State.tookSlot_time (x : State) (c : Ctx) : (x.tookSlot c).time = x.time := by
  obtain e | ⟨_, _, _, _, _, _, e⟩ := x.tookSlot_cores_only c <;> rw [e]; simp
@[simp] theorem State.tookSlot_powered (x : State) (c : Ctx) : (x.tookSlot c).powered = x.powered := by
  obtain e | ⟨_, _, _, _, _, _, e⟩ := x.tookSlot_cores_only c <;> rw [e]; simp
@[simp] theorem State.tookSlot_inReset (x : State) (c : Ctx) : (x.tookSlot c).inReset = x.inReset := by
  obtain e | ⟨_, _, _, _, _, _, e⟩ := x.tookSlot_cores_only c <;> rw [e]; simp
@[simp] theorem State.tookSlot_ready (x : State) (c : Ctx) : (x.tookSlot c).ready = x.ready := by
  obtain e | ⟨_, _, _, _, _, _, e⟩ := x.tookSlot_cores_only c <;> rw [e]; simp
@[simp] theorem State.tookSlot_safe (x : State) (c : Ctx) : (x.tookSlot c).safe = x.safe := by
  obtain e | ⟨_, _, _, _, _, _, e⟩ := x.tookSlot_cores_only c <;> rw [e]; simp
@[simp] theorem State.tookSlot_thermtrip (x : State) (c : Ctx) : (x.tookSlot c).thermtrip = x.thermtrip := by
  obtain e | ⟨_, _, _, _, _, _, e⟩ := x.tookSlot_cores_only c <;> rw [e]; simp
@[simp] theorem State.tookSlot_presence (x : State) (c : Ctx) : (x.tookSlot c).presence = x.presence := by
  obtain e | ⟨_, _, _, _, _, _, e⟩ := x.tookSlot_cores_only c <;> rw [e]; simp
@[simp] theorem State.tookSlot_cmds (x : State) (c : Ctx) : (x.tookSlot c).cmds = x.cmds := by
  obtain e | ⟨_, _, _, _, _, _, e⟩ := x.tookSlot_cores_only c <;> rw [e]; simp
@[simp] theorem State.tookSlot_nextCmd (x : State) (c : Ctx) : (x.tookSlot c).nextCmd = x.nextCmd := by
  obtain e | ⟨_, _, _, _, _, _, e⟩ := x.tookSlot_cores_only c <;> rw [e]; simp
@[simp] theorem State.tookSlot_smReplies (x : State) (c : Ctx) : (x.tookSlot c).smReplies = x.smReplies := by
  obtain e | ⟨_, _, _, _, _, _, e⟩ := x.tookSlot_cores_only c <;> rw [e]; simp
@[simp] theorem State.tookSlot_out (x : State) (c : Ctx) : (x.tookSlot c).out = x.out := by
  obtain e | ⟨_, _, _, _, _, _, e⟩ := x.tookSlot_cores_only c <;> rw [e]; simp
@[simp] theorem State.tookSlot_images (x : State) (c : Ctx) : (x.tookSlot c).images = x.images := by
  obtain e | ⟨_, _, _, _, _, _, e⟩ := x.tookSlot_cores_only c <;> rw [e]; simp
@[simp] theorem State.tookSlot_freeCtr (x : State) (c : Ctx) : (x.tookSlot c).freeCtr = x.freeCtr := by
  obtain e | ⟨_, _, _, _, _, _, e⟩ := x.tookSlot_cores_only c <;> rw [e]; simp
@[simp] theorem State.tookSlot_pending (x : State) (c : Ctx) : (x.tookSlot c).pending = x.pending := by
  obtain e | ⟨_, _, _, _, _, _, e⟩ := x.tookSlot_cores_only c <;> rw [e]; simp

end Sys2Proof.Machine
end

