-- ==== Sys2Proof/Laws/Ops.lean ====
section
/-! SUPPORT. What the shared operations can do, once for each: outputs, events, MSI-X messages, completions, the gate of every opcode, the
issue of an instruction, the caches and the work on one lane. -/
namespace Sys2Proof.Machine
open Sys2Proof

/-! Outputs change nothing but what has left the block. -/
theorem State.emit_out_only (s : State) (o : Out) : ∃ l, s.emit o = { s with out := l } := by
  unfold State.emit
  split
  · split
    · exact ⟨_, rfl⟩
    · exact ⟨s.out, rfl⟩
  · exact ⟨_, rfl⟩
theorem State.emits_out_only (l : List Out) (s : State) : ∃ o, l.foldl State.emit s = { s with out := o } := by
  induction l generalizing s with
  | nil => exact ⟨s.out, rfl⟩
  | cons a l ih =>
    obtain ⟨x, hx⟩ := s.emit_out_only a
    obtain ⟨y, hy⟩ := ih (s.emit a)
    exact ⟨y, by rw [List.foldl_cons, hy, hx]⟩
@[simp] theorem State.half_emit (s : State) (o : Out) (h : HalfId) : (s.emit o).half h = s.half h := by
  obtain ⟨l, e⟩ := s.emit_out_only o; rw [e]; cases h <;> rfl
@[simp] theorem State.half_emits (l : List Out) (s : State) (h : HalfId) : (l.foldl State.emit s).half h = s.half h := by
  obtain ⟨o, e⟩ := State.emits_out_only l s; rw [e]; cases h <;> rfl
@[simp] theorem State.lane_emit (s : State) (o : Out) (l : Nat) : (s.emit o).lane l = s.lane l := by simp [State.lane]
@[simp] theorem State.lane_emits (o : List Out) (s : State) (l : Nat) : (o.foldl State.emit s).lane l = s.lane l := by simp [State.lane]
@[simp] theorem State.cmds_emits (o : List Out) (s : State) : (o.foldl State.emit s).cmds = s.cmds := by
  obtain ⟨_, e⟩ := State.emits_out_only o s; rw [e]
@[simp] theorem State.time_emits (o : List Out) (s : State) : (o.foldl State.emit s).time = s.time := by
  obtain ⟨_, e⟩ := State.emits_out_only o s; rw [e]
@[simp] theorem State.pending_emits (o : List Out) (s : State) : (o.foldl State.emit s).pending = s.pending := by
  obtain ⟨_, e⟩ := State.emits_out_only o s; rw [e]

/-! A reply on the control flow and an event leave the lanes, and all of a half but its network engine and its event ring. -/
theorem Half.controlSend_net_only (H : Half) (h : HalfId) (p : Bytes) : ∃ n, (H.controlSend h p).1 = { H with net := n } := by
  unfold Half.controlSend
  split
  · split
    · exact ⟨_, rfl⟩
    · split <;> exact ⟨_, rfl⟩
  · exact ⟨H.net, rfl⟩
theorem Half.noteEvent_net_ev_only (H : Half) (h : HalfId) (code lane frame time data : Nat) :
    ∃ n e, (H.noteEvent h code lane frame time data).1 = { H with net := n, ev := e } := by
  simp only [Half.noteEvent]
  split
  · split
    · obtain ⟨n, e⟩ := Half.controlSend_net_only { H with ev := _ } h (replyBytes 0 0xFFFF 32 0 0 0 0 ++ Event.bytes _ false)
      exact ⟨n, _, e⟩
    · exact ⟨H.net, _, rfl⟩
  · exact ⟨H.net, _, rfl⟩
/-- SEQ_HIGH touches what an event touches (R319). -/
theorem seqHigh_net_ev_only (h : HalfId) (time : Nat) (r : Half × List Out × Option Nat) :
    ∃ n e, (seqHigh h time r).1 = { r.1 with net := n, ev := e } := by
  unfold seqHigh
  split
  · exact ⟨r.1.net, r.1.ev, rfl⟩
  · exact r.1.noteEvent_net_ev_only h _ _ _ time _
theorem Half.sendReply_net_ev_only (H : Half) (h : HalfId) (time : Nat) (p : Bytes) :
    ∃ n e, (H.sendReply h time p).1 = { H with net := n, ev := e } := by
  obtain ⟨n, e, w⟩ := seqHigh_net_ev_only h time (H.controlSend h p)
  obtain ⟨m, v⟩ := H.controlSend_net_only h p
  exact ⟨n, e, by rw [Half.sendReply, w, v]⟩
theorem Half.event_net_ev_only (H : Half) (h : HalfId) (code lane frame time data : Nat) :
    ∃ n e, (H.event h code lane frame time data).1 = { H with net := n, ev := e } := by
  obtain ⟨n, e, w⟩ := seqHigh_net_ev_only h time (H.noteEvent h code lane frame time data)
  obtain ⟨m, f, v⟩ := H.noteEvent_net_ev_only h code lane frame time data
  exact ⟨n, e, by rw [Half.event, w, v]⟩
@[simp] theorem Half.event_lanes (H : Half) (h : HalfId) (code lane frame time data : Nat) :
    (H.event h code lane frame time data).1.lanes = H.lanes := by
  obtain ⟨n, e, w⟩ := H.event_net_ev_only h code lane frame time data; rw [w]
@[simp] theorem Half.event_sp (H : Half) (h : HalfId) (code lane frame time data : Nat) :
    (H.event h code lane frame time data).1.sp = H.sp := by
  obtain ⟨n, e, w⟩ := H.event_net_ev_only h code lane frame time data; rw [w]
theorem EventRing.put_buf (x : EventRing) (e : Event) (b : x.buf.length ≤ 64 + x.room) : (x.put e).buf.length ≤ 64 + (x.put e).room := by
  unfold EventRing.put
  split
  · simp only [EventRing.room, List.length_append, List.length_singleton] at *; omega
  · exact b
theorem Half.noteEvent_buf (H : Half) (h : HalfId) (code lane frame time data : Nat) (b : H.ev.buf.length ≤ 64 + H.ev.room) :
    (H.noteEvent h code lane frame time data).1.ev.buf.length ≤ 64 + (H.noteEvent h code lane frame time data).1.ev.room := by
  have w : ∀ (K : Half) (p : Bytes), (K.controlSend h p).1.ev = K.ev := fun K p => by
    obtain ⟨n, e⟩ := K.controlSend_net_only h p; rw [e]
  have v := EventRing.put_buf { H.ev with eseq := H.ev.eseq + 1 }
    { code := code, lane := lane, eseq := H.ev.eseq + 1, frame := frame, time := time, data := data } b
  simp only [Half.noteEvent]
  repeat' split
  all_goals simp only [w]; exact v
/-- R429: an event never makes the buffer grow past its 64 entries and the room of the ring. -/
theorem Half.event_buf (H : Half) (h : HalfId) (code lane frame time data : Nat) (b : H.ev.buf.length ≤ 64 + H.ev.room) :
    (H.event h code lane frame time data).1.ev.buf.length ≤ 64 + (H.event h code lane frame time data).1.ev.room := by
  have w := H.noteEvent_buf h code lane frame time data b
  unfold Half.event seqHigh
  split
  · exact w
  · exact Half.noteEvent_buf _ _ _ _ _ _ _ w
theorem State.half_event (s : State) (h k : HalfId) (code lane frame data : Nat) :
    ((s.event h code lane frame data).half k) = ((s.putHalf h ((s.half h).event h code lane frame s.time data).1).half k) := by
  simp [State.event]
@[simp] theorem State.half_event_peer (s : State) (h : HalfId) (code lane frame data : Nat) :
    (s.event h code lane frame data).half (HalfId.peer h) = s.half (HalfId.peer h) := by
  rw [State.half_event]; simp
theorem State.lanes_event (s : State) (h k : HalfId) (code lane frame data : Nat) :
    ((s.event h code lane frame data).half k).lanes = (s.half k).lanes := by
  rw [State.half_event]
  cases h <;> cases k <;> simp [State.putHalf, State.half]
@[simp] theorem State.lane_event (s : State) (h : HalfId) (code lane frame data l : Nat) :
    (s.event h code lane frame data).lane l = s.lane l := by
  simp only [State.lane, Half.lane, State.lanes_event]
@[simp] theorem State.cmds_event (s : State) (h : HalfId) (code lane frame data : Nat) : (s.event h code lane frame data).cmds = s.cmds := by
  simp [State.event]
@[simp] theorem State.time_event (s : State) (h : HalfId) (code lane frame data : Nat) : (s.event h code lane frame data).time = s.time := by
  simp [State.event]
@[simp] theorem State.pending_event (s : State) (h : HalfId) (code lane frame data : Nat) :
    (s.event h code lane frame data).pending = s.pending := by simp [State.event]
@[simp] theorem State.lane_ckptLost (l n m : Nat) (s : State) : (s.ckptLost l n).lane m = s.lane m := by
  induction n generalizing s with
  | zero => rfl
  | succ n ih => simp [State.ckptLost, ih]
@[simp] theorem State.cmds_ckptLost (l n : Nat) (s : State) : (s.ckptLost l n).cmds = s.cmds := by
  induction n generalizing s with
  | zero => rfl
  | succ n ih => simp [State.ckptLost, ih]

/-- A message leaves all of a half but its vectors (R417, R569). -/
theorem Half.message_msix_only (H : Half) (h : HalfId) (vec time : Nat) : ∃ m, (H.message h vec time).1 = { H with msix := m } := by
  simp only [Half.message]
  repeat' split
  all_goals exact ⟨_, rfl⟩
theorem State.lanes_message (s : State) (h k : HalfId) (vec : Nat) : ((s.message h vec).half k).lanes = (s.half k).lanes := by
  obtain ⟨m, e⟩ := (s.half h).message_msix_only h vec s.time
  simp only [State.message, State.half_emits, e]
  cases h <;> cases k <;> rfl
@[simp] theorem State.lane_message (s : State) (h : HalfId) (vec l : Nat) : (s.message h vec).lane l = s.lane l := by
  simp only [State.lane, Half.lane, State.lanes_message]

theorem Half.sendReply_lanes (H : Half) (h : HalfId) (time : Nat) (p : Bytes) : (H.sendReply h time p).1.lanes = H.lanes := by
  obtain ⟨n, e, w⟩ := H.sendReply_net_ev_only h time p; rw [w]
theorem State.lanes_putHalf (s : State) (h k : HalfId) (H : Half) (e : H.lanes = (s.half h).lanes) : ((s.putHalf h H).half k).lanes = (s.half k).lanes := by
  cases h <;> cases k <;> first | exact e | rfl
/-- A completion leaves the lanes of both halves (R417 to R424). -/
theorem State.lanes_finish (s : State) (id status detail : Nat) (result : Bytes) (k : HalfId) :
    ((s.finish id status detail result).half k).lanes = (s.half k).lanes := by
  have drop : ∀ n, ((s.dropCmd n).half k).lanes = (s.half k).lanes := fun n => by cases k <;> rfl
  simp only [State.finish]
  cases s.cmd id with
  | none => rfl
  | some c =>
    by_cases r : c.reply.isSome = true
    · simp only [r, if_true]
    · simp only [r]
      cases c.src with
      | ring a b => cases c.discard <;> cases k <;> rfl
      | smbus => cases k <;> rfl
      | control h =>
        simp only [Bool.false_eq_true, if_false, State.half_emits]
        refine (State.lanes_putHalf _ _ _ _ ?_).trans (drop id)
        rw [Half.sendReply_lanes]
        cases (s.half h).net.control <;> cases h <;> rfl
@[simp] theorem State.lane_finish (s : State) (id status detail : Nat) (result : Bytes) (l : Nat) :
    (s.finish id status detail result).lane l = s.lane l := by
  simp only [State.lane, Half.lane, State.lanes_finish]
@[simp] theorem State.lane_done (s : State) (c : Cmd) (result : Bytes) (l : Nat) : (s.done c result).lane l = s.lane l := State.lane_finish ..
@[simp] theorem State.lane_fail (s : State) (c : Cmd) (status detail l : Nat) : (s.fail c status detail).lane l = s.lane l := State.lane_finish ..

/-- A command of R432 always answers a next state: nothing but device time, the completion that its gate gives, or its own effect on the
state in which it has begun. -/
theorem opcode_cases (op id tm : Nat) (f : State → Cmd → HalfId → State) (s : State) :
    opcode op id tm f s = .next (s.at tm) ∨
    (∃ e : Nat × Nat, opcode op id tm f s = .next ((s.at tm).finish id e.1 e.2 [])) ∨
    ∃ c h, (s.at tm).starts id op c h ∧ opcode op id tm f s = .next (f ((s.at tm).entered c) c h) := by
  simp only [opcode, stay]
  split
  · exact .inl rfl
  · split
    · exact .inl rfl
    · split
      · exact .inr (.inl ⟨_, rfl⟩)
      · exact .inr (.inr ⟨_, _, ⟨‹_›, ‹_›, ‹_›⟩, rfl⟩)
/-- A command that starts has its own effect on the state in which it has begun. -/
theorem opcode_starts {op id tm : Nat} {f : State → Cmd → HalfId → State} {s : State} {c : Cmd} {h : HalfId} (w : (s.at tm).starts id op c h) :
    opcode op id tm f s = .next (f ((s.at tm).entered c) c h) := by
  simp only [opcode, w.1, w.2.1, w.2.2, State.entered]
/-- Parameters that pass their checks act. -/
theorem State.checked_ok {s : State} {c : Cmd} {l : List (Bool × Nat)} {f : State → State} (w : firstBad l = none) : s.checked c l f = f s := by
  simp [State.checked, w]
theorem firstBad_none {l : List (Bool × Nat)} : firstBad l = none ↔ ∀ p ∈ l, p.1 = true := by
  simp [firstBad, Option.map_eq_none_iff, List.find?_eq_none]

/-- Work on a lane: it faults on a number of no lane, leaves the state as it is, or replaces that lane and reports the checkpoints lost. -/
theorem State.onLane_cases (s : State) (l : Nat) (f : Lane → Option (Lane × Nat)) :
    (256 ≤ l ∧ s.onLane l f = .fault .noUnit) ∨ (l < 256 ∧ f (s.lane l) = none ∧ s.onLane l f = .next s) ∨
    ∃ L n, l < 256 ∧ f (s.lane l) = some (L, n) ∧ s.onLane l f = .next ((s.putLane l L).ckptLost l n) := by
  unfold State.onLane noUnit stay
  split
  · exact .inl ⟨‹_›, rfl⟩
  · split
    · exact .inr (.inl ⟨by omega, ‹_›, rfl⟩)
    · exact .inr (.inr ⟨_, _, by omega, ‹_›, rfl⟩)
/-- It leaves every other lane. -/
theorem State.onLane_other {s t : State} {l : Nat} {f : Lane → Option (Lane × Nat)} (w : s.onLane l f = .next t) {m : Nat} (hm : m < 256) (d : m ≠ l) :
    t.lane m = s.lane m := by
  rcases s.onLane_cases l f with ⟨_, e⟩ | ⟨_, _, e⟩ | ⟨L, n, hl, _, e⟩ <;> rw [e] at w <;> cases w
  · rfl
  · rw [State.lane_ckptLost, State.lane_putLane_other _ _ _ _ (by omega) (by omega) d]

/-- An instruction that completes: it faults on a context that does not exist, waits for its turn, or acts on its thread alone. -/
theorem State.issue_cases (s : State) (c : Ctx) (i : NInstr) (f : CoreEnv → Thread → Thread) :
    (ctxOk c = false ∧ s.issue c i f = .fault .noUnit) ∨ (ctxOk c = true ∧ s.issues c i = false ∧ s.issue c i f = .next s) ∨
    (ctxOk c = true ∧ s.issues c i = true ∧ s.issue c i f = .next ((s.tookSlot c).putThread c (f (s.env c) ((s.thread c).stampNow (s.env c))))) := by
  unfold State.issue noUnit stay
  cases h : ctxOk c <;> cases w : s.issues c i <;> simp_all
/-- An exception taken: the entry is complete, or begins (R137). -/
theorem State.except_cases (s : State) (c : Ctx) (k : Cause) :
    s.except c k = .next (((s.tookSlot c).putThread c ((s.thread c).raise (s.env c) k)).afterThread c) ∨
    (s.vectorFixed c = false ∧ s.except c k =
      .next ((s.tookSlot c).putThread c ((s.thread c).begin (s.env c).cpu (s.thread c).vt 6 (.except k.word k.bad)))) := by
  unfold State.except
  dsimp only
  split
  · exact .inl rfl
  · exact .inr ⟨by simp_all, rfl⟩
/-- An instruction that raises an exception at its turn: no such context, no turn yet, or the exception. -/
theorem State.fails_cases (s : State) (c : Ctx) (i : NInstr) (k : Cause) :
    (ctxOk c = false ∧ s.fails c i k = .fault .noUnit) ∨ (ctxOk c = true ∧ s.fails c i k = .next s) ∨
    (ctxOk c = true ∧ s.issues c i = true ∧ s.fails c i k = s.except c k) := by
  unfold State.fails noUnit stay
  cases h : ctxOk c <;> cases w : s.issues c i <;> simp_all

/-! The memories that the device holds are in canonical form after a device reset. -/
theorem reset_sysMem_wf (h : HalfId) : (State.reset.half h).sysMem.wf = true := by cases h <;> rfl
theorem reset_lane_mem_wf (l : Nat) : (State.reset.lane l).mem.wf = true := by
  unfold State.lane
  cases halfOf l <;> rfl

/-- What a store leaves for the fetches in progress (R177, R274): their views, and the draws. -/
theorem Lane.fetchesSee_views_only (l : Nat) (L : Lane) (ws : List (Nat × Bytes)) :
    ∃ r y d, L.fetchesSee l ws = { L with unit := { L.unit with ras := { L.unit.ras with lines := r }, snd := { L.unit.snd with lines := y } }, draws := d } := by
  unfold Lane.fetchesSee
  split
  · exact ⟨_, _, _, rfl⟩
  · split
    · exact ⟨_, _, _, rfl⟩
    · exact ⟨_, _, _, rfl⟩

/-- A line read through a cache changes the caches and the draws only (R80, R89). -/
theorem Half.cachedLine_caches_only (H : Half) (h : HalfId) (code : Bool) (k m n : Nat) (d : Bytes) :
    ∃ i c z, (H.cachedLine h code k m n d).2 = { H with icache := i, dcache := c, draws := z } := by
  unfold Half.cachedLine
  split <;> exact ⟨_, _, _, rfl⟩
theorem Half.cachedRead_caches_only (H : Half) (h : HalfId) (k m a n : Nat) (rd : Nat → Bytes) :
    ∃ i c z, (H.cachedRead h k m a n rd).2 = { H with icache := i, dcache := c, draws := z } :=
  H.cachedLine_caches_only h false k m (a / 64) _
theorem Half.codeWord_caches_only (H : Half) (h : HalfId) (k m : Nat) (b : Option (Nat × Bytes)) (a : Nat) (rd : Nat → Bytes) :
    ∃ i c z, (H.codeWord h k m b a rd).2.2 = { H with icache := i, dcache := c, draws := z } := by
  unfold Half.codeWord
  dsimp only
  split
  · exact ⟨_, _, _, rfl⟩
  · exact H.cachedLine_caches_only h true k m (a / 64) _

end Sys2Proof.Machine
end

