-- ==== Sys2Proof/Tests/Slice0.lean ====
section
/-! SUPPORT. The model's own tests: an ill-formed command for each check of WellFormed, words written out from the encoding of R109, results
worked out by hand from the rules, and for every statement with hypotheses states and operands that meet them. -/
namespace Sys2Proof.Tests
open Sys2Proof Sys2Proof.Machine
set_option Elab.async false

/-- A small timing: 16 of 20 dots, 8 of 10 lines, DOTDIV 4, CPUDIV 2. -/
def tm : Timing :=
  { hact := 16, htot := 20, vact := 8, vtot := 10, dotdiv := 4, cpudiv := 2, lclk := 1000000000, v0 := 0, n0 := 0, k0 := 0, oldLl := 80,
    oldLf := 800, oldDot := 4 }
/-- A context that stands at an instruction. -/
def at0 (i : NInstr) : Thread :=
  { Thread.init with active := true, admitted := true, pc := 0x100, prefetch := [(0x100, w64 (nencode i).toNat)] }
/-- A running lane whose thread 0 is the one given, with the word of an instruction in its near SRAM. -/
def ln (det : Bool) (i : NInstr) (x : Thread) : Lane :=
  let u : LaneUnit := { LaneUnit.reset with tm := tm, regs := [(0x34008, 0x100000003)] }
  let u : LaneUnit := { u with lic := { u.lic with milestones := 4 } }
  { Lane.absent with phase := .running, det := det, unit := u, mil := 1, th := [(0, x)], near := 64, nearAt := 1, mem := Mem.writeBytes [] 0x100 (leBytes 4 (nencode i).toNat) }
/-- The block with a lane 0. -/
def st (L : Lane) : State := State.reset.putLane 0 L
/-- Thread 0 of lane 0 about to issue an instruction. -/
def run (det : Bool) (i : NInstr) : State := st (ln det i (at0 i))
def g0 : Ctx := .game 0 0
def s0 : Ctx := .sys .east 0 14
/-- Context 14 of East's core 0 about to issue an instruction. -/
def sysRun (i : NInstr) : State := State.reset.putThread s0 (at0 i)
/-- The state with thread 0 of lane 0 changed. -/
def upd (s : State) (f : Thread → Thread) : State := s.putThread g0 (f (s.thread g0))
def updS (s : State) (f : Thread → Thread) : State := s.putThread s0 (f (s.thread s0))

/-- IntegerResults: both clauses, in both modes of a lane and at system level. -/
theorem wit_IntegerResults : g0.ok = true ∧ (run true (.alu .add 1 2 3 0)).issues g0 (.alu .add 1 2 3 0) = true ∧
    (run false (.imm .addi 1 2 0xFFFF)).issues g0 (.imm .addi 1 2 0xFFFF) = true ∧ s0.ok = true ∧
    (sysRun (.alu .sel 0 2 3 4)).issues s0 (.alu .sel 0 2 3 4) = true := by decide +kernel

/-- A context with a result awaited from a unit. -/
def waitUnit (ws : List (Dest × Word)) : State := upd (run true .mbar) (fun x => { x with units := [{ unit := .pipelined, writes := ws, div := none }] })
theorem wit_MultiplyDivideResults : (run true (.mul .mulxss 1 2 3 4)).issues g0 (.mul .mulxss 1 2 3 4) = true ∧
    (run true (.div .divs 1 2 3 1)).issues g0 (.div .divs 1 2 3 1) = true ∧
    ((waitUnit [(.f 3, 7)]).thread g0).units[0]? = some { unit := .pipelined, writes := [(.f 3, 7)], div := none } ∧
    (waitUnit [(.f 3, 7)]).unitDone g0 { unit := .pipelined, writes := [(.f 3, 7)], div := none } = true ∧
    ((waitUnit [(.g 5, 7), (.g 5, 8)]).thread g0).units[0]? = some { unit := .pipelined, writes := [(.g 5, 7), (.g 5, 8)], div := none } ∧
    (waitUnit [(.g 5, 7), (.g 5, 8)]).unitDone g0 { unit := .pipelined, writes := [(.g 5, 7), (.g 5, 8)], div := none } = true := by decide +kernel

theorem wit_FloatResults : (run true (.fp .double .fadd 1 2 3 0)).issues g0 (.fp .double .fadd 1 2 3 0) = true ∧
    (run false (.fma .single true false 1 2 3 4)).issues g0 (.fma .single true false 1 2 3 4) = true := by decide +kernel

theorem wit_CompareAndBranch : (run true (.br .bltu 1 2 0xFFFF)).issues g0 (.br .bltu 1 2 0xFFFF) = true ∧
    (run true (.br .bge 1 2 0x8000)).issues g0 (.br .bge 1 2 0x8000) = true := by decide +kernel
theorem wit_Jumps : (run true (.j 4)).issues g0 (.j 4) = true ∧ (run true (.jal 4)).issues g0 (.jal 4) = true ∧
    (run true (.jalr 1 2 8)).issues g0 (.jalr 1 2 8) = true ∧ (((run true (.jalr 1 2 8)).thread g0).gReg 2 + (8 : BitVec 16).signExtend 64).toNat % 4 = 0 ∧
    (run true (.jalr 1 2 6)).issues g0 (.jalr 1 2 6) = true ∧ (((run true (.jalr 1 2 6)).thread g0).gReg 2 + (6 : BitVec 16).signExtend 64).toNat % 4 ≠ 0 ∧
    (run true (.jalr 1 2 6)).vectorFixed g0 = true := by decide +kernel

theorem wit_SystemRegisterAccess : (run true (.mfs 1 0x20)).issues g0 (.mfs 1 0x20) = true ∧ (0x20 : BitVec 12).toNat ∈ sysRegs ∧
    (run true (.mts 1 0)).issues g0 (.mts 1 0) = true ∧ (0 : BitVec 12).toNat ∈ sysRegs := by decide +kernel

/-- Each way into ExceptionEntry. -/
def entryOk (s : State) (c : Ctx) : Bool :=
  c.ok && s.vectorFixed c && decide ((s.thread c).frames.length < 16) && vectorOk (s.env c) ((s.thread c).vectorAddr 0) && !(s.thread c).trapped
/-- A context whose word no rule gives a meaning, and one whose pc stands in the register window. -/
def badWord : State := upd (run true .mbar) (fun x => { x with prefetch := [(0x100, 0)] })
def badPc : State := upd (run true .mbar) (fun x => { x with pc := 0xF0000000, prefetch := [] })
theorem wit_ExceptionEntry : entryOk (run true (.ecall 5)) g0 = true ∧ (run true (.ecall 5)).issues g0 (.ecall 5) = true ∧
    entryOk (sysRun .ebreak) s0 = true ∧ (sysRun .ebreak).issues s0 .ebreak = true ∧
    entryOk (run true (.jalr 1 2 6)) g0 = true ∧ (effAddr (((run true (.jalr 1 2 6)).thread g0).gReg 2) 6).toNat % 4 ≠ 0 ∧
    entryOk (run true (.mfs 1 0x800)) g0 = true ∧ (run true (.mfs 1 0x800)).issues g0 (.mfs 1 0x800) = true ∧
    entryOk (run true (.mts 1 0xFFF)) g0 = true ∧ (run true (.mts 1 0xFFF)).issues g0 (.mts 1 0xFFF) = true ∧
    entryOk (run true (.sysx 1)) g0 = true ∧ (run true (.sysx 1)).issues g0 (.sysx 1) = true := by decide +kernel
theorem wit_ExceptionEntry_unassigned : entryOk (run true (.mfs 1 0x7FF)) g0 = true ∧ (run true (.mfs 1 0x7FF)).issues g0 (.mfs 1 0x7FF) = true ∧
    (0x7FF : BitVec 12).toNat ∉ sysRegs ∧ entryOk (sysRun (.mts 1 0x7FF)) s0 = true ∧ (sysRun (.mts 1 0x7FF)).issues s0 (.mts 1 0x7FF) = true := by
  decide +kernel
theorem wit_ExceptionEntry_words : entryOk (st { ln false .mbar (badWord.thread g0) with mem := [] }) g0 = true ∧
    (st { ln false .mbar (badWord.thread g0) with mem := [] }).mayIssue g0 = true ∧ (badWord.thread g0).word = some 0 ∧ ndecode 0 = none ∧
    entryOk badPc g0 = true ∧ (badPc.lane 0).issueOk 0 = true ∧ (badPc.thread g0).active = true ∧ (badPc.thread g0).waiting = false ∧
    executable (badPc.thread g0).pc.toNat (badPc.lane 0).titleLen = false := by decide +kernel

/-- A full frame stack, and a vector base outside memory. -/
def fr : Frame := { epc := 0x200, estatus := 0x31, cause := 0, badaddr := 0 }
def full : State := upd (run true (.ecall 5)) (fun x => { x with frames := List.replicate 16 fr })
def noVec : State := upd (run true (.ecall 5)) (fun x => { x with vbase := 0xF0000000 })
theorem wit_FaultsAndTraps : full.issues g0 (.ecall 5) = true ∧ full.vectorFixed g0 = true ∧ (full.thread g0).frames.length = 16 ∧
    noVec.issues g0 (.ecall 5) = true ∧ noVec.vectorFixed g0 = true ∧ vectorOk (noVec.env g0) ((noVec.thread g0).vectorAddr 0) = false ∧
    (run true (.load .lh 1 2 3)).issues g0 (.load .lh 1 2 3) = true ∧ (run true (.load .lh 1 2 3)).vectorFixed g0 = true ∧
    loadFault 0 (effAddr (((run true (.load .lh 1 2 3)).thread g0).gReg 2) 3) (loadWidth .lh) = some (.loadAlign 3) ∧
    (run true (.store .sd 1 2 4)).issues g0 (.store .sd 1 2 4) = true ∧
    storeFault 0 (effAddr (((run true (.store .sd 1 2 4)).thread g0).gReg 2) 4) (storeWidth .sd) = some (.storeAlign 4) ∧
    (run true (.amo .add true 1 2 3 0)).issues g0 (.amo .add true 1 2 3 0) = true ∧
    (upd (run true (.amo .add true 1 2 3 0)) (fun x => x.setG 2 2)).issues g0 (.amo .add true 1 2 3 0) = true ∧
    (amoFault false 2 4).isSome = true := by decide +kernel

/-- A context at ERET with one frame. -/
def eret1 (det : Bool) : State := upd (run det .eret) (fun x => { x with frames := [fr] })
theorem wit_ExceptionReturn : (eret1 true).issues g0 .eret = true ∧ ((eret1 true).thread g0).frames = [fr] ∧ (eret1 true).eretFixed g0 = true ∧
    ((eret1 true).lane 0).chains 0 (((eret1 true).lane 0).issueVt 0) ((eret1 true).lane 0).cpu = none ∧ (run true .eret).issues g0 .eret = true ∧ ((run true .eret).thread g0).frames = [] ∧
    (run true .eret).vectorFixed g0 = true := by decide +kernel

/-- The controller with source 0 pending since VT 0 for thread 0, enabled with priority 5. -/
def licOn : Lic :=
  let r : LicCfg := { src := [(0, 5)], en := 1, th := [] }
  { Lic.reset with reg := r, views := [(0, { base := r, chg := [] })], milestones := 4, pend := 1, order := [0] }
/-- Thread 0 of lane 0 at an instruction, with that source pending. -/
def runIrq (det : Bool) (i : NInstr) (f : Thread → Thread) : State :=
  let L := ln det i (f (at0 i))
  let u : LaneUnit := { L.unit with lic := licOn }
  st { L with unit := u }
def irqT (det : Bool) : State := runIrq det .mbar (fun x => { x with ie := true })
/-- An East system context that may take an interrupt. -/
def irqS : State := sysRun .mbar |> (fun s => updS s (fun x => { x with ie := true }))
theorem wit_InterruptsTaken : let L := (irqT true).lane 0
    ((irqT true).thread g0).loads = [] ∧ ((irqT true).thread g0).entering = none ∧ ((irqT true).thread g0).trapped = false ∧ L.divCpu 0 = 2 ∧
    L.takePoint 0 = some 0 ∧ L.phase = .running ∧ L.vtCanAt 0 0 = true ∧ L.takeFixed 0 0 = true ∧ L.readFixed 0 6 = true ∧
    vectorOk (laneEnv L [] 0 6) (((irqT true).thread g0).vectorAddr 1) = true ∧
    (irqS.thread s0).active = true ∧ (irqS.thread s0).ie = true ∧ (irqS.thread s0).level < 15 ∧ (irqS.thread s0).loads = [] ∧
    (irqS.thread s0).entering = none := by decide +kernel
theorem wit_InterruptsTaken_source (n : Nat) : ((irqT true).lane 0).entrySource 0 0 2 n = some (0, 5) := by
  show ((irqT true).lane 0).unit.lic.deliver 0 0 2 (((irqT true).lane 0).thread 0).level = some (0, 5)
  decide +kernel
/-- The same in normal mode, with a divide in progress; every source has arrived or none. -/
def irqN : State := runIrq false .mbar (fun x => { x with ie := true, units := [{ unit := .divider, writes := [], div := some (0, 0x100, 2) }] })
theorem wit_InterruptsTaken_divide : (irqN.thread g0).divide = some (0, 0x100, 2) ∧ (irqN.lane 0).takePoint 0 = some 0 ∧ (irqN.lane 0).vtCanAt 0 0 = true ∧
    (∀ k, k < 65 → (irqN.lane 0).entrySource 0 0 (irqN.lane 0).cpu k = some (0, 5)) ∧
    vectorOk (laneEnv (irqN.lane 0) [] 0 6) ((irqN.thread g0).vectorAddr 1) = true := by decide +kernel
/-- A second thread of lane 0 that may still act at VT 2. -/
def beside (s : State) : State := s.putThread (.game 0 1) { at0 .mbar with vt := 2 }
theorem wit_InterruptsTaken_begun : let s := beside (irqT true)
    (s.thread g0).active = true ∧ (s.thread g0).loads = [] ∧ (s.thread g0).entering = none ∧ (s.lane 0).takePoint 0 = some 0 ∧
    (s.lane 0).phase = .running ∧ (s.lane 0).det = true ∧ (s.lane 0).vtCanAt 0 0 = true ∧ (s.lane 0).takeFixed 0 0 = true ∧
    (s.lane 0).readFixed 0 6 = false ∧ (s.lane 0).divCpu 0 = 2 := by decide +kernel
/-- ERET with a source of priority 5 pending while it restores LEVEL 3 and IE 1. -/
def chain : State := runIrq true .eret (fun x => { x with frames := [fr], level := 6 })
theorem wit_InterruptsTaken_chain : chain.issues g0 .eret = true ∧ chain.eretFixed g0 = true ∧ (chain.thread g0).frames = [fr] ∧
    (chain.lane 0).chains 0 ((chain.lane 0).issueVt 0) (chain.lane 0).cpu = some (0, 5) ∧
    vectorOk (chain.env g0) ((chain.thread g0).vectorAddr 1) = true ∧ (chain.thread g0).trapped = false := by
  decide +kernel
theorem wit_FaultsAndTraps_begun : (beside (run true (.ecall 5))).issues g0 (.ecall 5) = true ∧ (beside (run true (.ecall 5))).vectorFixed g0 = false ∧
    ((beside (run true (.ecall 5))).thread g0).frames.length < 16 := by decide +kernel
theorem wit_ChainedReturn_begun : (beside chain).issues g0 .eret = true ∧ (beside chain).eretFixed g0 = false ∧
    ((beside chain).thread g0).frames ≠ [] := by decide +kernel
/-- Thread 0 with an entry or a return from VT 0 in progress. -/
def entering (k : EntryKind) (f : Thread → Thread) : State :=
  runIrq true .mbar (fun x => f { x with entering := some { point := 0, cpu := 2, kind := k } })
theorem wit_ChainedReturn_entering (k : EntryKind) (f : Thread → Thread) (h : ∀ x, (f x).entering = x.entering) :
    ((entering k f).thread g0).entering = some { point := 0, cpu := 2, kind := k } := by
  show (f _).entering = _
  rw [h]
theorem wit_ChainedReturn_goesOn : let s := entering (.except 0 0) id
    (s.thread g0).active = true ∧ (s.lane 0).phase = .running ∧ (s.lane 0).det = true ∧ (s.lane 0).tm.boundary 6 ≤ (s.thread g0).capVt ∧
    (s.thread g0).trapped = false ∧ (s.lane 0).vectorFixed 0 6 = true ∧ vectorOk (laneEnv (s.lane 0) [] 0 6) ((s.thread g0).vectorAddr 0) = true ∧
    ((entering .interrupt (fun x => { x with ie := true })).lane 0).readFixed 0 6 = true ∧
    ((entering .interrupt (fun x => { x with ie := true })).lane 0).entrySource 0 0 2 0 = some (0, 5) ∧
    vectorOk (laneEnv (s.lane 0) [] 0 6) ((s.thread g0).vectorAddr 1) = true := by decide +kernel
theorem wit_ChainedReturn_returns : let s := entering .ret (fun x => { x with frames := [fr], level := 6 })
    let z := entering .ret (fun x => { x with frames := [{ fr with estatus := 0x61 }], level := 6 })
    (s.lane 0).eretFixed 0 0 2 = true ∧ (s.lane 0).chains 0 0 2 = some (0, 5) ∧ (s.thread g0).frames = [fr] ∧
    (z.lane 0).eretFixed 0 0 2 = true ∧ (z.lane 0).chains 0 0 2 = none := by decide +kernel

/-- A waiting context. -/
def sleepy (det : Bool) : State := runIrq det .mbar (fun x => { x with waiting := true })
def deepSys : State := updS (sysRun .mbar) (fun x => { x with waiting := true })
theorem wit_WaitAndBarriers : (run true .wait).issues g0 .wait = true ∧ (sysRun .wait).issues s0 .wait = true ∧
    (deepSys.thread s0).active = true ∧ (deepSys.thread s0).waiting = true ∧ ((sleepy false).lane 0).det = false ∧
    ((sleepy false).thread g0).waiting = true ∧ ((sleepy false).lane 0).wakeAt 0 ((sleepy false).lane 0).bvt = true ∧
    ((sleepy true).lane 0).wakePoint 0 (maxL (((sleepy true).lane 0).wakePoints 0)) = some 0 ∧ ((sleepy true).lane 0).fixed 1 = true ∧
    ((sleepy true).lane 0).silent (fun u => decide (u = 0)) 0 = true ∧ ((sleepy true).thread g0).waiting = true := by decide +kernel
theorem wit_WaitAndBarriers_sync : (run true .mbar).issues g0 .mbar = true ∧ ((run true .mbar).thread g0).sb = [] ∧ ((run true .mbar).thread g0).loads = [] ∧
    (run false .isync).issues g0 .isync = true ∧ (sysRun .isync).issues s0 .isync = true ∧ ((sysRun .isync).thread s0).sb = [] := by decide +kernel

def lp (beam : Bool) : LoadPend :=
  { dest := .g 1, fn := .lb, addr := 0x100, stamp := 0, beam := beam, sent := false, wait := 0, reply := none, split := none }
def loadRun (det : Bool) : State := upd (run det .mbar) (fun x => { x with loads := [lp det] })
/-- A system context with a load of a doubleword outstanding. -/
def loadSys (a : Nat) (v : Option Nat) (b : Option Bytes) : State :=
  updS (sysRun .mbar) (fun x => { x with loads := [{ lp false with fn := .ld, addr := a, reply := v, split := b }] })
/-- A register load that has been sent, and its answer at the front of the beam-reply queue. -/
def asked1 : State := upd (run true .mbar) (fun x => { x with loads := [{ lp true with sent := true, addr := 0xF0034000 }] })
def answer : State := asked1.putLane 0 { asked1.lane 0 with replies := [{ thread := 0, stamp := 0, off := 0x34000, value := 7 }] }
theorem wit_Loads : (run true (.load .lb 1 2 0x7FFF)).issues g0 (.load .lb 1 2 0x7FFF) = true ∧ loadFault 0 0x7FFF (loadWidth .lb) = none ∧
    (run false (.load .ld 1 2 8)).issues g0 (.load .ld 1 2 8) = true ∧ (sysRun (.load .flw 1 2 3)).issues s0 (.load .flw 1 2 3) = true ∧
    ((loadRun false).thread g0).loads[0]? = some (lp false) ∧ ((loadRun false).laneData 0 (lp false)).isSome = true ∧
    (answer.thread g0).loads[0]? = some { lp true with sent := true, addr := 0xF0034000 } ∧ (answer.lane 0).replyFor 0 0 = some 7 := by decide +kernel
/-- Of a system thread's access one or the other clause speaks: what the manual leaves open decides which. -/
theorem wit_SystemAccess (store : Bool) (a n : Nat) : (sysFault store a n = none ∨ ∃ d, sysFault store a n = some d) ∧
    (amoFault true 8 8 = none ∨ ∃ k, amoFault true 8 8 = some k) ∧
    (sysRun (.load .ld 1 2 9)).issues s0 (.load .ld 1 2 9) = true ∧ (sysRun (.amo .add true 1 2 3 0)).issues s0 (.amo .add true 1 2 3 0) = true := by
  refine ⟨?_, ?_, by decide +kernel, by decide +kernel⟩
  · cases h : sysFault store a n <;> simp
  · cases h : amoFault true 8 8 <;> simp
theorem wit_Loads_system : ((loadSys 8 (some 7) none).thread s0).loads.length = 1 ∧ ((loadSys 8 none none).thread s0).loads.length = 1 ∧
    (8 % loadWidth .ld = 0 ∧ 0xFFFFFFFFFFFFFFF9 % loadWidth .ld ≠ 0) ∧ ((loadSys 0xFFFFFFFFFFFFFFF9 none none).thread s0).loads.length = 1 ∧
    ((loadSys 9 none (some [1, 2, 3, 4, 5, 6, 7])).thread s0).loads.length = 1 := by decide +kernel

def sbe : SbEntry := { addr := 0x200, data := [7], stamp := 0 }
def sbRun : State := upd (run true .mbar) (fun x => { x with sb := [sbe] })
def sbSys : State := updS (sysRun .mbar) (fun x => { x with sb := [sbe] })
/-- A store in the video gate, below no fetch. -/
def gateRun : State :=
  let L := ln true .mbar Thread.init
  let r : Ras := { Ras.reset with fl := 1 }
  let n : Sound := { Sound.reset with nextFetch := 80 }
  let u : LaneUnit := { L.unit with ras := r, snd := n }
  st { L with unit := u, log := [{ stamp := 0, rank := 1, addr := 0x20000000, data := [7], gated := true }], gate := [(0, 8388608)] }
theorem wit_StoresAndPrefetch : (run true (.store .sd 1 2 8)).issues g0 (.store .sd 1 2 8) = true ∧ storeFault 0 8 (storeWidth .sd) = none ∧
    (sysRun (.store .sd 1 2 9)).issues s0 (.store .sd 1 2 9) = true ∧ (splitAt 9 8).length = 2 ∧ (sbRun.thread g0).sb = [sbe] ∧
    ((sbRun.lane 0).drainStore 0 sbe).isSome = true ∧ (sbSys.thread s0).sb = [sbe] ∧ (sbSys.thread s0).unread sbe.addr sbe.data.length = false ∧ ((run true .mbar).thread g0).sb = [] ∧
    windowOf 8 ≠ .regs ∧ windowOf 0xF0000000 = .regs ∧ ((run true .mbar).lane 0).queue.length < 64 ∧
    (gateRun.lane 0).gateFirst = some (0, 8388608) ∧ (gateRun.lane 0).fetchLeft 0 = false ∧ (gateRun.lane 0).ckptHold 0 0x20000000 64 = false := by decide +kernel
def emptyQ (det : Bool) (pc : Word) : State := upd (run det .mbar) (fun x => { x with pc := pc, prefetch := [] })
theorem wit_StoresAndPrefetch_fill : ((emptyQ true 0x100).lane 0).validFills [] 0 [] = [] ∧ executable (nextFill 0x100 []) 0 = true ∧
    executable (nextFill 0x30000000 []) 0 = false ∧ (((emptyQ false 0x10000000).lane 0).det = false ∧ windowOf (nextFill 0x10000000 []) ≠ .near ∧
    executable (nextFill 0x10000000 []) 0 = true) ∧ ((sysRun .mbar).thread s0).prefetch.length < 4 ∧
    (((run false .mbar).lane 0).validFills [] 0 (List.replicate 4 (0x100, 0))).length = 4 := by decide +kernel

def amoRun (det : Bool) : State := run det (.amo .cas false 1 2 3 4)
/-- The same at an address of video RAM. -/
def amoVideo : State := upd (amoRun true) (fun x => x.setG 2 0x20000000)
theorem wit_AtomicOperations : (amoRun true).issues g0 (.amo .cas false 1 2 3 4) = true ∧ amoFault false 0 8 = none ∧ ((amoRun true).thread g0).sb = [] ∧
    ((amoRun true).lane 0).amoTurn 0 = true ∧ ((amoRun true).lane 0).ckptHold (((amoRun true).thread g0).vtAfter ((amoRun true).env g0) 0) 0 8 = false ∧
    (amoRun false).issues g0 (.amo .cas false 1 2 3 4) = true ∧ ((amoRun false).thread g0).unread 0 8 = false ∧
    amoVideo.issues g0 (.amo .cas false 1 2 3 4) = true ∧ amoFault false 0x20000000 8 = none ∧ windowOf 0x20000000 = .video ∧
    (amoVideo.lane 0).gateTakes { stamp := 0, rank := 1, addr := 0x20000000, data := [], gated := true } = true ∧
    (sysRun (.amo .add true 1 2 3 0)).issues s0 (.amo .add true 1 2 3 0) = true ∧
    ((sysRun (.amo .add true 1 2 3 0)).thread s0).unread 0 4 = false := by decide +kernel
/-- A running lane without active threads, changed. -/
def lane (det : Bool) (f : Lane → Lane) : State := st (f (ln det .mbar Thread.init))
def be (off data : Nat) (read : Bool) : BeamEntry := { thread := 1, stamp := 0, off := off, width := 4, data := data, read := read, applied := false }
def queued (e : BeamEntry) : State := lane false (fun L => { L with queue := [e] })
/-- A lane with line 0 composed and line 1 fetched. -/
def lineOne : State := lane true (fun L =>
  let r : Ras := { L.unit.ras with cl := 1, fl := 2 }
  let u : LaneUnit := { L.unit with ras := r }
  { L with unit := u, bvt := 79 })
/-- A late frame whose beam has a raster write at dot 0 in the queue. -/
def lateOne : State := lane true (fun L => { L with late := true, lateAt := 1, tail := some Ras.reset, queue := [be 0 1 false] })
def answer0 : BeamReply := { thread := 1, stamp := 0, off := 0x34000, value := 0 }
/-- A lane whose beam stands at milestone 4. -/
def pastFour (L : Lane) : Lane := { L with bvt := L.tm.milVt 4, mil := 5 }
theorem wit_BeamProgress : (lateOne.lane 0).lateWrite = some (be 0 1 false, 0) ∧ ((queued (be 0x34000 1 false)).lane 0).lateWrite = none ∧
    ((queued (be 0x34000 1 false)).lane 0).front = some (be 0x34000 1 false, 0) ∧
    ((queued (be 0x34000 1 false)).lane 0).canServe (be 0x34000 1 false) = true ∧
    ((queued (be 0x34000 0 true)).lane 0).front = some (be 0x34000 0 true, 0) ∧ ((queued (be 0x34000 0 true)).lane 0).canServe (be 0x34000 0 true) = true ∧
    (List.replicate 8 answer0).length = 8 ∧ (lineOne.lane 0).canArrive = true ∧ (lineOne.lane 0).tm.lineAt (lineOne.lane 0).nextMil ≠ 0 ∧
    ((lane true id).lane 0).canArrive = false ∧ ((lane true id).lane 0).unit.lic.milestones = 4 ∧
    ((lane true id).lane 0).tm.milVt 4 < ((lane true id).lane 0).frameEnd ∧ ((lane true id).lane 0).canProject 4 = true ∧
    ((lane false pastFour).lane 0).canArrive = false ∧ ((lane false pastFour).lane 0).tm.milVt 4 ≤ ((lane false pastFour).lane 0).bvt ∧
    ((lane false pastFour).lane 0).canProject 4 = true := by decide +kernel

/-- A lane at the end of frame 0. -/
def ending (f : Lane → Lane) : State := lane true (fun L =>
  let e : Encoder := { L.enc with bf := 1, sf := 1 }
  let c : Lic := { L.unit.lic with milestones := 11 }
  let n : Sound := { L.unit.snd with nextFetch := 2000, nextPlan := 2000, tick := 2000 }
  let r : Ras := { L.unit.ras with cf := 1, ff := 1 }
  let u : LaneUnit := { L.unit with lic := c, snd := n, ras := r }
  f { L with mil := 10, bvt := 799, enc := e, unit := u })
def retiming : LaneInput := { vt := 800, order := 0, kind := 6, slot := 0, data := List.replicate 32 1, cmd := none, applied := false }
theorem wit_FramesAndHolds : ((ending id).lane 0).canEnd = true ∧ ((ending id).lane 0).hold = .none ∧ ((ending id).lane 0).late = false ∧
    ((ending id).lane 0).pauseDue.any = false ∧ ((ending id).lane 0).retimes ((ending id).lane 0).nextMil = false ∧
    ((ending (fun L => { L with inputs := [retiming] })).lane 0).canEnd = true ∧
    ((ending (fun L => { L with inputs := [retiming] })).lane 0).retimes 800 = true ∧
    ((lane true (fun L => { L with hold := .relock })).lane 0).hold = .relock ∧
    ((ending (fun L => { L with late := true })).lane 0).canEnd = true ∧ ((run true .mbar).lane 0).turnsLate 1 = true := by decide +kernel
/-- Lanes in a slack hold, in a vblank hold, and late with the floor far behind. -/
def slackHeld : State := lane true (fun L => { L with hold := .slack })
def tail1 : Ras := { Ras.reset with cf := 1, ff := 1 }
def vblankHeld (t : Option Nat) : State := ending (fun L => { L with late := true, hold := .vblank, bvt := 800, tail := some tail1, tailAt := t })
def farBehind : State := st { ln true .mbar (at0 .mbar) with late := true, unit := (((ln true .mbar (at0 .mbar)).unit).setReg 0x34000 0) }
theorem wit_FramesAndHolds_holds : (slackHeld.lane 0).bvt ≤ (slackHeld.lane 0).floor ∧ (slackHeld.lane 0).phase = .running ∧
    (slackHeld.lane 0).hold.counted = true ∧
    (slackHeld.half .east).sp.later = [] ∧ 2 * (slackHeld.lane 0).period < (((slackHeld.at (10 ^ 12)).time - (slackHeld.lane 0).holdAt : Nat) : Rat) ∧
    ((vblankHeld none).lane 0).tailReached ((vblankHeld none).lane 0).nextMil tail1 = true ∧
    ((vblankHeld (some 0)).lane 0).holdOver ((vblankHeld (some 0)).lane 0).nextMil ((vblankHeld (some 0)).at (10 ^ 12)).time tail1 = true ∧
    ((vblankHeld (some 0)).lane 0).phase = .running ∧
    (farBehind.lane 0).hold = .none ∧ (farBehind.lane 0).slack < (farBehind.lane 0).tm.vtot ∧
    (farBehind.lane 0).lowest = some 0 ∧ 0 + (farBehind.lane 0).slack * (farBehind.lane 0).tm.ll < 1 ∧ (farBehind.lane 0).bvt ≤ 1 ∧
    (farBehind.lane 0).nextWithin 1 = true := by decide +kernel

/-- Effects across threads that are due: the start of thread 1, and source 48. -/
def crossRun (k n : Option Nat) : State := lane false (fun L =>
  let x : Thread := { Thread.init with admitted := true }
  { L with cross := [{ mil := 0, start := k, source := n }], th := [(1, x)] })
theorem wit_ThreadControl : ((crossRun (some 1) none).lane 0).cross = [{ mil := 0, start := some 1, source := none }] ∧
    ((crossRun (some 1) none).lane 0).milVt 0 ≤ ((crossRun (some 1) none).lane 0).bvt ∧
    (((crossRun (some 1) none).lane 0).thread 1).admitted = true ∧ (((crossRun (some 1) none).lane 0).thread 1).active = false ∧
    ((crossRun none (some 48)).lane 0).cross = [{ mil := 0, start := none, source := some 48 }] ∧
    ((lane true id).lane 0).phase ≠ .stopped ∧ ((lane true id).lane 0).queue = [] := by decide +kernel
theorem wit_ThreadControl_due : ((crossRun (some 1) none).lane 0).CrossDue { mil := 0, start := some 1, source := none } ∧
    ({ (crossRun none (some 48)).lane 0 with det := true } : Lane).CrossDue { mil := 0, start := none, source := some 48 } := by
  unfold Lane.CrossDue; decide +kernel

def due : PauseWhy := { PauseWhy.no with command := true }
def toPause : State := ending (fun L => { L with pauseDue := due })
def asleep : State := lane true (fun L =>
  let c : Lic := { L.unit.lic with latchPad := true }
  let u : LaneUnit := { L.unit with lic := c }
  { L with phase := .paused, pausedFor := due, unit := u })
theorem wit_PauseAndWake : (toPause.lane 0).canEnd = true ∧ (toPause.lane 0).pauseDue.any = true ∧ (toPause.lane 0).pauseCmds = [] ∧
    (toPause.lane 0).op.tap = none ∧ (asleep.lane 0).unit.lic.latched = true ∧ (asleep.lane 0).snap = none ∧
    (asleep.lane 0).pausedFor.drain = false := by decide +kernel

/-- A condition of source 63 - 1 = 55 at VT 0, the highest that a source of this kind can have. -/
def condition (n : Nat) : State := lane true (fun L =>
  let c : Lic := { L.unit.lic with events := [(n, 0)] }
  let u : LaneUnit := { L.unit with lic := c }
  { L with unit := u })
theorem wit_ControllerWrites : ((condition 55).lane 0).unit.lic.firstOf 55 = some 0 ∧ 0 < ((condition 55).lane 0).frameEnd ∧
    ((condition 55).lane 0).fixed 0 = true ∧ ((condition 55).lane 0).silent (fun _ => false) 0 = true ∧ ((lane false id).lane 0).phase ≠ .stopped ∧
    ((lane false id).lane 0).queue = [] := by decide +kernel
/-- A capture trigger that waits for step 3 of the period. -/
def triggered : State := lane true (fun L =>
  let x : Timers := { L.unit.tim with trigs := [{ sel := 1, mask := 255 }] }
  let u : LaneUnit := { L.unit with tim := x }
  { L with unit := u })
theorem wit_ControllerWrites_ahead : (triggered.lane 0).unit.lic.firstOf 16 = none ∧ (triggered.lane 0).unit.tim.trigs ≠ [] ∧
    (triggered.lane 0).stepFour = true ∧ ((lane true id).lane 0).unit.lic.firstOf 27 = none ∧ ((lane true id).lane 0).unit.lic.milestones = 4 ∧
    ((lane true id).lane 0).tm.milVt 4 < ((lane true id).lane 0).frameEnd ∧ ((lane true id).lane 0).canProject 4 = true := by decide +kernel

/-- An active source 63, and one that is not. -/
theorem wit_EndOfInterrupt : bit ({ Lic.reset with active := 0x8000000000000000 } : Lic).active 63 = true ∧ bit Lic.reset.active 0 = false := by decide +kernel
/-- A write to LIC_EOI that names source 63. -/
def eoiEntry : BeamEntry := { thread := 3, stamp := 0, off := 0x31150, width := 4, data := 63, read := false, applied := false }
theorem wit_EndOfInterrupt_store : eoiEntry.off = 0x31150 ∧ eoiEntry.read = false ∧ eoiEntry.applied = false ∧
    bit ((lane true (fun L => L.setLic { L.unit.lic with active := 0x8000000000000000 })).lane 0).unit.lic.active (eoiEntry.data % 64) = true ∧
    bit ((lane true id).lane 0).unit.lic.active (eoiEntry.data % 64) = false := by decide +kernel

/-- Timer 7 running, its next tick two LCLK periods after VT 0. -/
def ticking (det : Bool) (f : Timer → Timer) : State := lane det (fun L =>
  let t : Timer := f { Timer.reset with run := true, psc := 1 }
  let x : Timers := { L.unit.tim with t := List.replicate 7 .reset ++ [t] }
  let u : LaneUnit := { L.unit with tim := x }
  { L with unit := u })
theorem wit_TimerCommands : ((ticking true id).lane 0).unit.tim.nextTick 7 = some 2 ∧ ((ticking true id).lane 0).unit.tim.firstTick = some 2 ∧
    ((ticking true id).lane 0).periodOpen 2 = true ∧ ((ticking false id).lane 0).periodOpen 2 = true ∧ 2 < ((ticking false id).lane 0).nextMil ∧
    (((ticking true (fun t => { t with wrapped := true })).lane 0).unit.tim.get 7).wrapped = true ∧
    ((ticking true (fun t => { t with wrapped := true })).lane 0).stepFour = true ∧
    (((ticking true (fun t => { t with due := true })).lane 0).unit.tim.get 7).due = true ∧
    ((ticking true (fun t => { t with due := true })).lane 0).stepFour = true := by decide +kernel
theorem wit_TimerRules : Timers.reset.t.length = 8 ∧ Timers.reset.slave 7 = false ∧ Timers.reset.paired 7 = false ∧ (Timers.reset.get 7).run = false ∧
    (Timers.reset.get 0).run = false ∧ (({ Timers.reset with t := { Timer.reset with run := true } :: List.replicate 7 .reset } : Timers).get 0).run = true := by
  decide +kernel
def cascaded : Timers := { Timers.reset with t := Timer.reset :: { Timer.reset with casc := true } :: List.replicate 6 .reset }
theorem wit_TimerRules_pair : cascaded.t.length = 8 ∧ cascaded.slave 1 = true ∧ cascaded.slave 0 = false ∧ cascaded.paired 0 = true := by decide +kernel

def lf0 : LineFetch := { frame := 0, line := 0, regs := [], cut := 0, sel := [], view := [], taken := [], need := 0, covered := [], listed := true, complete := false }
def lf1 : LineFetch := { lf0 with complete := true }
def withRas (det : Bool) (r : Ras) : State := lane det (fun L =>
  let u : LaneUnit := { L.unit with ras := r }
  { L with unit := u })
def ras1 (f : LineFetch) : Ras := { Ras.reset with lines := [f], fl := 1 }
def tailOf (f : LineFetch) : State := lane true (fun L => { L with tail := some (ras1 f) })
theorem wit_LineFetches : ((lane true id).lane 0).canFetch .beam Ras.reset = true ∧ ((lane true id).lane 0).pass .beam = some Ras.reset ∧
    ((tailOf lf0).lane 0).pass .tailrace = some (ras1 lf0) ∧ (ras1 lf0).lines.find? (fun f => !f.complete) = some lf0 ∧
    ((withRas true (ras1 lf0)).lane 0).pass .beam = some (ras1 lf0) ∧ (∀ g ∈ (ras1 lf0).groups, ((withRas true (ras1 lf0)).lane 0).mil ≤ g.mil) ∧
    ((lane true (fun L => { L with opqPend := [65539] })).lane 0).opqPend = [65539] := by decide +kernel
theorem wit_PictureComposed : ((withRas true (ras1 lf1)).lane 0).pass .beam = some (ras1 lf1) ∧
    (ras1 lf1).lines.find? (fun f => f.complete && decide (f.frame = 0) && decide (f.line = 0)) = some lf1 ∧
    ((withRas true (ras1 lf1)).lane 0).canCompose .beam (ras1 lf1) ((ras1 lf1).nextVt tm) = true ∧
    ((withRas true (ras1 lf1)).lane 0).frameFree .beam (ras1 lf1) = true ∧ ((tailOf lf1).lane 0).canCompose .tailrace (ras1 lf1) 0 = true ∧
    ((withRas true { ras1 lf1 with cx := 1 }).lane 0).unit.ras.composed 0 0 0 = true := by decide +kernel
/-- Point B has read slice 0 of frame 0 and stands in frame 1. -/
def sliced : State := lane true (fun L =>
  let e : Encoder := { L.enc with bf := 1, crcA := [(0, 1)], crcB := [(0, 1)] }
  { L with enc := e, late := true })
theorem wit_PictureComposed_slice : (sliced.lane 0).enc.sf < (sliced.lane 0).enc.bf ∧ (sliced.half .east).viewersOf 0 = [] ∧
    (sliced.lane 0).withheld = true ∧ Sparse.get crcReset (sliced.lane 0).enc.crcA 0 = Sparse.get crcReset (sliced.lane 0).enc.crcB 0 := by decide +kernel

def tf : TapFrame := { slot := 0, size := [], stride := 0, frame := 0, vt := 0, flags := 0, sigs := [], audio := [] }
theorem wit_OperatorSide :
    ((lane true (fun L => { L with op := { L.op with tapDone := some tf } })).lane 0).op.tapDone = some tf ∧
    ((lane true (fun L => { L with op := { L.op with copying := true } })).lane 0).op.copying = true := by decide +kernel

def blt (next : Nat) : BltOp :=
  { ctl := 0, src := 0, dst := 0, size := 0x100010, pitch := 0, fill := 0, key := 0, s := 0, e := 60, groups := 1, next := next, err := 0, writes := [] }
def blitting (next : Nat) : State := lane true (fun L =>
  let u : LaneUnit := { L.unit with blt := some (blt next) }
  { L with unit := u })
theorem wit_BlitterAndSound : (1 : BitVec 64).toNat.testBit 0 = true ∧ ((blitting 0).lane 0).canGroup (blt 0) = true ∧
    ((blitting 1).lane 0).bltOver (blt 1) = true ∧ ((lane true id).lane 0).canSoundFetch = true := by decide +kernel
def sline : SndLine := { mil := 0, cut := 0, need := 0, view := [], echo := [], taken := [], shown := false }
/-- A sound unit with one sample a line and line 0 fetched. -/
def sounding : State := lane true (fun L =>
  let n : Sound := { L.unit.snd with lines := [sline] }
  let u : LaneUnit := { L.unit.setReg 0x21000 80 with snd := n }
  { L with unit := u })
theorem wit_BlitterAndSound_tick : (sounding.lane 0).tickLine = some sline ∧ (sounding.lane 0).canTick [] = true := by decide +kernel

def sample : LaneSample := { vt := 0, mainL := 1, mainR := 2, echoL := 0, echoR := 0 }
def opus : OpusFrame := { output := 4, index := 0, data := [1] }
/-- The lane's audio changed; output 4 has 480 samples. -/
def audio (f : Audio → Audio) : State := lane true (fun L => { L with audio := f L.audio })
def slow : Node := { target := 5, since := 96000, l := { gain := 0, waits := true, src := 0, left := 0 }, r := { gain := 5, waits := false, src := 5, left := 0 } }
theorem wit_AudioRuns : ((audio (fun a => { a with handoff := [sample] })).lane 0).audio.handoff = [sample] ∧
    (∀ k, k < 48 → (Sparse.get nodeReset ((audio id).lane 0).audio.nodes k).timedOut = false) ∧
    (∀ o, o < 5 → (Sparse.get asmReset ((audio id).lane 0).audio.asm o).length < 1024) ∧
    (Sparse.get nodeReset ((audio (fun a => { a with nodes := [(47, slow)] })).lane 0).audio.nodes (8 * 5 + 7)).timedOut = true ∧
    480 ≤ (Sparse.get asmReset ((audio (fun a => { a with asm := [(4, List.replicate 480 (0, 0))] })).lane 0).audio.asm 4).length ∧
    ((audio (fun a => { a with ready := [opus] })).lane 0).audio.ready.find? (fun f => decide (f.output = 4)) = some opus ∧
    ((audio (fun a => { a with ready := [opus] })).half .east).viewersOf 0 = [] ∧
    ((audio (fun a => { a with ann := { Announce.reset with on := true } })).lane 0).audio.ann.on = true := by decide +kernel

def inp (k : Nat) : LaneInput := { vt := 0, order := 0, kind := k, slot := 3, data := List.replicate 16 1, cmd := none, applied := false }
def withInput (k : Nat) : State := lane false (fun L => { L with inputs := [inp k] })
theorem wit_LaneInputs : ((withInput 1).lane 0).canInput (inp 1) = true ∧ ((withInput 1).lane 0).nextInput 1 = some (inp 1) ∧
    ((withInput 2).lane 0).nextInput 2 = some (inp 2) ∧ ((withInput 3).lane 0).nextInput 3 = some (inp 3) ∧
    ((withInput 7).lane 0).nextInput 7 = some (inp 7) ∧ (inp 1).slot < 4 := by decide +kernel

def ck (done : Bool) : Checkpoint :=
  { vt := 0, frame := 0, threads := [], captured := [], unit := LaneUnit.reset, op := .reset, cross := [], queue := [],
    mem := if done then some [] else none, hidden := [], recorded := done, completeAt := if done then some 0 else none, good := false, logPos := 0 }
def good : Checkpoint := { ck true with good := true }
def back : Rollback := { d := 1, h := 800, target := 0, restored := false, pauseAfter := false }
def captured (c : Checkpoint) (f : Lane → Lane) : State := lane true (fun L => f { L with ckpts := [c] })
/-- Thread 3 of a lane at the end of frame 0. -/
def atEnd : State := lane true (fun L => { L with th := [(3, { at0 .mbar with vt := 800 })] })
theorem wit_CheckpointsAndRestore : (atEnd.lane 0).captureAt 3 = some 800 ∧ ((captured (ck false) (fun L => { L with near := 63 })).lane 0).lastCkpt = some (ck false) ∧
    ((captured (ck false) (fun L => { L with near := 63 })).lane 0).nearNext = some 0 ∧ ((captured (ck false) id).lane 0).captures = true ∧ (ck false).recorded = false ∧
    ((captured (ck true) id).half .east).sp.spRestart = false ∧ (ck true).mem.isSome = true ∧
    (((captured (ck true) id).lane 0).sealCkpt 20000).lastCkpt = some (ck true) ∧ (ck true).completeAt = some 0 ∧ (ck true).good = false ∧
    (((captured (ck true) id).at 20000).faultSince 0 0) = false ∧
    ((captured good (fun L => { L with roll := some back, phase := .rolling })).lane 0).targetCkpt = some good ∧
    ((captured good (fun L => { L with roll := some back, phase := .rolling })).half .east).sp.spRestart = false := by decide +kernel

def flow0 : Flow :=
  { id := 7, cipher := 0, key := List.replicate 32 3, epoch := 0, seq := 0, rx := .fresh, prev := none, bound := some ([10, 0, 0, 2], 5000), sub := 0,
    family := 4, srcIdx := 0, vlan := 0, dscp := 0, ttl := 64, dmac := List.replicate 6 2, pmaxCmd := 1400, pmax := 1400 }
/-- A joined player of lane 0, and what it may still have to do. -/
def view0 : Viewer := { viewerOf [] 0 0 with flow := flow0, player := true, slot := 2, pace := 0, state := 1, slotJoined := true }
def item0 : TxItem := { type := 4, flags := 0, frame := 0, slice := 0xFFFF, payload := [1, 2, 3, 4], builtAt := 0 }
def netRun (f : Net → Net) : State := lane false id |> fun s =>
  let p : SubPort := { SubPort.reset with ip4 := [[10, 0, 0, 1]] }
  let b : Boot := { s.east.boot with ready := true, stage := 8, ports := true }
  let n : Net := f { s.east.net with subs := [(0, p)] }
  let e : Half := { s.east with net := n, boot := b }
  { s with east := e }
/-- Viewer `v` of East, of lane 0. -/
def seen (v : Nat) (x : Viewer) : State := netRun (fun n => { n with viewers := [(v, some x)], lanes := [(0, { NetLane.reset with pacer := v, pen := true })] })
/-- A frame that carries a message of a flow's client, sealed with the flow's key (R313, R317). -/
def msg (type seq : Nat) (payload : Bytes) : Rx :=
  let h := runnelHeader type 0 7 seq 0 0 payload.length 0
  { sub := 0, fcsOk := true, size := 128, tags := [], family := 4, plain := true, cksum := some true, dst := [10, 0, 0, 1], src := [10, 0, 0, 2],
    sport := 5000, udp := h ++ gcmSeal (keyOf 0 flow0.key) (runnelNonce 7 seq 1 0) h payload }
/-- What came of a frame is a message of a viewer for which a test holds. -/
def isMsg (test : HalfId → Nat → Viewer → Flow → Bytes → Bool) (type : Nat) : Received → Bool
  | .msg o (.viewer v x) hd fl p => decide (hd.type = type) && decide (x.state ≠ 3) && test o v x fl p
  | _ => false
theorem hears_of {s : State} {h : HalfId} {rx : Rx} {type : Nat} {test : HalfId → Nat → Viewer → Flow → Bytes → Bool}
    (e : isMsg (fun o v x fl p => (decide (type = 0x86) || fl.boundTo rx) && test o v x fl p) type (s.receive h rx) = true) :
    ∃ o v x fl p, s.hears h rx type o v x fl p ∧ test o v x fl p = true := by
  unfold isMsg at e
  split at e
  · rename_i o v x hd fl p r
    simp only [Bool.and_eq_true, Bool.or_eq_true, decide_eq_true_eq] at e
    exact ⟨o, v, x, fl, p, ⟨hd, r, e.1.1, e.1.2, fun n => (e.2.1.resolve_left n)⟩, e.2.2⟩
  · cases e
def queue1 (x : Viewer) : Viewer := { x with items := [item0] }
/-- A viewer with a send bucket: full, and empty. -/
def paced (x : Viewer) (b : Nat) : Viewer := { x with pace := 100, bucket := b, bucketAt := 0 }
def spent : Viewer := { queue1 view0 with flow := { flow0 with seq := 0xFFFFFFFE } }
/-- A lane whose LEAVE is repeated by a viewer whose sequence numbers are used up. -/
def used : Viewer := { view0 with rep := .leave 2 1 0, state := 3, flow := { flow0 with seq := 0xFFFFFFFE } }
def leaving (n : Nat) : Viewer := { view0 with rep := .leave 2 n 0, state := 3 }
theorem wit_Transmission : ((seen 2047 (queue1 view0)).half .east).viewer 2047 = some (queue1 view0) ∧ (queue1 view0).pace = 0 ∧
    (queue1 view0).exhausted = false ∧ ((queue1 view0).pays 0 4).isSome = true ∧ ((paced (queue1 view0) (2 ^ 27)).pays 0 4).isSome = true ∧
    item0.stale ((seen 0 (paced (queue1 view0) 0)).lane 0) 0 = false ∧
    ((seen 0 spent).half .east).viewer 0 = some spent ∧ spent.exhausted = true ∧ spent.state ≠ 3 ∧
    (paced view0 0).pace ≠ 0 ∧ (paced view0 (2 ^ 27)).flow.frameBytes 4 * 8000 ≤ (paced view0 (2 ^ 27)).bucketNow 0 ∧
    (paced view0 0).bucketNow 0 < (paced view0 0).flow.frameBytes 4 * 8000 ∧
    (item0.stale ((seen 0 (paced (queue1 view0) 0)).lane 0) (10 ^ 13) = true) := by decide +kernel
theorem wit_Transmission_repeats : ((seen 0 used).half .east).viewer 0 = some used ∧ used.exhausted = true ∧ used.state = 3 ∧ (leaving 1).exhausted = false ∧
    (paced (queue1 (leaving 0)) 0).items = item0 :: [] ∧ (paced (queue1 (leaving 0)) 0).rep = .leave 2 0 0 ∧
    ((seen 0 { view0 with rep := .move [1] 0 }).half .east).viewer 0 = some { view0 with rep := .move [1] 0 } ∧ view0.state = 1 ∧
    0 + 5000000 ≤ ((seen 0 view0).at 5000000).time ∧ ((seen 0 (leaving 1)).half .east).viewer 0 = some (leaving 1) ∧
    0 + 1000000 ≤ ((seen 0 view0).at 1000000).time ∧ ((leaving 1).pays 1000000 4).isSome = true ∧
    (paced (leaving 1) 0).pays 0 4 = none := by decide +kernel

theorem wit_ClientMessages_ack : ∃ o v x fl p, (seen 0 view0).hears .east (msg 0x81 0 ([0, 0, 0, 0, 0, 0, 0, 0, 0, 0, 0, 0, 1, 0, 0, 0] ++
    [0, 0, 0, 0, 0, 1, 0, 0, 0, 0])) 0x81 o v x fl p ∧ (fun _ _ _ _ _ => true : HalfId → Nat → Viewer → Flow → Bytes → Bool) o v x fl p = true :=
  hears_of (by decide +kernel)
theorem wit_ClientMessages_input : ∃ o v x fl p, (seen 0 view0).hears .east (msg 0x83 0 (List.replicate 24 1)) 0x83 o v x fl p ∧
    (fun _ _ x _ p => x.mayInput && decide (padState p ≠ Sparse.get padZero ((seen 0 view0).lane x.lane).lastPads x.slot) :
      HalfId → Nat → Viewer → Flow → Bytes → Bool) o v x fl p = true :=
  hears_of (by decide +kernel)
theorem wit_ClientMessages_same : ∃ o v x fl p, (seen 0 view0).hears .east (msg 0x83 0 (List.replicate 24 0)) 0x83 o v x fl p ∧
    (fun _ _ x _ p => x.mayInput && decide (padState p = Sparse.get padZero ((seen 0 view0).lane x.lane).lastPads x.slot) :
      HalfId → Nat → Viewer → Flow → Bytes → Bool) o v x fl p = true :=
  hears_of (by decide +kernel)
theorem wit_ClientMessages_accessory : ∃ o v x fl p, (seen 0 view0).hears .east (msg 0x84 0 (List.replicate 8 1)) 0x84 o v x fl p ∧
    (fun _ v x _ p => x.mayInput && decide (p ≠ Sparse.get accZero ((seen 0 view0).lane x.lane).lastAcc v) :
      HalfId → Nat → Viewer → Flow → Bytes → Bool) o v x fl p = true :=
  hears_of (by decide +kernel)
theorem wit_RefreshAndVoice_refresh : ∃ o v x fl p, (seen 0 view0).hears .east (msg 0x82 0 ([1, 0, 0, 0] ++ List.replicate 16 1)) 0x82 o v x fl p ∧
    (fun _ v x _ _ => decide (((seen 0 view0).netLane x.lane).pacer = v) && ((seen 0 view0).netLane x.lane).pen :
      HalfId → Nat → Viewer → Flow → Bytes → Bool) o v x fl p = true :=
  hears_of (by decide +kernel)
/-- The lane of `view0` with no slot muted. -/
def talking : State := (seen 0 view0).putLane 0 { (seen 0 view0).lane 0 with audio := { ((seen 0 view0).lane 0).audio with muted := [false, false, false, false] } }
theorem wit_RefreshAndVoice_voice : ∃ o v x fl p, talking.hears .east (msg 0x85 0 ([0, 0, 2, 0] ++ [1, 2])) 0x85 o v x fl p ∧
    (fun _ _ x _ _ => x.mayInput && !((talking.lane x.lane).audio.muted.getD x.slot true) &&
      decide ((Sparse.get voiceDecReset (talking.lane x.lane).audio.voices x.slot).lastSeq = none) &&
      (Sparse.get voiceDecReset (talking.lane x.lane).audio.voices x.slot).store.isEmpty : HalfId → Nat → Viewer → Flow → Bytes → Bool) o v x fl p = true :=
  hears_of (by decide +kernel)
theorem wit_RefreshAndVoice_lock : Lock.reset.lock = 0 ∧ ({ Lock.reset with lock := 1, good := 59 } : Lock).lock = 1 ∧
    ({ Lock.reset with lock := 2, bad := 7 } : Lock).lock = 2 ∧ ratAbs (0 : Rat) < 1 / 100 ∧ ¬ ratAbs (1 / 20 : Rat) < 1 / 20 := by decide +kernel
theorem wit_JoinProbeCommand_join : ∃ o v x fl p, (seen 0 view0).hears .east (msg 0x86 0 (List.replicate 8 4)) 0x86 o v x fl p ∧
    (fun _ _ x _ _ => decide (x.joinAt = none) : HalfId → Nat → Viewer → Flow → Bytes → Bool) o v x fl p = true :=
  hears_of (by decide +kernel)
/-- A viewer that has joined already, at device time 0. -/
def again : Viewer := { view0 with joinAt := some 0 }
theorem wit_JoinProbeCommand_again : ∃ o v x fl p, (seen 0 again).hears .east (msg 0x86 0 (List.replicate 8 4)) 0x86 o v x fl p ∧
    (fun _ _ x _ _ => decide (x.joinAt = some 0) : HalfId → Nat → Viewer → Flow → Bytes → Bool) o v x fl p = true :=
  hears_of (by decide +kernel)
theorem wit_JoinProbeCommand_probe : ∃ o v x fl p, (seen 0 view0).hears .east (msg 0x87 0 (List.replicate 12 1)) 0x87 o v x fl p ∧
    (fun _ _ x _ _ => decide (x.state = 1) : HalfId → Nat → Viewer → Flow → Bytes → Bool) o v x fl p = true :=
  hears_of (by decide +kernel)
/-- A control flow, and a NOP packet for the device. -/
def ctl : Control := { flow := flow0, mask := 0, kept := [] }
def nopPacket : Bytes := leBytes 2 0x0809 ++ leBytes 2 1 ++ leBytes 2 0xFFFF ++ List.replicate 26 0
def controlled : State := netRun (fun n => { n with control := some ctl })
def isCommand : Received → Bool
  | .msg o (.control c) _ _ p => decide (o = .east) && decide (c = ctl) && decide (p = nopPacket)
  | _ => false
theorem wit_JoinProbeCommand_command : isCommand (controlled.receive .east (msg 0x40 0 nopPacket)) = true ∧ (controlled.half .east).serves = true ∧
    ctl.kept = [] ∧ controlled.cmds = [] ∧ controlled.inFlight (.control .east) < 256 := by decide +kernel

def port (p : SubPort) : State := netRun (fun n => { n with subs := [(3, p)], mode := 2 })
def ours : SubPort := { SubPort.reset with ip4 := [[10, 0, 0, 1]], ip6 := [List.replicate 16 1] }
def carrying : State := let s := port { ours with carry := true }; { s with west := { s.west with net := { s.west.net with subs := [(3, ours)] } } }
def isBad (k : Nat) : Received → Bool
  | .bad j => decide (j = k)
  | _ => false
theorem wit_PortsAndSilence : (((port ours).half .east).sub 3).failed = false ∧ (((port ours).half .east).sub 3).ip4.contains (beBytes 4 0x0A000001) = true ∧
    (((port ours).half .east).sub 3).ip6.contains (beBytes 16 0x01010101010101010101010101010101) = true ∧ ((carrying.half .east).sub 3).carry = true ∧
    ((carrying.half .west).sub 3).ip4.contains (beBytes 4 0x0A000001) = true ∧ 0 < (((port { ours with announce := 3 }).half .east).sub 3).announce ∧
    0 < (((port { ours with back := 3 }).half .east).sub 3).back ∧ (((port { ours with failed := true, up := true }).half .east).sub 3).failed = true ∧
    (((port { ours with failed := true, up := true }).half .east).sub 3).up = true ∧ (port ours).runs = true ∧ ((port ours).half .east).boot.ethClk = true ∧ ((port ours).half .east).boot.ports = true ∧
    ((port ours).half .east).boot.failed = false ∧ ((port ours).half .east).sp.down = false ∧
    3 < subPorts ((port ours).half .east).net.mode ∧ (((port ours).half .east).sub 3).up = false := by decide +kernel
theorem wit_PortsAndSilence_quiet : isBad 0 ((port ours).receive .east { msg 0x87 0 [] with fcsOk := false }) = true ∧
    ((seen 0 view0).half .east).viewer 0 = some view0 ∧ view0.state = 1 ∧ view0.rep.moving = false ∧
    (Repeat.move [1] 0).moving = true ∧ view0.lastRx + ((seen 0 view0).half .east).net.idle * 1000000000 ≤ max 0 (10 ^ 10) ∧
    ((netRun (fun n => { n with lanes := [(0, { NetLane.reset with lock := { Lock.reset with lock := 2 } })] })).netLane 0).lock.lock ≠ 0 := by decide +kernel

/-- A block whose two halves have booted, with East changed. -/
def dev (f : Half → Half) : State :=
  let b : Boot := { State.reset.east.boot with ready := true, stage := 8, ports := true }
  let w : Boot := { State.reset.west.boot with ready := true, stage := 8, ports := true }
  { State.reset with ready := true, powered := true, east := f { State.reset.east with boot := b }, west := { State.reset.west with boot := w } }
/-- A command in flight of a source, for a target. -/
def cmdOf (src : Source) (op target : Nat) (params : Bytes) : Cmd :=
  { id := 1, src := src, opcode := op, tag := 9, target := target, flags := 0, params := params, deadline := 0, raddr := 0, rmax := 4096,
    header := List.replicate 32 0, begun := false, reply := none, discard := false }
def pairOn : QueuePair := { qpReset 3 with en := true, tail := 1 }
def paired : State := dev (fun H => H.putQp 3 pairOn)
def answered : Cmd := { cmdOf (.ring .east 3) 0x0805 0xFFFF [] with begun := true, reply := some { status := 0, detail := 0, result := [] } }
def answered4 : Cmd := { answered with reply := some { status := 0, detail := 0, result := [1, 2, 3, 4] } }
theorem wit_QueuePairs : (dev id).pfUp .east = true ∧ (((dev id).half .east).qp 31).en = false ∧ (0x80CC : BitVec 32).toNat.testBit 15 = true ∧
    (0x80CC : BitVec 32).toNat % 16 = 12 ∧ (0x80CC : BitVec 32).toNat / 16 % 16 = 12 ∧ (0x8044 : BitVec 32).toNat % 16 = 4 ∧
    (0x80D4 : BitVec 32).toNat / 16 % 16 = 13 ∧ (0x8043 : BitVec 32).toNat % 16 = 3 ∧ (0x00CC : BitVec 32).toNat.testBit 15 = false ∧
    ((dev id).half .east).ev.en = false ∧ 4 ≤ (0x8040 : BitVec 32).toNat / 16 % 16 ∧ (0x80C0 : BitVec 32).toNat / 16 % 16 ≤ 12 := by decide +kernel
theorem wit_QueuePairs_fetch : paired.pfUp .east = true ∧ (paired.half .east).serves = true ∧ (paired.half .east).boot.ready = true ∧
    ((paired.half .east).qp 3).en = true ∧ ((paired.half .east).qp 3).errDma = false ∧ ((paired.half .east).qp 3).sqHead ≠ ((paired.half .east).qp 3).tail ∧
    paired.cmds.length < 1024 ∧ paired.inFlight (.ring .east 3) < 2 ^ ((paired.half .east).qp 3).sqlog ∧
    hPlen ((List.replicate 64 0).take 32) ≤ 32 ∧ hPlen (((List.replicate 8 0 ++ leBytes 2 4096 ++ List.replicate 54 0) : Bytes).take 32) = 4096 ∧
    hPlen (((List.replicate 8 0 ++ leBytes 2 4097 ++ List.replicate 54 0) : Bytes).take 32) = 4097 := by decide +kernel
theorem wit_QueuePairs_completion : ((paired.half .east).qp 3).ien = false ∧
    ringFull ((paired.half .east).qp 3).cqlog ((paired.half .east).qp 3).slot ((paired.half .east).qp 3).cqHead = false ∧
    { paired with cmds := [answered] }.completed .east 3 = some (answered, { status := 0, detail := 0, result := [] }) ∧
    { paired with cmds := [answered4] }.completed .east 3 = some (answered4, { status := 0, detail := 0, result := [1, 2, 3, 4] }) := by decide +kernel

def event0 : Event := { code := 1, lane := 0, eseq := 0, frame := 0, time := 0, data := 0 }
def ringing : State := dev (fun H => { H with ev := { EventRing.reset with en := true, buf := [event0] } })
def vec0 (v : MsixVector) : State := dev (fun H => { H with msix := [(63, v)], msixEnable := true, msixMask := false })
def due0 : MsixVector := { MsixVector.reset with masked := false, due := true, lastSent := some 0 }
def smPacket : Bytes := leBytes 2 0x0809 ++ leBytes 2 1 ++ leBytes 2 0xFFFF ++ List.replicate 26 0
theorem wit_EventsAndRegisters : ringing.pfUp .east = true ∧ (ringing.half .east).serves = true ∧ (ringing.half .east).ev.en = true ∧
    (ringing.half .east).ev.ien = false ∧ (ringing.half .east).ev.lostPend = false ∧
    ringFull (ringing.half .east).ev.cqlog (ringing.half .east).ev.slot (ringing.half .east).ev.head = false ∧ (ringing.half .east).ev.buf = event0 :: [] ∧
    Sparse.get msixReset ((vec0 { MsixVector.reset with pending := true }).half .east).msix 63 = { MsixVector.reset with pending := true } ∧
    MsixVector.reset.lastSent = none ∧ Sparse.get msixReset ((vec0 due0).half .east).msix 63 = due0 ∧ due0.due = true ∧ due0.masked = false ∧
    ((vec0 due0).half .east).msixOpen = true ∧ ((dev id).half .east).msixOpen = false ∧
    due0.lastSent = some 0 ∧ 0 + 1000 ≤ max (dev id).time 1000 := by decide +kernel
theorem wit_EventsAndRegisters_bus : ((dev id).at 0).smbusHalf = some .east ∧ smPacket.length = 32 + hPlen smPacket ∧ hPlen smPacket ≤ 32 ∧
    (dev id).inFlight .smbus < 4 ∧ ¬ ([] : Bytes).length = 32 ∧ { dev id with smReplies := [[1]] }.smReplies = [1] :: [] ∧ (dev id).smReplies = [] ∧
    { dev id with smReplies := [[1]] }.smbusHalf = some .east := by decide +kernel
theorem wit_EventsAndRegisters_writes : (((dev id).half .east).queueReg 0x10).map Prod.fst = some 4 ∧ (((dev id).half .east).msixReg 0x3FC).map Prod.fst = some 4 ∧
    ((dev id).svcReg .east 0x3000).map Prod.fst = some 4 ∧
    (findReg threadMap 0x10000).map (fun p => (p.1.width, p.2)) = some (4, 0) ∧ ((lane false id).lane 0).phase ≠ .stopped ∧ ((lane false id).lane 0).queue = [] := by
  decide +kernel
theorem wit_PacketsAndReplies : headerBad (List.replicate 32 255) = true ∧ headerBad (leBytes 2 0x0999 ++ List.replicate 30 0) = false ∧
    opRow (hOp (leBytes 2 0x0999 ++ List.replicate 30 0)) = none ∧ ((opRow 0x0106).map OpRow.lane) = some true ∧
    256 ≤ hTarget (leBytes 2 0x0106 ++ [0, 0] ++ leBytes 2 256 ++ List.replicate 26 0) ∧ ((opRow 0x0809).map OpRow.lane) = some false ∧
    hTarget (leBytes 2 0x0809 ++ [0, 0] ++ leBytes 2 0xFFFE ++ List.replicate 26 0) = 0xFFFE ∧
    (dev id).checkPacket .smbus smPacket [] = none ∧ (dev id).checkPacket .smbus nopPacket [] = none := by decide +kernel
def waits (src : Source) (c : Option Control) : State :=
  let s := dev (fun H => { H with net := { H.net with control := c } })
  { s with cmds := [cmdOf src 0x0809 0xFFFF []] }
/-- A control flow whose sequence numbers are used up. -/
def spentCtl : Control := { ctl with flow := { flow0 with seq := 0xFFFFFFFE } }
theorem wit_PacketsAndReplies_spent : ((waits (.control .east) (some spentCtl)).half .east).net.control = some spentCtl ∧
    spentCtl.flow.bound.isSome = true ∧ 0xFFFFFFFE ≤ spentCtl.flow.seq ∧ ctl.flow.seq < 0xFFFFFFFE := by decide +kernel
theorem wit_PacketsAndReplies_replies : (waits (.ring .east 3) none).cmd 1 = some (cmdOf (.ring .east 3) 0x0809 0xFFFF []) ∧
    (waits .smbus none).cmd 1 = some (cmdOf .smbus 0x0809 0xFFFF []) ∧ ((waits (.control .east) (some ctl)).half .east).net.control = some ctl ∧
    (cmdOf .smbus 0x0809 0xFFFF []).reply = none ∧ (cmdOf (.ring .east 3) 0x0809 0xFFFF []).discard = false := by decide +kernel

/-- A command in flight from the host's ring 3 of East. -/
def sent (s : State) (op target : Nat) (params : Bytes) : State := { s with cmds := [cmdOf (.ring .east 3) op target params] }
def com (op target : Nat) (params : Bytes) : Cmd := cmdOf (.ring .east 3) op target params
/-- The block with a title and a lane 0 of East. -/
def title0 : Title := { data := List.replicate 8 1, digest := List.replicate 48 0, refs := 0, unloading := false, ready := true, copying := false, crcs := [], bad := [] }
def board (L : Lane) : State := (dev (fun H => { H with titles := [(5, some title0)] })).putLane 0 L
def lane0 : Lane := ln false .mbar Thread.init
def block0 : Bytes := leBytes 4 5 ++ [0, 1, 4, 2] ++ leBytes 4 4000000 ++ leBytes 2 128 ++ leBytes 2 192 ++ leBytes 2 96 ++ leBytes 2 104 ++ [0, 1, 0, 0] ++
  leBytes 4 100 ++ [0, 0, 0, 0] ++ leBytes 2 1024 ++ List.replicate 38 0
def fits : Except Nat Seats → Bool
  | .ok _ => true
  | .error _ => false
theorem wit_LaneCommands_start : ((sent (board Lane.absent) 0x0101 0 block0).at 0).starts 1 0x0101 (com 0x0101 0 block0) .east ∧
    ((board Lane.absent).lane 0).phase = .stopped ∧ blockBad block0 = none ∧ badTiming block0 (leAt block0 0x15 1) = none ∧
    (board Lane.absent).findTitle .east 5 = some (title0, true) ∧
    fits ((board Lane.absent).admission 0 block0 (slotNeeds block0)) = true := by
  unfold State.starts; decide +kernel
/-- A lane that has launched, its LANE_START not complete; its thread 0 has issued, or has not. -/
def begun (b : Bool) : State :=
  let s := sent (board { lane0 with startCmd := some (1, [7]) }) 0x0101 0 block0
  { s with east := { s.east with issued := if b then [0] else [] } }
theorem wit_LaneCommands_begun : (sent (board Lane.absent) 0x0101 0 block0).startOf 1 = none ∧ (begun true).startOf 1 = some (0, [7]) ∧
    ((begun true).half .east).issued.contains 0 = true ∧ (begun false).startOf 1 = some (0, [7]) ∧ ((begun false).half .east).issued.contains 0 = false := by
  decide +kernel
/-- A lane whose thread has a store in its buffer. -/
def storing : Lane := { lane0 with th := [(0, { at0 .mbar with sb := [sbe] })] }
theorem wit_LaneCommands_stop : (sent (board storing) 0x0102 0 []).stopWaits 1 = true ∧ (sent (board lane0) 0x0102 0 []).stopWaits 1 = false := by
  decide +kernel
/-- A lane paused by its command, and one paused by a fault only. -/
def held : Lane := { lane0 with phase := .paused, pausedFor := { Lane.absent.pausedFor with command := true } }
def stuck : Lane := { lane0 with phase := .paused, pausedFor := { Lane.absent.pausedFor with fault := true } }
theorem wit_LaneCommands : ((sent (board lane0) 0x0102 0 []).at 0).starts 1 0x0102 (com 0x0102 0 []) .east ∧ (board lane0).lane 0 = lane0 ∧
    ((sent (board lane0) 0x0103 0 []).at 0).starts 1 0x0103 (com 0x0103 0 []) .east ∧ lane0.phase = .running ∧
    ((sent (board stuck) 0x0103 0 []).at 0).starts 1 0x0103 (com 0x0103 0 []) .east ∧ stuck.phase = .paused ∧ stuck.pausedFor.command = false ∧
    ((sent (board held) 0x0104 0 []).at 0).starts 1 0x0104 (com 0x0104 0 []) .east ∧ held.phase = .paused ∧ held.pausedFor.fault = false ∧
    held.pausedFor.test = false ∧ held.pausedFor.drain = false ∧ held.snap = none ∧ held.pausedFor.ladder = false ∧
    ((sent (board lane0) 0x0105 0 [1]).at 0).starts 1 0x0105 (com 0x0105 0 [1]) .east ∧ lane0.live = true ∧
    ((sent (board lane0) 0x0106 0 []).at 0).starts 1 0x0106 (com 0x0106 0 []) .east := by
  unfold State.starts; decide +kernel
def title1 : Title := { title0 with ready := false, copying := true }
theorem wit_LaneCommands_copy : Sparse.get noTitle ((dev (fun H => { H with titles := [(5, some title1)] })).half .east).titles (5 : BitVec 32).toNat = some title1 ∧
    title1.copying = true ∧ (dev (fun H => { H with titles := [(5, some title1)] })).runs = true ∧ ((dev (fun H => { H with titles := [(5, some title1)] })).half .east).held = [] := by decide +kernel

/-- A running lane 0 with viewer 0, and the parameters of VIEWER_ADD for another. -/
def watched : State := (dev (fun H =>
  let n : Net := { H.net with viewers := [(0, some view0)] }
  { H with net := n })).putLane 0 lane0
def vset : Bytes := leBytes 2 0 ++ leBytes 2 15 ++ [0, 0, 0, 0, 0, 0, 3, 3, 1, 0, 0, 0]
def addBytes : Bytes := leBytes 4 9 ++ [0, 3, 0, 6, 0, 0, 0, 0] ++ leBytes 2 1024 ++ [0, 0, 3, 3, 0, 15, 0, 0, 63, 1] ++ List.replicate 40 0
theorem wit_ViewerCommands_add : ((sent watched 0x0201 0 addBytes).at 0).starts 1 0x0201 (com 0x0201 0 addBytes) .east ∧ viewerBad addBytes 2 = none ∧
    (watched.lane 0).phase = .running ∧ (watched.half .east).holder (viewerOf addBytes 0 0).flow.id = none ∧ (watched.half .east).net.drain = false ∧
    (watched.half .east).freeViewer = some 1 ∧ ((watched.half .east).viewersOf 0).length < 32 ∧ (viewerOf addBytes 0 0).slot = 0 ∧ view0.slot = 2 ∧
    ((watched.at 0).overBudget 0 3 0 none = false) := by
  unfold State.starts; decide +kernel
theorem wit_ViewerCommands : ((sent watched 0x0202 0 [0, 0, 0, 0]).at 0).starts 1 0x0202 (com 0x0202 0 [0, 0, 0, 0]) .east ∧
    watched.viewerAt 0 0 = some (0, view0) ∧
    ((sent watched 0x0203 0 vset).at 0).starts 1 0x0203 (com 0x0203 0 vset) .east ∧ leAt vset 2 2 = 15 ∧ leAt vset 10 1 ≤ leAt vset 11 1 ∧
    leAt vset 11 1 = 3 ∧ leAt vset 12 1 = 1 ∧ watched.overBudget 0 view0.flow.sub (leAt vset 4 4) (some 0) = false ∧
    ((sent watched 0x0204 0 (List.replicate 36 0)).at 0).starts 1 0x0204 (com 0x0204 0 (List.replicate 36 0)) .east ∧
    ((sent watched 0x0205 0 [1, 0, 0, 0]).at 0).starts 1 0x0205 (com 0x0205 0 [1, 0, 0, 0]) .east ∧ watched.listed 0 [1, 0, 0, 0] = some [0] ∧
    view0.state = 1 ∧ (dev id).listed 0 [1, 0, 0xFF, 0xFF] = some [] ∧
    ((sent watched 0x0206 0 [0, 0, 1, 0]).at 0).starts 1 0x0206 (com 0x0206 0 [0, 0, 1, 0]) .east := by
  unfold State.starts; decide +kernel

/-- A block that holds the timing of `block0`, and what TIMING_SET gives. -/
def blocked : Lane := { lane0 with block := block0 }
def retime : Bytes := List.replicate 6 0 ++ slice block0 6 14 ++ List.replicate 4 0 ++ leBytes 4 100 ++ [0, 0, 0, 0]
def ovBytes : Bytes := leBytes 4 131070 ++ leBytes 2 2 ++ [0, 0, 1, 1]
def opEntry : Bytes := leBytes 2 0x8000 ++ List.replicate 6 0 ++ leBytes 8 5
def xptBytes : Bytes := leBytes 2 0xBF3F ++ List.replicate 54 0 ++ (List.range 6).flatMap (fun _ => leBytes 4 (48 * 65536)) ++ leBytes 4 20 ++ [0, 0, 0, 0]
theorem wit_TimingCommands : ((sent (board blocked) 0x0301 0 retime).at 0).starts 1 0x0301 (com 0x0301 0 retime) .east ∧ blocked.live = true ∧
    (∀ i, i < 6 → leAt retime i 1 = 0) ∧ (∀ i, i < 4 → leAt retime (0x14 + i) 1 = 0 ∧ leAt retime (0x1C + i) 1 = 0) ∧
    blockTiming block0 retime = block0 ∧ badTiming block0 (leAt block0 0x15 1) = none ∧
    ((sent (board lane0) 0x0302 0 [15, 16, 0xFF, 0x0F, 0, 0]).at 0).starts 1 0x0302 (com 0x0302 0 [15, 16, 0xFF, 0x0F, 0, 0]) .east ∧
    ((sent (board lane0) 0x0303 0 ovBytes).at 0).starts 1 0x0303 (com 0x0303 0 ovBytes) .east ∧ lane0.op.copying = false ∧
    leAt ovBytes 0 4 + leAt ovBytes 4 2 = 131072 ∧ leAt ovBytes 6 2 = 0 ∧
    ((sent (board lane0) 0x0304 0 ([1, 0, 0, 0, 0, 0, 0, 0] ++ opEntry)).at 0).starts 1 0x0304 (com 0x0304 0 ([1, 0, 0, 0, 0, 0, 0, 0] ++ opEntry)) .east ∧
    opEntryOk opEntry = true ∧ ((sent (board lane0) 0x0305 0 []).at 0).starts 1 0x0305 (com 0x0305 0 []) .east ∧
    bit (Sparse.get laneReset lane0.op.stage 0x18800) 0 = false ∧
    ((sent (board lane0) 0x0306 0 xptBytes).at 0).starts 1 0x0306 (com 0x0306 0 xptBytes) .east ∧ firstBad (xptChecks xptBytes) = none ∧
    ((sent (board lane0) 0x0307 0 (leBytes 12 (0x1000000 * 2 ^ 64) ++ [0, 0, 0, 0])).at 0).starts 1 0x0307 (com 0x0307 0 (leBytes 12 (0x1000000 * 2 ^ 64) ++ [0, 0, 0, 0])) .east := by
  unfold State.starts; decide +kernel
theorem wit_TimingCommands_fetch : ((board blocked).half .east).overFetch 0 block0 = none := by decide +kernel
theorem wit_TimingCommands_bind : { com 0x0302 0 [] with flags := 4, deadline := 0xFFFFFFFF }.flags.testBit 2 = true ∧
    serialBefore 0xFFFFFFFF (((board lane0).lane 0).bindAt.2 % 2 ^ 32) = true ∧ serialBefore 1000 (((board lane0).lane 0).bindAt.2 % 2 ^ 32) = false := by
  decide +kernel

def loadBytes : Bytes := leBytes 4 0 ++ leBytes 4 7 ++ leBytes 8 8 ++ leBytes 8 0 ++ sha384 [1, 2, 3, 4, 5, 6, 7, 8]
def page : Bytes := List.replicate 4096 0
def titleC (d : Bytes) (n : Nat) : Title := { title0 with data := d, crcs := [n] }
def titleP : Title := titleC page (crc32 page)
def stocked (t : Title) : State := dev (fun H => { H with titles := [(5, some t)] })
def ofTitle (n k : Nat) : Bytes := leBytes 4 0 ++ leBytes 4 n ++ leBytes 4 k ++ [0, 0, 0, 0]
theorem wit_MemoryCommands_titles : ((sent (dev id) 0x0401 0xFFFF loadBytes).at 0).starts 1 0x0401 (com 0x0401 0xFFFF loadBytes) .east ∧
    Sparse.get noTitle ((dev id).half .east).titles 7 = none ∧ ((dev id).half .east).titleCount < 256 ∧ 8 ≤ ((dev id).half .east).poolFree ∧
    leAt loadBytes 8 8 = 8 ∧ sha384 [1, 2, 3, 4, 5, 6, 7, 8] = slice loadBytes 24 48 ∧
    ((sent (stocked title0) 0x0402 0xFFFF (ofTitle 5 0)).at 0).starts 1 0x0402 (com 0x0402 0xFFFF (ofTitle 5 0)) .east ∧ title0.refs = 0 ∧
    ((sent (stocked titleP) 0x0403 0xFFFF (ofTitle 5 0)).at 0).starts 1 0x0403 (com 0x0403 0xFFFF (ofTitle 5 0)) .east := by
  unfold State.starts; decide +kernel
theorem titleC_stocked (d : Bytes) (n : Nat) : Sparse.get noTitle ((stocked (titleC d n)).half .east).titles 5 = some (titleC d n) ∧
    (titleC d n).crcs.getD 0 0 = n := ⟨rfl, rfl⟩
theorem wit_MemoryCommands_repair : Sparse.get noTitle ((stocked titleP).half .east).titles 5 = some titleP ∧ page.length = 4096 ∧
    titleP.crcs.getD 0 0 = crc32 page := ⟨(titleC_stocked page (crc32 page)).1, List.length_replicate, (titleC_stocked page (crc32 page)).2⟩

/-- A small image of a stopped lane: the block of R434 in section 1, the other sections empty. -/
def imageBody : Bytes := ("DNLANE01".toList.map (fun x => BitVec.ofNat 8 x.toNat)) ++ leBytes 2 0x0256 ++ [0xA1, 1] ++ leBytes 2 0 ++ leBytes 2 8 ++ leBytes 8 0 ++
  leBytes 4 0 ++ leBytes 4 5 ++ List.replicate 48 0 ++ leBytes 8 504 ++ List.replicate 40 0 ++
  (leBytes 4 1 ++ leBytes 4 0 ++ leBytes 8 0x180 ++ leBytes 8 72 ++ leBytes 4 (crc32 block0) ++ leBytes 4 0) ++
  ((List.range 7).flatMap (fun i => leBytes 4 (i + 2) ++ List.replicate 28 0)) ++ block0
def image0 : Bytes := imageBody ++ sha384 imageBody
def restBytes : Bytes := leBytes 4 1 ++ leBytes 4 0 ++ leBytes 8 0 ++ leBytes 8 504
def snap0 (cmd : Option Nat) : Snapshot := { cmd := cmd, live := true, drain := false, rounds := 0, todo := 0, dirty := [], began := 0, frozen := false, image := none }
theorem wit_MemoryCommands_images : ((sent (board lane0) 0x0404 0 (leBytes 4 5 ++ [0, 0, 0, 0])).at 0).starts 1 0x0404 (com 0x0404 0 (leBytes 4 5 ++ [0, 0, 0, 0])) .east ∧
    lane0.snap = none ∧ ((sent (board Lane.absent) 0x0405 0 restBytes).at 0).starts 1 0x0405 (com 0x0405 0 restBytes) .east ∧
    leAt restBytes 0 4 < 2 ∧ image0.take (leAt restBytes 16 8) = image0 ∧ imageBad image0 = none ∧ slice (imageSection image0 1) 0 72 = block0 ∧
    blockBad block0 = none ∧ ((board Lane.absent).half .east).titleReady (leAt image0 0x1C 4) = some title0 ∧ title0.digest = slice image0 0x20 48 ∧
    fits ((board Lane.absent).admission 0 block0 (slotNeeds block0)) = true := by
  unfold State.starts; decide +kernel

/-- A lane with a snapshot in progress: running, and paused at its newest checkpoint. -/
def ckpt0 : Checkpoint :=
  { vt := 0, frame := 0, threads := [], captured := [0, 1, 2, 3], unit := lane0.unit, op := lane0.op, cross := [], queue := [], mem := some [],
    hidden := [], recorded := true, completeAt := some 0, good := true, logPos := 0 }
def snapped (cmd : Option Nat) (z : Lane) : State := { board { z with snap := some (snap0 cmd), ckpts := [ckpt0], bvt := 0 } with cmds := [com 0x0404 0 []] }
def moving (z : Lane) : State := { board { z with snap := some (snap0 (some 1)), ckpts := [ckpt0], bvt := 0 } with cmds := [com 0x0407 0 (leBytes 4 0xFFFF)] }
def paused0 : Lane := { lane0 with phase := .paused, block := block0, title := 5 }
theorem wit_MemoryCommands_rounds : ((snapped none lane0).lane 0).snap = some (snap0 none) ∧ ((snapped none lane0).lane 0).phase = .running ∧
    (snap0 none).frozen = false ∧ (snap0 none).live = true ∧ lane0.pauseDue.drain = false ∧ (((snapped none paused0).lane 0).phase = .paused) ∧
    ((((snapped none paused0).lane 0).sealCkpt 0).pausedCkpt = some ckpt0) ∧ (snapped (some 1) paused0).cmd 1 = some (com 0x0404 0 []) ∧
    ((((board { paused0 with snap := some (snap0 none), bvt := 7, ckpts := [ckpt0] }).lane 0).sealCkpt 0).pausedCkpt = none) ∧
    (moving paused0).cmd 1 = some (com 0x0407 0 (leBytes 4 0xFFFF)) ∧ (((moving paused0).at 0).finishMove 0 ckpt0 (com 0x0407 0 (leBytes 4 0xFFFF))).isSome = true := by
  decide +kernel
def moves : Except (Nat × Nat) (Nat × Seats) → Bool
  | .ok _ => true
  | .error _ => false
def planBytes : Bytes := [1, 0, 0, 0] ++ (leBytes 2 0 ++ [0, 0] ++ leBytes 4 0 ++ [4, 0] ++ List.replicate 18 0)
theorem wit_MemoryCommands_moves : ((sent watched 0x0406 0 planBytes).at 0).starts 1 0x0406 (com 0x0406 0 planBytes) .east ∧
    (leAt (slice planBytes 4 28) 8 1 = 4) ∧ leAt (slice planBytes 4 28) 9 1 = 0 ∧ (watched.viewerAt 0 (leAt (slice planBytes 4 28) 0 2)).isSome = true ∧
    ((sent (board paused0) 0x0407 0 [255, 255, 0, 0]).at 0).starts 1 0x0407 (com 0x0407 0 [255, 255, 0, 0]) .east ∧
    halfOf 255 ≠ halfOf 0 ∧ paused0.snap = none ∧ moves ((board paused0).moveTo 0 255) = true := by
  unfold State.starts; decide +kernel

/-- The block with the commands of its host to the device. -/
def asked (op : Nat) (p : Bytes) : State := sent (dev id) op 0xFFFF p
def flowBytes : Bytes := [0, 0, 3, 4] ++ leBytes 4 9 ++ [0, 0, 0, 15, 0, 0, 63, 1] ++ List.replicate 6 1 ++ [0, 0] ++ List.replicate 16 1 ++ List.replicate 16 0
def emptied : State := dev (fun H => { H with net := { H.net with mode := 2, drain := true } })
def addrBytes : Bytes := [0, 3] ++ List.replicate 6 1 ++ [1, 1] ++ List.replicate 6 0 ++ [10, 0, 0, 9] ++ List.replicate 16 1
def subscribed : State :=
  let s := dev (fun H => { H with net := { H.net with control := some ctl } })
  { s with cmds := [cmdOf (.control .east) 0x0808 0xFFFF [1, 0, 0, 0, 0, 0, 0, 0]] }
theorem wit_DeviceCommands : ((asked 0x0706 (List.replicate 56 0)).at 0).starts 1 0x0706 (com 0x0706 0xFFFF (List.replicate 56 0)) .east ∧
    ((sent emptied 0x0706 0xFFFF flowBytes).at 0).starts 1 0x0706 (com 0x0706 0xFFFF flowBytes) .east ∧ flowBytes.length = 56 ∧ leAt flowBytes 4 4 = 9 ∧
    (∀ i, i < 16 → leAt flowBytes (0x28 + i) 1 = 0) ∧ leAt flowBytes 0x0B 1 = 15 ∧ leAt flowBytes 0x0E 1 = 63 ∧ leAt flowBytes 0x0F 1 = 1 ∧
    3 < subPorts 2 ∧ ((dev id).half .east).holder 9 = none ∧
    ((asked 0x0801 []).at 0).starts 1 0x0801 (com 0x0801 0xFFFF []) .east ∧
    ((sent emptied 0x0802 0xFFFF [0, 31, 3, 1, 1, 0, 1, 0]).at 0).starts 1 0x0802 (com 0x0802 0xFFFF [0, 31, 3, 1, 1, 0, 1, 0]) .east ∧
    (emptied.half .east).portDrained = true ∧ (emptied.half .east).net.mode = 2 ∧ 3 < subPorts (emptied.half .east).net.mode ∧
    ((sent emptied 0x0803 0xFFFF addrBytes).at 0).starts 1 0x0803 (com 0x0803 0xFFFF addrBytes) .east ∧ leAt addrBytes 8 1 = 1 ∧ leAt addrBytes 1 1 = 3 := by
  unfold State.starts; decide +kernel
theorem wit_DeviceCommands_drain : ((asked 0x0804 [0, 0, 0, 0]).at 0).starts 1 0x0804 (com 0x0804 0xFFFF [0, 0, 0, 0]) .east ∧
    ((asked 0x0804 [0, 1, 0, 0]).at 0).starts 1 0x0804 (com 0x0804 0xFFFF [0, 1, 0, 0]) .east ∧
    ((asked 0x0805 ([0, 1] ++ List.replicate 6 0 ++ leBytes 4 0x3FFFFFF)).at 0).starts 1 0x0805
      (com 0x0805 0xFFFF ([0, 1] ++ List.replicate 6 0 ++ leBytes 4 0x3FFFFFF)) .east ∧
    (subscribed.at 0).starts 1 0x0808 (cmdOf (.control .east) 0x0808 0xFFFF [1, 0, 0, 0, 0, 0, 0, 0]) .east ∧
    (subscribed.half .east).net.control = some ctl ∧ ((asked 0x0809 [7]).at 0).starts 1 0x0809 (com 0x0809 0xFFFF [7]) .east := by
  unfold State.starts; decide +kernel

def record0 : FaultRecord :=
  { number := 1, half := 0, cls := 1, action := 0, levee := 0, unitNo := 0, lane := 0xFFFF, frame := 0, time := 0, syndrome := 0, repeats := 0, rflags := 0 }
def recorded : State := dev (fun H =>
  let p : Sparing := { H.sp with records := [record0], last := 1 }
  { H with sp := p })
def injectBytes (site i : Nat) : Bytes := [0] ++ leBytes 1 site ++ leBytes 2 i ++ leBytes 4 0x100
theorem wit_MonitorCommands : ((asked 0x0501 [0, 2, 0, 0, 1, 0, 0, 0]).at 0).starts 1 0x0501 (com 0x0501 0xFFFF [0, 2, 0, 0, 1, 0, 0, 0]) .east ∧
    0 < monCount 2 ∧ ((asked 0x0502 [0, 0, 0, 0, 0, 0, 0, 0]).at 0).starts 1 0x0502 (com 0x0502 0xFFFF [0, 0, 0, 0, 0, 0, 0, 0]) .east ∧
    ((asked 0x0503 (leBytes 4 2 ++ leBytes 4 4095 ++ leBytes 4 1)).at 0).starts 1 0x0503 (com 0x0503 0xFFFF (leBytes 4 2 ++ leBytes 4 4095 ++ leBytes 4 1)) .east ∧
    ((dev id).half .east).auth.role ≠ .isolated ∧ ((asked 0x0504 []).at 0).starts 1 0x0504 (com 0x0504 0xFFFF []) .east ∧
    ((sent recorded 0x0602 0xFFFF (leBytes 4 0 ++ leBytes 4 1 ++ leBytes 4 64)).at 0).starts 1 0x0602
      (com 0x0602 0xFFFF (leBytes 4 0 ++ leBytes 4 1 ++ leBytes 4 64)) .east ∧ (recorded.half .east).sp.records = [record0] ∧
    ((asked 0x0601 (leBytes 4 0 ++ leBytes 4 1)).at 0).starts 1 0x0601 (com 0x0601 0xFFFF (leBytes 4 0 ++ leBytes 4 1)) .east ∧
    ((asked 0x0603 (leBytes 4 0 ++ leBytes 4 0)).at 0).starts 1 0x0603 (com 0x0603 0xFFFF (leBytes 4 0 ++ leBytes 4 0)) .east ∧
    0 < unitCount (unitKind 0) ∧ ((dev id).half .east).isRetired (unitKind 0) 0 = false ∧
    ((dev id).half .east).indexOf .east (luBase .east + 131) = none ∧
    ((asked 0x0604 (injectBytes 12 0)).at 0).starts 1 0x0604 (com 0x0604 0xFFFF (injectBytes 12 0)) .east ∧
    (siteRange .east 12).1 ≤ 0 ∧ 0 < (siteRange .east 12).1 + (siteRange .east 12).2 ∧ (siteRange .east 9).1 = 0 ∧ 0 < (siteRange .east 9).2 ∧
    domainHalf 0 = .east := by
  unfold State.starts; decide +kernel

/-- A signed image of component 2 with an empty body, and a key under which its signature holds: r = s = the hash z, so that the two
multipliers of R519's verification are 1, with Q = R - G for the point R whose x coordinate is z (worked out by hand from the curve). -/
def imageHead : Bytes := "DNFWIMG1".toList.map (fun x => BitVec.ofNat 8 x.toNat) ++ leBytes 2 0x0256 ++ [0xA1, 2] ++ leBytes 4 1 ++ [0, 0, 1, 1] ++ List.replicate 12 0
def signature0 : Nat := 0x9fe3f5c69a08f6af5ede2a468c61f6aa6634392b08c0563b3b450309cbace6cda73f1b9b8aa2ef64f9e33b841c1d89cf
def key0 : Nat × Nat := (0x7c200d80705903da7b2f8e61d4190fafdc313ef50bb25b9322723515e5db4bd22d7d4206657b78ddffef1c1873be7cc1,
  0x508f9b24a055dd391738d0c9b186a221ae4128962a43a5c5a60ff9e6a5eb700c103f0bb4932741ca16a9de8226ebd4e2)
def firmware0 : Bytes := imageHead ++ sha384 imageHead ++ beBytes 48 signature0 ++ beBytes 48 signature0 ++ List.replicate 80 0
/-- Such an image in the staging area of East, with West failed at boot. -/
def staged : State :=
  let s := dev (fun H =>
    let f : Firmware := { H.fw with staging := Mem.writeBytes [] 0 firmware0, keys := [(1, key0)], keyFloor := 1 }
    { H with fw := f })
  { s with west := { s.west with boot := { s.west.boot with failed := true } } }
theorem wit_FirmwareCommands_commit : ((sent staged 0x0702 0xFFFF ([0, 2, 0, 0] ++ leBytes 4 256)).at 0).starts 1 0x0702
      (com 0x0702 0xFFFF ([0, 2, 0, 0] ++ leBytes 4 256)) .east ∧
    (staged.half .east).fw.staging.readBytes 0 (min stagingSize (256 + imgLength ((staged.half .east).fw.staging.readBytes 0 256))) = firmware0 ∧
    staged.commitBad .east 2 firmware0 = none := by
  unfold State.starts; decide +kernel
theorem wit_FirmwareCommands_image : (staged.half .east).fw.badImage firmware0 2 (some 256) false = none := by decide +kernel
def stageBytes : Bytes := leBytes 4 0 ++ leBytes 4 (2 ^ 24 - 1) ++ leBytes 8 0 ++ leBytes 8 1
def drainBytes (n : Nat) : Bytes := leBytes 8 0 ++ leBytes 8 4096 ++ leBytes 8 n
def draining (f : Drain → Drain) : State := dev (fun H =>
  let d : Drain := f { H.drain with state := 1 }
  { H with drain := d })
theorem wit_FirmwareCommands : ((asked 0x0701 stageBytes).at 0).starts 1 0x0701 (com 0x0701 0xFFFF stageBytes) .east ∧ leAt stageBytes 16 4 = 1 ∧
    leAt stageBytes 4 4 + 1 = 2 ^ 24 ∧ ((dev id).half .east).fw.waiting = 0 ∧
    ((asked 0x0703 [0, 0, 0, 0]).at 0).starts 1 0x0703 (com 0x0703 0xFFFF [0, 0, 0, 0]) .east ∧
    ((asked 0x0704 []).at 0).starts 1 0x0704 (com 0x0704 0xFFFF []) .east ∧ ((asked 0x0705 []).at 0).starts 1 0x0705 (com 0x0705 0xFFFF []) .east ∧
    ((asked 0x0806 (drainBytes 0)).at 0).starts 1 0x0806 (com 0x0806 0xFFFF (drainBytes 0)) .east ∧ ((dev id).half .east).drain.state = 0 ∧
    ((sent (draining id) 0x0806 0xFFFF (drainBytes 8192)).at 0).starts 1 0x0806 (com 0x0806 0xFFFF (drainBytes 8192)) .east ∧
    ((draining id).half .east).drain.state ≠ 0 ∧ ((draining id).half .east).drain.buf = false ∧
    ((draining id).half .east).drain.buffersOver = false ∧ ((draining id).half .east).drain.waitOver = false ∧ ((draining id).half .east).drainPhase ≠ 4 ∧
    ((asked 0x0807 []).at 0).starts 1 0x0807 (com 0x0807 0xFFFF []) .east := by
  unfold State.starts; decide +kernel

def fault0 (cls u : Nat) (k : FaultKind) : FaultInfo := { half := .east, cls := cls, unitNo := u, lane := none, kind := k, syndrome := 0 }
/-- A running lane 127 of East with a checkpoint. -/
def rolls : State := (dev id).putLane 127 { lane0 with ckpts := [ckpt0], bvt := 0 }
def restarting : State := dev (fun H =>
  let p : Sparing := { H.sp with spRestart := true }
  { H with sp := p })
theorem wit_FaultsHandled_waits : unitOk .east 15 0 = true ∧ restarting.runs = true ∧ (restarting.half .east).sp.down = false ∧
    (restarting.half .east).sp.spRestart = true := by decide +kernel
theorem wit_FaultsHandled : unitOk .east 15 0 = true ∧ (dev id).runs = true ∧ ((dev id).half .east).sp.down = false ∧ ((dev id).half .east).sp.spRestart = false ∧
    (fault0 15 0 .masked).cls ≠ 14 ∧ unitOk .east 10 0 = true ∧ unitOk .east 3 127 = true ∧ (rolls.half .east).indexOf .east 127 = some 127 ∧ (rolls.half .east).sp.recent (.laneUnit, 127) 0 = 0 ∧
    (rolls.half .east).sp.spares = 128 :: [129, 130, 131] ∧ (rolls.half .east).sp.handoff = none ∧ (rolls.half .east).drain.state = 0 ∧
    (rolls.lane (laneNo .east 127)).phase = .running ∧ (rolls.lane (laneNo .east 127)).goodCkpt.isSome = true := by decide +kernel

def spare (f : Sparing → Sparing) : State := dev (fun H =>
  let p : Sparing := f H.sp
  { H with sp := p })
def unitTest0 : UnitTest := { kind := .laneUnit, idx := 128, cmd := none, retire := false }
theorem wit_RestartAndRotation : ((spare (fun p => { p with spRestart := true })).half .east).sp.spRestart = true ∧
    ((dev id).half .east).boot.failed = false ∧ ((dev id).half .east).fw.restart = none ∧
    ((spare (fun p => { p with recovering := true })).half .east).sp.recovering = true ∧ max (dev id).time 100000000 ≤ ((dev id).half .east).sp.spTime + 100000000 ∧
    ((dev id).half .east).held = [] ∧ (dev id).rotates .east = true ∧ ((dev id).half .east).sp.luHalt = false ∧
    ((dev id).half .east).sp.spares = 128 :: [129, 130, 131] ∧
    ((dev id).half .east).nextUnit .laneUnit 132 (((dev id).half .east).sp.luNext - luBase .east)
      (fun j => (((dev id).half .east).indexOf .east (luBase .east + j)).isSome) = some 0 ∧
    ((dev id).half .east).indexOf .east (luBase .east + 0) = some 0 ∧ ((board lane0).lane (laneNo .east 0)).phase = .running ∧
    ((dev id).lane (laneNo .east 0)).phase = .stopped ∧ ((dev id).half .east).sp.handoff = none := by decide +kernel
theorem wit_RestartAndRotation_swap : ((spare (fun p => { p with handoff := some (127, 131) })).half (halfOf 127)).sp.handoff = some (127, 131) ∧
    (held.canHandOff = true) ∧ ((dev id).half .east).sp.coreHalt = false ∧ ((dev id).half .east).sp.spareCore = some 16 ∧
    ((dev id).half .east).nextUnit .core 17 ((dev id).half .east).sp.coreNext (fun p => (((dev id).half .east).logicalOf p).isSome) = some 0 ∧
    ((dev id).half .east).logicalOf 0 = some 0 ∧ ((dev id).half .east).coreDrained 0 = true ∧ ((spare (fun p => { p with spares := [129], tests := [unitTest0] })).half .east).sp.tests = [unitTest0] ∧
    ((dev id).half .east).indexOf .east (luBase .east + 128) = none ∧ ((dev id).half .east).isRetired .laneUnit 128 = false ∧
    ((spare (fun p => { p with spares := [129], tests := [unitTest0] })).half .east).sp.spares = [129] ∧ 128 < unitCount .laneUnit ∧
    (spare (fun p => { p with spares := [129], tests := [unitTest0] })).clear .east .laneUnit 128 = true := by decide +kernel

def authState (f : Authority → Authority) : State := dev (fun H => H.setAuth (f H.auth))
theorem wit_AuthorityAndClaims_wire : ((authState (fun a => { a with wireOff := [(1, 5)] })).at 0).time < 5 ∧
    Sparse.get zeroNat ((authState (fun a => { a with wireOff := [(1, 5)] })).half .east).auth.wireOff 1 = 5 ∧
    Sparse.get zeroNat ((dev id).half .east).auth.wireOff 1 ≤ ((dev id).at 0).time ∧ ((dev id).half .east).boot.stage ≠ 5 ∧
    (restarting.half .east).sp.recent (.laneUnit, 127) 0 = 0 := by decide +kernel
theorem wit_AuthorityAndClaims : (dev id).talks .east = true ∧ ((dev id).half .east).auth.validWord 1 (heartbeatWord 1 0 0 255) = true ∧
    ((dev id).half .east).auth.validWord 1 (heartbeatWord 1 0 0 255 + 2 ^ 24) = false ∧
    ((authState (fun a => { a with role := .subordinate, claiming := none })).half .east).auth.missed (10 ^ 9) = true ∧
    ((dev id).half .east).auth.role = .inCharge ∧ ((dev id).half .east).auth.peerLost = false ∧ ((dev id).half .east).auth.missed (10 ^ 9) = true ∧
    ((authState (fun a => { a with claiming := some 0 })).half .east).auth.claiming = some 0 ∧ 0 + 8000 ≤ max (dev id).time 8000 ∧
    ((authState (fun a => { a with role := .starting, heardRole1 := true })).half .east).auth.role = .starting ∧
    ((authState (fun a => { a with role := .starting, heardRole1 := false })).half .east).auth.missed (10 ^ 9) = true ∧
    ((dev id).half .east).auth.claimUntil ≤ max (dev id).time (10 ^ 9) ∧ (namesHalf .east 0 = 0 ∧ namesHalf .east 1 = 1 ∧ namesHalf .east 2 = 2) := by
  decide +kernel

def monState (f : Monitors → Monitors) (L : Lane) : State := (dev (fun H => { H with mon := f H.mon })).putLane 0 L
def hot (v : Int) : Sparse Monitor := [(0, { thermalReset 0 with value := v })]
def off : State := { dev id with powered := false }
def laddered : Lane := { lane0 with phase := .paused, pausedFor := { Lane.absent.pausedFor with ladder := true } }
theorem wit_MonitorsAndLifetime_ladder : ((monState (fun m => { m with stage := 3, thermal := hot 1184 }) lane0).half .east).mon.stage = 3 ∧
    1184 ≤ ((monState (fun m => { m with stage := 3, thermal := hot 1184 }) lane0).half .east).thalf ∧
    ladderChoice (((monState (fun m => { m with stage := 3, thermal := hot 1184 }) lane0).half .east).held.filter
      (fun p => decide (p.2.phase = .running) && !p.2.pauseDue.any)) = some (0, lane0) ∧ ((dev id).half .east).mon.ladderAt ≤ max (dev id).time 0 ∧
    ((monState (fun m => { m with ladder := [0] }) laddered).half .east).mon.ladder = 0 :: [] ∧
    ((monState (fun m => { m with ladder := [0] }) laddered).half .east).mon.stage ≠ 3 ∧ laddered.phase = .paused ∧ laddered.pausedFor.ladder = true ∧
    ({ laddered.pausedFor with ladder := false } : PauseWhy).any = false ∧ laddered.snap = none := by decide +kernel
theorem wit_MonitorsAndLifetime_stages : stageEnter 1 ≤ ((monState (fun m => { m with thermal := hot (stageEnter 1) }) lane0).half .east).thalf ∧
    ((monState (fun m => { m with stage := 1, stageAt := 0, thermal := hot (stageLeave 1 - 1) }) lane0).half .east).thalf < stageLeave 1 ∧
    ((monState (fun m => { m with stage := 1, stageAt := 0, thermal := hot (stageLeave 1 - 1) }) lane0).at 1000000000).time = 0 + 1000000000 ∧
    ((monState (fun m => { m with stage := 1, stageAt := 0, thermal := hot (stageLeave 1 - 1) }) lane0).at 999999999).time < 1000000000 ∧
    ((monState (fun m => { m with stage := 1, thermal := hot (stageLeave 1) }) lane0).half .east).thalf = stageLeave 1 ∧ stageLeave 1 < stageEnter 2 ∧
    ((dev id).half .east).mon.floor2 = false ∧ ((dev id).half .east).mon.avsFault = false := by decide +kernel
theorem wit_MonitorsAndLifetime_held : (dev id).operates .east = true ∧ off.operates .east = false ∧
    ((monState (fun m => { m with floor2 := true }) lane0).half .east).mon.stage < ((monState (fun m => { m with floor2 := true }) lane0).half .east).mon.floor ∧
    ((monState (fun m => { m with floor2 := true }) lane0).half .east).mon.floor = 2 := by decide +kernel
theorem wit_MonitorsAndLifetime : ((dev id).half .east).boot.ready = true ∧ avsClose ((dev id).half .east).avsNext (((dev id).half .east).avsNext + 15) = true ∧
    2 ≤ ((monState (fun m => { m with avsNacks := 2 }) lane0).half .east).mon.avsNacks ∧
    ((monState (fun m => { m with avsFault := true }) lane0).half .east).mon.avsFault = true ∧ assoc 7 ((dev id).half .east).mon.droops = none ∧
    assoc 7 ((monState (fun m => { m with droops := [(7, 0)] }) lane0).half .east).mon.droops = some 0 ∧ 0 + 1000 ≤ max (dev id).time 1000 ∧
    (dev id).thermtrip = false ∧ ((dev (fun H => { H with life := { H.life with due := true } })).half .east).life.due = true ∧
    ((dev (fun H => { H with life := { H.life with toMirror := some [] } })).half .east).life.toMirror = some [] ∧
    ((dev id).half (HalfId.peer .east)).sp.down = false := by decide +kernel

def booting (k : Nat) : State := dev (fun H => { H with boot := { H.boot with ready := false, stage := k } })
/-- The same with the port not configured yet. -/
def noPorts (s : State) : State := { s with east := { s.east with boot := { s.east.boot with ports := false } } }
def resetting : State := { dev id with inReset := true }
def unready : State := { dev id with ready := false }
/-- A half at stage 5, its peer behind it. -/
def listening : State := let s := booting 5; { s with west := { s.west with boot := { s.west.boot with stage := 4, ready := false } } }
theorem wit_ResetAndBoot_stages : [RefClk.aon].contains .aon = true ∧ [RefClk.eth .east].contains .aon = false ∧ (listening.at 0).stageMayEnd .east = false ∧
    listening.runs = true ∧ ((booting 4).at 0).stageMayEnd .east = true ∧ ((booting 3).half .east).boot.stage = 3 ∧
    ((noPorts (booting 6)).half .east).boot.ports = false ∧ 3 ≤ ((noPorts (booting 6)).half .east).boot.stage ∧
    ((noPorts (booting 6)).half .east).boot.stage ≤ 6 ∧ (noPorts (booting 6)).runs = true ∧ ((noPorts (booting 6)).half .east).boot.ready = false := by decide +kernel
theorem wit_ResetAndBoot : off.powered = false ∧ (dev id).powered = true ∧ (dev id).inReset = false ∧ resetting.inReset = true ∧ (booting 8).runs = true ∧
    ((booting 8).half .east).sp.down = false ∧ ((booting 8).half .east).boot.failed = false ∧ ((booting 8).half .east).boot.ready = false ∧
    ((booting 8).half .east).boot.stage = 8 ∧ ((booting 0).half .east).boot.stage = 0 ∧ ((booting 7).half .east).boot.stage = 7 ∧
    unready.inCharge = some .east ∧ unready.ready = false ∧ (unready.half .east).boot.ready = true ∧ (unready.half (HalfId.peer .east)).boot.ready = true ∧
    (∀ l ∈ ((dev id).half .east).drain.lanes, halfOf l = .east) := by decide +kernel

def imaged (image : Bytes) : Lane :=
  let z : Snapshot := { snap0 none with drain := true, frozen := true, image := some image }
  { lane0 with phase := .paused, snap := some z, pausedFor := { Lane.absent.pausedFor with drain := true } }
/-- East drains its lane 0, with a buffer of 16 KiB a half or with none. -/
def drains (past buf : Bool) (n : Nat) : State := (draining (fun d =>
  { d with lanes := [0], buffersOver := past, buf := buf, addr := 4096, size := 40960, nextOff := 8192 })).putLane 0 (imaged (List.replicate n 0))
theorem wit_DrainAndFirmware : ((dev id).half .east).serves = true ∧ ((dev id).half .east).pins.input .east .ejectN ≠ none ∧ (dev id).inCharge = some .east ∧
    ((dev id).half .east).drain.state = 0 ∧ ((draining id).half .west).drains = true ∧ ((draining id).half .west).drain.state = 0 ∧
    ((draining id).half (HalfId.peer .west)).drain.state ≠ 0 ∧ ((drains true false 1).lane 0).drainFrozen = true ∧
    ((drains true false 1).half .east).drain.lanes.contains 0 = true ∧ ((drains true false 1).half .east).drain.buffersOver = true ∧
    (drains false true 1).pfUp .east = true ∧ ((drains false true 1).lane 0).snap = some { snap0 none with drain := true, frozen := true, image := some [0] } ∧
    8192 + 1 ≤ ((drains false true 1).half .east).drain.start .east + ((drains false true 1).half .east).drain.part ∧
    ((draining (fun d => { d with size := 8192 })).half .east).drain.start .east + ((draining (fun d => { d with size := 8192 })).half .east).drain.part < 8192 + 1 ∧
    ((draining id).half .east).drain.state = 1 ∧ ((draining id).half .east).drain.buf = false ∧ ((draining id).half .east).drain.waitOver = false ∧
    ((draining id).half .east).drain.began + 2000000000 ≤ max (draining id).time 2000000000 ∧ ((draining id).half .east).drainPhase = 3 := by decide +kernel
def bothDrain : State := { draining id with west := { (draining id).west with drain := { (draining id).west.drain with state := 1 } } }
def fwState (f : Firmware → Firmware) : State := dev (fun H => { H with fw := f H.fw })
def trial (k : Nat) : Component := { a := { state := k, image := [] }, b := { state := 1, image := [] }, active := 1 }
theorem wit_DrainAndFirmware_firmware : (bothDrain.half .west).drainPhase = 3 ∧ bothDrain.inCharge = some .east ∧
    ((fwState (fun f => { f with copyDue := true, waiting := 5 })).half .east).fw.copyDue = true ∧
    ((fwState (fun f => { f with comps := [(1, trial 2)] })).half .east).fw.comp 1 = trial 2 ∧ ((dev id).half .east).auth.passLeft = 0 ∧
    ((dev id).half .east).auth.role = .inCharge ∧ ((dev id).half .west).auth.role ≠ .inCharge ∧
    ((fwState (fun f => { f with restart := some 0 })).half .east).fw.restart = some 0 ∧ 0 + 40000000 ≤ max (dev id).time 40000000 ∧ (trial 3).a.state = 3 ∧
    ((fwState (fun f => { f with tables := true })).half .east).fw.tables = true ∧ 256 + ([] : Bytes).length ≤ slotSize 5 := by decide +kernel

def pinned (mode : Nat) (f : Pins → Pins) : State := dev (fun H => { H with pins := f { H.pins with strapMode := mode }, band := 1 })
def sealed : State := pinned 2 (fun p => { p with cfg := [(7, 0x40)] })
def open0 (t : Nat) : State := { dev id with presence := { (dev id).presence with openAt := some 0, endAt := t } }
theorem wit_PresenceAndPins : (pinned 0 id).reports .east = true ∧ ((pinned 0 id).half .east).pins.strapMode = 0 ∧
    ((pinned 0 id).half .east).pins.input .east .serviceBtn ≠ none ∧ sealed.reports .east = true ∧ (sealed.half .east).pins.strapMode = 2 ∧
    (sealed.half .east).band = 1 ∧ (sealed.half .east).pins.sensesSeal .east = true ∧ (dev id).presence.openAt = none ∧ (dev id).presence.lockdown = false ∧
    (open0 5).presence.openAt = some 0 ∧ (open0 5).time ≤ (open0 5).presence.endAt ∧ (open0 5).presence.endAt ≤ max (open0 5).time 5 ∧
    (sealed.half .east).pins.input .east .seal = some 7 ∧ (sealed.half .east).pins.analog .east 7 = true ∧ (sealed.half .east).loopBand ≠ 2 ∧
    sealBand ((0xFFF : BitVec 12).toNat * 125) = 2 ∧ sealed.runs = true ∧ (sealed.half .east).boot.failed = false ∧
    (sealed.half .east).sp.down = false := by decide +kernel
theorem wit_PresenceAndPins_live : (dev id).runs = true ∧ ((dev id).half .east).boot.failed = false ∧ ((dev id).half .east).sp.down = false := by decide +kernel
theorem wit_PresenceAndPins_pins : (dev id).pfUp .east = true ∧ guardedFns.contains (((dev id).half .east).pins.fn .east 8) = true ∧ (dev id).mayGuard = false ∧
    guardedFns.contains (((dev id).half .east).pins.fn .east 31) = false ∧ guardedFns.contains (pinFn 31 0) = false ∧ (open0 5).mayGuard = true ∧
    ((dev id).half .east).pins.sel .east 31 = 0 ∧ guardedFns.contains (pinFn 31 1) = false ∧
    ((pinned 0 (fun p => { p with holds := [(31, some (1, 0))] })).half .east).pins.held 31 = some (1, 0) ∧
    irqHolds (Sparse.get zeroNat [(31, 1)] 31) false true = true ∧ irqHolds (Sparse.get zeroNat ((dev id).half .east).pins.irqMode 31) false true = false := by
  decide +kernel

theorem wit_StepTakesFront : { dev id with pending := [.mirrorWrite .east true, .pwrgdFall] }.pending = .mirrorWrite .east true :: [.pwrgdFall] ∧
    (dev id).pending = [] := by decide +kernel
theorem wit_StopsExactly : (Instr.mbar (.game 256 0)).wellFormed = false ∧ (Instr.mbar (.game 255 3)).wellFormed = true ∧ s0.ok = true ∧
    (sysRun (.sysx 0)).issues s0 (.sysx 0) = true ∧ (sysRun (.mfs 1 0x800)).issues s0 (.mfs 1 0x800) = true ∧ 0x800 ≤ (0x800 : BitVec 12).toNat ∧
    (sysRun (.mts 1 0xFFF)).issues s0 (.mts 1 0xFFF) = true := by decide +kernel
def isNext : Res → Bool
  | .next _ => true
  | _ => false
theorem wit_StepKeepsBounds : (dev id).bounded ∧ isNext (step { dev id with pending := [.mirrorWrite .east true] }) = true :=
  ⟨fun h => by cases h <;> decide +kernel, by decide +kernel⟩
theorem wit_LaneIsolation : laneWork (.mbar g0) = some 0 ∧ isNext (exec (.mbar g0) (run true .mbar)) = true ∧
    ((run true .mbar).lane 0).phase ≠ .stopped := by decide +kernel
/-- A NOP of the host's ring, for each thing that turns it away. -/
def late : State := { board { lane0 with bvt := 10 ^ 6 } with cmds := [{ com 0x0303 0 [] with flags := 4, deadline := 0xFFFFFFFF }] }
theorem wit_CommandGate : opcodeOf (.ovLoad 1 0) = some (0x0303, 1, 0) ∧ lane0.op.copying = false ∧
    (late.at 0).cmd 1 = some { com 0x0303 0 [] with flags := 4, deadline := 0xFFFFFFFF } ∧
    (late.at 0).mayBegin { com 0x0303 0 [] with flags := 4, deadline := 0xFFFFFFFF } 0x0303 = some .east ∧
    (late.at 0).gate { com 0x0303 0 [] with flags := 4, deadline := 0xFFFFFFFF } .east = some (11, 0) ∧
    ({ board lane0 with safe := true }.gate (com 0x0303 0 []) .east).map Prod.fst = some 5 ∧
    ((draining id).gate (com 0x0201 0 []) .east).map Prod.fst = some 5 ∧
    (waits .smbus none).mayBegin { cmdOf .smbus 0x0809 0xFFFF [] with begun := true } 0x0809 = none ∧ (dev id).cmd 1 = none := by decide +kernel

/-! An ill-formed command for each check of WellFormed. -/
theorem test_ill_lane : Instr.wellFormed (.soundTick 256) = false := by decide
theorem test_ill_game_thread : Instr.wellFormed (.mbar (.game 0 4)) = false := by decide
theorem test_ill_system_context : Instr.wellFormed (.mbar (.sys .west 0 13)) = false := by decide
theorem test_ill_system_core : Instr.wellFormed (.mbar (.sys .west 16 14)) = false := by decide
theorem test_ill_writer : Instr.wellFormed (.licEnableSet 0 4 0 0) = false := by decide
theorem test_ill_target : Instr.wellFormed (.thrCtlExit 0 0 4 0) = false := by decide
theorem test_ill_source : Instr.wellFormed (.licSourcePending 0 64) = false := by decide
theorem test_ill_timer : Instr.wellFormed (.timerTick 0 8) = false := by decide
theorem test_ill_timer_pair : Instr.wellFormed (.timCntPairRead 0 4) = false := by decide
theorem test_ill_opacity_word : Instr.wellFormed (.rasOpqWrite 0 2 0) = false := by decide
theorem test_ill_weir : Instr.wellFormed (.weirInput 0 5) = false := by decide
theorem test_ill_crossing : Instr.wellFormed (.nodeTimeout 0 6 0) = false := by decide
theorem test_ill_output : Instr.wellFormed (.opusFrameEncode 0 5) = false := by decide
theorem test_ill_viewer : Instr.wellFormed (.viewerIdle .east 2048 0) = false := by decide
theorem test_ill_subport : Instr.wellFormed (.gratuitousArp .west 4) = false := by decide
theorem test_ill_hbm_address : Instr.wellFormed (.scrub .east 0xC00000000 .none 0) = false := by decide
theorem test_ill_pseudo_channel : Instr.wellFormed (.pseudoChannelSpare .east 64) = false := by decide
theorem test_ill_queue_pair : Instr.wellFormed (.sqTailWrite .east 32 0) = false := by decide
theorem test_ill_vector : Instr.wellFormed (.msixVectorUnmask .east 64 0) = false := by decide
theorem test_ill_fault_class : Instr.wellFormed (.faultDetected (fault0 16 0 .masked) 0) = false := by decide
theorem test_ill_fault_unit : Instr.wellFormed (.faultDetected (fault0 3 132 .masked) 0) = false := by decide
theorem test_ill_fault_lane : Instr.wellFormed (.faultDetected { fault0 4 0 .detected with lane := some 128 } 0) = false := by decide
theorem test_ill_tested_unit : Instr.wellFormed (.unitTestComplete .east .core 17 true 0) = false := by decide
theorem test_ill_wire : Instr.wellFormed (.heartbeatReceive .east 2 0 0) = false := by decide
theorem test_ill_monitor : Instr.wellFormed (.monitorUpdate .east 1 24 0 0) = false := by decide
theorem test_ill_rail : Instr.wellFormed (.droopStart .east 8 0) = false := by decide
theorem test_ill_pin : Instr.wellFormed (.mfioSwitchHoldEnd .west 32) = false := by decide
theorem test_ill_register_space : Instr.wellFormed (.registerWrite { space := .thread 0 4 0, off := 0, width := 4, value := 0 }) = false := by decide

/-! Words written out bit by bit from R109 and R111: op, rd or rt, ra or base, then rb, rc and fn, or a displacement. -/
theorem test_word_alu : ndecode 0b00000100001000100001100000000000 = some (.alu .add 1 2 3 0) := by decide
theorem test_word_sel : ndecode 0b00000100001000100001100100011000 = some (.alu .sel 1 2 3 4) := by decide
theorem test_word_immediate : ndecode 0b00100000001000101111111111111110 = some (.imm .addi 1 2 0xFFFE) := by decide
theorem test_word_mul : ndecode 0b00001000001000100001100100000100 = some (.mul .mulxsu 1 2 3 4) := by decide
theorem test_word_div : ndecode 0b00001100001000100001100100000001 = some (.div .divu 1 2 3 4) := by decide
theorem test_word_fp : ndecode 0b00010000001000100001100000100011 = some (.fp .double .fdiv 1 2 3 0) := by decide
theorem test_word_fma : ndecode 0b00010100001000100001100100000010 = some (.fma .single false true 1 2 3 4) := by decide
theorem test_word_branch : ndecode 0b01001000001000101111111111111111 = some (.br .blt 1 2 0xFFFF) := by decide
theorem test_word_jump : ndecode 0b01100000000000000000000000000101 = some (.j 5) := by decide
theorem test_word_jalr : ndecode 0b01101000001000100000000000000100 = some (.jalr 1 2 4) := by decide
theorem test_word_load : ndecode 0b10010000001000100000000000001000 = some (.load .lw 1 2 8) := by decide
theorem test_word_store : ndecode 0b10111100001000101111111111111000 = some (.store .sd 1 2 0xFFF8) := by decide
theorem test_word_amo : ndecode 0b11010000001000100001100100101001 = some (.amo .cas true 1 2 3 4) := by decide
theorem test_word_mfs : ndecode 0b11110000001000000000000100100011 = some (.mfs 1 0x123) := by decide
theorem test_word_mts : ndecode 0b11110000000000100001000100100011 = some (.mts 2 0x123) := by decide
theorem test_word_ecall : ndecode 0b11110000000000000100000000000101 = some (.ecall 5) := by decide
theorem test_word_ebreak : ndecode 0b11110000000000000101000000000000 = some .ebreak := by decide
theorem test_word_sysx : ndecode 0b11110111111111111111111111111111 = some (.sysx 0x3FFFFFF) := by decide
theorem test_word_zero : ndecode 0 = none := by decide
theorem test_word_unused_field : ndecode 0b00000100001000100001100001000000 = none := by decide
theorem test_word_unassigned : ndecode 0b00011000001000100001100000000000 = none := by decide
theorem wit_WordsRoundTrip : NInstr.wf (.amo .cas true 31 31 31 31) = true ∧ ndecode 0b11010011111111111111111111101001 = some (.amo .cas true 31 31 31 31) := by
  decide

/-! Results worked out by hand, and check values of published standards. -/
def gOf (r : RegNo) : Res → Option Word
  | .next s => some ((s.thread g0).gReg r)
  | _ => none
def given (i : NInstr) (a b : Word) : State := upd (run true i) (fun x => (x.setG 2 a).setG 3 b)
/-- 2^31 - 1 plus 1, as 32 bits, is -2^31 (R112). -/
theorem test_addw_wraps : gOf 1 (exec (.aluOp g0 .addw 1 2 3 0) (given (.alu .addw 1 2 3 0) 0x7FFFFFFF 1)) = some 0xFFFFFFFF80000000 := by decide +kernel
/-- The count of a shift is its low six bits (R112). -/
theorem test_sra_count : gOf 1 (exec (.aluOp g0 .sra 1 2 3 0) (given (.alu .sra 1 2 3 0) 0x8000000000000000 65)) = some 0xC000000000000000 := by decide +kernel
/-- A source that is the destination as well (R112). -/
theorem test_sub_same : gOf 2 (exec (.aluOp g0 .sub 2 2 3 0) (given (.alu .sub 2 2 3 0) 3 5)) = some 0xFFFFFFFFFFFFFFFE := by decide +kernel
/-- SHI moves up the bits and fills the low sixteen (R113). -/
theorem test_shi : gOf 1 (exec (.immediateOp g0 .shi 1 2 0x8001) (given (.imm .shi 1 2 0x8001) 0x1234 0)) = some 0x12348001 := by decide +kernel
/-- g0 discards what is written to it (R104). -/
theorem test_g0 : gOf 0 (exec (.aluOp g0 .add 0 2 3 0) (given (.alu .add 0 2 3 0) 3 5)) = some 0 := by decide +kernel
/-- The corners of R115. -/
theorem test_divs_overflow : divResult .divs 0x8000000000000000 0xFFFFFFFFFFFFFFFF = (0x8000000000000000, 0) := by decide
theorem test_divsw_zero : divResult .divsw 0x80000001 0 = (0, 0xFFFFFFFF80000001) := by decide
theorem test_divs_sign : divResult .divs (w64 (2 ^ 64 - 7)) 2 = (w64 (2 ^ 64 - 3), w64 (2 ^ 64 - 1)) := by decide
/-- 1 + 1 = 2, and the largest finite binary32 doubled is an infinity with OF and NX (R126, R127). -/
theorem test_fadd : fpResult .double .fadd 0 0x3FF0000000000000 0x3FF0000000000000 0 0 = (0x4000000000000000, {}) := by decide +kernel
theorem test_fadd_overflow : (fpResult .single .fadd 0 0x7F7FFFFF 0x7F7FFFFF 0 0).1 = 0x7F800000 := by decide +kernel
/-- Zero by zero is invalid: the default NaN of R126, with NV. -/
theorem test_fdiv_invalid : fpResult .single .fdiv 0 0 0 0 0 = (0x7FE00000, { nv := true }) := by decide +kernel
/-- 2.5 to an integer: 2 to nearest even, 3 away from zero (R128). -/
theorem test_ftoi_even : (fpResult .double .ftoi 0 0x4004000000000000 0 0 1).1 = 2 := by decide +kernel
theorem test_ftoi_away : (fpResult .double .ftoi 0 0x4004000000000000 0 0 5).1 = 3 := by decide +kernel
/-- A NaN to an integer gives 0 with NV (R128). -/
theorem test_ftoi_nan : fpResult .double .ftoi 0 0x7FF8000000000000 0 2 0 = (0, { nv := true }) := by decide +kernel
/-- The check values of the published codes for the digits 1 to 9, and SHA-384 of `abc` (FIPS 180-4). -/
def digits : Bytes := [0x31, 0x32, 0x33, 0x34, 0x35, 0x36, 0x37, 0x38, 0x39]
theorem test_crc8 : crc8 digits = 0xF4 := by decide +kernel
theorem test_crc32 : crc32 digits = 0xCBF43926 := by decide +kernel
theorem test_sha384 : beNat (sha384 [0x61, 0x62, 0x63]) =
    0xCB00753F45A35E8BB5A03D699AC65007272C32AB0EDED1631A8B605A43FF5BED8086072BA1E7CC2358BAECA134C825A7 := by decide +kernel
/-- AES-256 of FIPS 197, appendix C.3. -/
theorem test_aes : aes (List.range 32) ((List.range 16).map (fun i => 17 * i)) =
    [0x8E, 0xA2, 0xB7, 0xCA, 0x51, 0x67, 0x45, 0xBF, 0xEA, 0xFC, 0x49, 0x90, 0x4B, 0x49, 0x60, 0x89] := by decide +kernel

end Sys2Proof.Tests
end

section
/-! PROOFS. Control transfers (R116, R117, R143): targets, costs, the link, and what a transfer leaves of its thread. -/
namespace Sys2Proof.Machine
open Sys2Proof

/-! Targets: the model's sign extension is that of bit vectors, and its shift by 2 is the rule's multiplication by 4. -/

theorem signed_toNat {n : Nat} (b : BitVec n) : signed n b.toNat = b.toInt := by
  cases n with
  | zero => simp [BitVec.eq_nil b, signed]
  | succ n =>
    have half : 2 ^ (n + 1) = 2 * 2 ^ n := Nat.pow_succ'
    have lt := b.isLt
    simp only [signed, BitVec.toInt, Nat.mod_eq_of_lt lt, Nat.add_sub_cancel]
    split <;> split <;> omega

theorem sextN_toNat {n : Nat} (b : BitVec n) : sextN n b.toNat = b.signExtend 64 := by
  rw [sextN, signed_toNat, BitVec.signExtend]

theorem shiftLeft_two_eq_mul_four (w : Word) : w <<< 2 = w * 4 := by
  bv_omega

theorem brTarget_eq (pc : Word) (off : BitVec 16) : brTarget pc off = pc + off.signExtend 64 * 4 := by
  rw [brTarget, sextN_toNat, shiftLeft_two_eq_mul_four]

theorem jTarget_eq (pc : Word) (off : BitVec 26) : jTarget pc off = pc + off.signExtend 64 * 4 := by
  rw [jTarget, sextN_toNat, shiftLeft_two_eq_mul_four]

theorem effAddr_eq (base : Word) (off : BitVec 16) : effAddr base off = base + off.signExtend 64 := by
  rw [effAddr, sextN_toNat]

/-- The condition of each compare-and-branch as R116 words it. -/
def BrHolds (fn : BrFn) (a b : Word) : Prop :=
  match fn with
  | .beq => a = b
  | .bne => a ≠ b
  | .blt => a.toInt < b.toInt
  | .bge => b.toInt ≤ a.toInt
  | .bltu => a.toNat < b.toNat
  | .bgeu => b.toNat ≤ a.toNat

theorem brTaken_iff (fn : BrFn) (a b : Word) : brTaken fn a b = true ↔ BrHolds fn a b := by
  cases fn with
  | beq => exact beq_iff_eq
  | bne => exact bne_iff_ne
  | blt => exact BitVec.slt_iff_toInt_lt
  | bge => simp [brTaken, BrHolds, BitVec.slt]
  | bltu => exact BitVec.ult_iff_toNat_lt
  | bgeu => simp [brTaken, BrHolds, BitVec.ult]

/-! What an instruction leaves of its thread, update by update. -/

/-- The frame that a control transfer keeps: the registers outside a list, the system registers, the work under way and FCSR. -/
def Thread.keepsBut (x y : Thread) (d : List Dest) : Prop :=
  x.keepsRegs y d ∧ x.keepsSys y ∧ x.keepsWork y ∧ y.fcsr = x.fcsr

theorem Thread.keepsBut_stampNow (x : Thread) (e : CoreEnv) (d : List Dest) : x.keepsBut (x.stampNow e) d := by
  simp [keepsBut, keepsRegs, keepsSys, keepsWork]

theorem Thread.keepsBut.jump {x y : Thread} {d : List Dest} (h : x.keepsBut y d) (a : Word) : x.keepsBut (y.jump a) d := h

theorem Thread.keepsBut.next {x y : Thread} {d : List Dest} (h : x.keepsBut y d) : x.keepsBut y.next d := h

theorem Thread.keepsBut.charge {x y : Thread} {d : List Dest} (h : x.keepsBut y d) (e : CoreEnv) (n : Nat) :
    x.keepsBut (y.charge e n) d := by
  simpa [keepsBut, keepsRegs, keepsSys, keepsWork] using h

/-- A link writes its own register only. -/
theorem Thread.keepsBut.setG {x y : Thread} {d : List Dest} (h : x.keepsBut y d) {r : RegNo} (hr : Dest.g r ∈ d) (v : Word) :
    x.keepsBut (y.setG r v) d := by
  obtain ⟨⟨hg, hf⟩, hsys, hwork, hfcsr⟩ := h
  refine ⟨⟨fun q hq => ?_, by simpa using hf⟩, by simpa [keepsSys] using hsys, by simpa [keepsWork] using hwork, by simpa using hfcsr⟩
  have other : q ≠ r := fun e => hq (e ▸ hr)
  rw [gReg_setG, if_neg other, hg q hq]

theorem Thread.gReg_setG_same (x : Thread) (r : RegNo) (v : Word) : (x.setG r v).gReg r = written r v := by
  rw [gReg_setG, if_pos rfl, written]

/-- A charge of `n` virtual cycles at an instruction's turn gives the VT of R39 and R61. -/
theorem Thread.charge_vt_of_stamped {x y : Thread} {e : CoreEnv} (h : y.vt = (x.stampNow e).vt) (n : Nat) :
    (y.charge e n).vt = x.vtAfter e n := by
  rw [charge_vt, h, stampNow_vt, vtAfter]
  split <;> rfl

/-- Outside deterministic mode no cost shows in the VT (R61). -/
theorem Thread.stampNow_vt_of_not_det {e : CoreEnv} (h : e.det = false) (x : Thread) (n : Nat) :
    (x.stampNow e).vt = x.vtAfter e n := by
  rw [stampNow_vt, vtAfter, h]
  rfl

/-! A transfer: the jump with its charge (R143). -/

/-- A taken transfer to `a`, with its cost. -/
def Thread.transfer (e : CoreEnv) (a : Word) (x : Thread) : Thread := (x.jump a).charge e (jumpCost a 12 2)

@[simp] theorem Thread.transfer_pc (e : CoreEnv) (a : Word) (x : Thread) : (x.transfer e a).pc = a := by
  simp [transfer]

@[simp] theorem Thread.gReg_transfer (e : CoreEnv) (a : Word) (x : Thread) (r : RegNo) : (x.transfer e a).gReg r = x.gReg r := by
  simp [transfer]

theorem Thread.keepsBut.transfer {x y : Thread} {d : List Dest} (h : x.keepsBut y d) (e : CoreEnv) (a : Word) :
    x.keepsBut (y.transfer e a) d :=
  (h.jump a).charge e _

theorem Thread.transfer_vt_of_stamped {x y : Thread} {e : CoreEnv} (h : y.vt = (x.stampNow e).vt) (a : Word) :
    (y.transfer e a).vt = x.vtAfter e (jumpCost a 12 2) :=
  charge_vt_of_stamped (by rw [jump_vt, h]) _

/-- A transfer that links in `r`, at the turn of an instruction of `x`. -/
def Thread.linkTransfer (e : CoreEnv) (r : RegNo) (a : Word) (x : Thread) : Thread :=
  ((x.stampNow e).setG r (x.pc + 4)).transfer e a

@[simp] theorem Thread.linkTransfer_pc (e : CoreEnv) (r : RegNo) (a : Word) (x : Thread) : (x.linkTransfer e r a).pc = a :=
  transfer_pc _ _ _

theorem Thread.gReg_linkTransfer_same (e : CoreEnv) (r : RegNo) (a : Word) (x : Thread) :
    (x.linkTransfer e r a).gReg r = written r (x.pc + 4) := by
  rw [linkTransfer, gReg_transfer, gReg_setG_same]

theorem Thread.keepsBut_linkTransfer (e : CoreEnv) (r : RegNo) (a : Word) (x : Thread) :
    x.keepsBut (x.linkTransfer e r a) [.g r] :=
  ((x.keepsBut_stampNow e _).setG (List.mem_singleton_self _) _).transfer e a

theorem Thread.linkTransfer_vt (e : CoreEnv) (r : RegNo) (a : Word) (x : Thread) :
    (x.linkTransfer e r a).vt = x.vtAfter e (jumpCost a 12 2) :=
  transfer_vt_of_stamped (setG_vt _ _ _) a

/-! An exception changes no register. -/

@[simp] theorem Thread.gReg_enter (e : CoreEnv) (n : Nat) (k b : Word) (lvl : Option Nat) (x : Thread) (r : RegNo) :
    (x.enter e n k b lvl).gReg r = x.gReg r := by
  simp only [enter]
  split
  · rfl
  · split
    · exact gReg_charge e 3 x r
    · exact gReg_charge e 6 _ r

@[simp] theorem Thread.fReg_enter (e : CoreEnv) (n : Nat) (k b : Word) (lvl : Option Nat) (x : Thread) (r : RegNo) :
    (x.enter e n k b lvl).fReg r = x.fReg r := by
  simp only [enter]
  split
  · rfl
  · split
    · exact fReg_charge e 3 x r
    · exact fReg_charge e 6 _ r

theorem Thread.keepsRegs_raise (x : Thread) (e : CoreEnv) (k : Cause) (d : List Dest) : x.keepsRegs (x.raise e k) d := by
  simp [keepsRegs, raise]

/-! An instruction at its turn. -/

theorem ctxOk_eq_ok (c : Ctx) : ctxOk c = c.ok := by
  cases c <;> rfl

section
variable {s : State} {c : Ctx} {i : NInstr} (hc : c.ok = true) (hi : s.issues c i = true)
include hc hi

theorem State.issue_eq_next (f : CoreEnv → Thread → Thread) :
    s.issue c i f = .next ((s.tookSlot c).putThread c (f (s.env c) ((s.thread c).stampNow (s.env c)))) := by
  simp [State.issue, ctxOk_eq_ok, hc, hi]

theorem State.fails_eq_next (hv : s.vectorFixed c = true) (k : Cause) :
    s.fails c i k = .next (((s.tookSlot c).putThread c ((s.thread c).raise (s.env c) k)).afterThread c) := by
  simp [State.fails, State.except, ctxOk_eq_ok, hc, hi, hv]

end

/-! Each control transfer at its turn. -/

section
variable {s : State} {c : Ctx} (hc : c.ok = true)
include hc

theorem exec_j {off : BitVec 26} (hi : s.issues c (.j off) = true) :
    exec (.j c off) s = .next ((s.tookSlot c).putThread c
      (((s.thread c).stampNow (s.env c)).transfer (s.env c) ((s.thread c).pc + off.signExtend 64 * 4))) := by
  change execJ c off s = _
  rw [execJ, State.issue_eq_next hc hi, jTarget_eq, Thread.stampNow_pc, Thread.transfer]

theorem exec_jal {off : BitVec 26} (hi : s.issues c (.jal off) = true) :
    exec (.jal c off) s = .next ((s.tookSlot c).putThread c
      ((s.thread c).linkTransfer (s.env c) 31 ((s.thread c).pc + off.signExtend 64 * 4))) := by
  change execJal c off s = _
  rw [execJal, State.issue_eq_next hc hi, jTarget_eq, Thread.stampNow_pc, Thread.linkTransfer, Thread.transfer]

theorem exec_jalr_aligned {rd ra : RegNo} {imm : BitVec 16} (hi : s.issues c (.jalr rd ra imm) = true)
    (ha : ((s.thread c).gReg ra + imm.signExtend 64).toNat % 4 = 0) :
    exec (.jalr c rd ra imm) s = .next ((s.tookSlot c).putThread c
      ((s.thread c).linkTransfer (s.env c) rd ((s.thread c).gReg ra + imm.signExtend 64))) := by
  change execJalr c rd ra imm s = _
  rw [execJalr, effAddr_eq, if_neg (not_not_intro ha), State.issue_eq_next hc hi, Thread.stampNow_pc, Thread.linkTransfer, Thread.transfer]

theorem exec_jalr_misaligned {rd ra : RegNo} {imm : BitVec 16} (hi : s.issues c (.jalr rd ra imm) = true)
    (ha : ((s.thread c).gReg ra + imm.signExtend 64).toNat % 4 ≠ 0) (hv : s.vectorFixed c = true) :
    exec (.jalr c rd ra imm) s = .next (((s.tookSlot c).putThread c
      ((s.thread c).raise (s.env c) (.instrAlign ((s.thread c).gReg ra + imm.signExtend 64)))).afterThread c) := by
  change execJalr c rd ra imm s = _
  rw [execJalr, effAddr_eq, if_pos ha, State.fails_eq_next hc hi hv]

theorem exec_compareAndBranch_taken {fn : BrFn} {ra rb : RegNo} {off : BitVec 16} (hi : s.issues c (.br fn ra rb off) = true)
    (ht : BrHolds fn ((s.thread c).gReg ra) ((s.thread c).gReg rb)) :
    exec (.compareAndBranch c fn ra rb off) s = .next ((s.tookSlot c).putThread c
      (((s.thread c).stampNow (s.env c)).transfer (s.env c) ((s.thread c).pc + off.signExtend 64 * 4))) := by
  have taken := (brTaken_iff fn _ _).mpr ht
  change execCompareAndBranch c fn ra rb off s = _
  rw [execCompareAndBranch, State.issue_eq_next hc hi]
  simp only [Thread.gReg_stampNow, taken, if_true, brTarget_eq, Thread.stampNow_pc, Thread.transfer]

/-- A branch that is not taken goes to the next instruction, with or without the refill of the prefetch queue (R81, R84). -/
theorem exec_compareAndBranch_not_taken {fn : BrFn} {ra rb : RegNo} {off : BitVec 16} (hi : s.issues c (.br fn ra rb off) = true)
    (ht : ¬ BrHolds fn ((s.thread c).gReg ra) ((s.thread c).gReg rb)) :
    ∃ y, exec (.compareAndBranch c fn ra rb off) s = .next ((s.tookSlot c).putThread c y) ∧
      y.pc = (s.thread c).pc + 4 ∧ y.vt = (s.thread c).vtAfter (s.env c) 1 ∧ (s.thread c).keepsBut y [] := by
  have notTaken : brTaken fn ((s.thread c).gReg ra) ((s.thread c).gReg rb) = false := by
    rwa [← brTaken_iff, Bool.not_eq_true] at ht
  have keeps := (s.thread c).keepsBut_stampNow (s.env c) []
  change ∃ y, execCompareAndBranch c fn ra rb off s = _ ∧ _
  rw [execCompareAndBranch, State.issue_eq_next hc hi]
  refine ⟨_, rfl, ?_⟩
  simp only [Thread.gReg_stampNow, notTaken, Bool.false_eq_true, if_false]
  split
  case isTrue refill =>
    have normal : (s.env c).det = false := by simpa using (Bool.and_eq_true_iff.mp refill).1
    exact ⟨by simp, Thread.stampNow_vt_of_not_det normal _ 1, keeps.jump _⟩
  case isFalse =>
    exact ⟨by simp, Thread.charge_vt_of_stamped (Thread.next_vt _) 1, keeps.next.charge _ 1⟩

end

/-- Settles O4: the condition decides between the transfer and the next instruction, and neither writes a register. -/
theorem compareAndBranch : Obligations.CompareAndBranch := by
  intro c fn ra rb off s hc hi x a b holds
  by_cases ht : BrHolds fn a b
  · obtain ⟨hregs, hsys, hwork, hfcsr⟩ := (x.keepsBut_stampNow (s.env c) []).transfer (s.env c) (x.pc + off.signExtend 64 * 4)
    refine ⟨_, exec_compareAndBranch_taken hc hi ht, fun _ => ⟨Thread.transfer_pc _ _ _, ?_⟩, fun hn => absurd ht hn,
      hregs, hsys, hwork, hfcsr⟩
    rw [Thread.transfer_pc]
    exact Thread.transfer_vt_of_stamped rfl _
  · obtain ⟨y, hy, hpc, hvt, hregs, hsys, hwork, hfcsr⟩ := exec_compareAndBranch_not_taken hc hi ht
    exact ⟨y, hy, fun h => absurd h ht, fun _ => ⟨hpc, hvt⟩, hregs, hsys, hwork, hfcsr⟩

/-- Settles O5: J is a transfer, JAL and an aligned JALR are transfers with a link, and a misaligned JALR is an exception. -/
theorem jumps : Obligations.Jumps := by
  refine ⟨fun c off s hc hi => ?j, fun c off s hc hi => ?jal, fun c rd ra imm s hc hi => ⟨fun ha => ?aligned, fun ha hv => ?misaligned⟩⟩
  case j =>
    obtain ⟨hregs, hsys, hwork, hfcsr⟩ :=
      ((s.thread c).keepsBut_stampNow (s.env c) []).transfer (s.env c) ((s.thread c).pc + off.signExtend 64 * 4)
    refine ⟨_, exec_j hc hi, Thread.transfer_pc _ _ _, hregs, hsys, hwork, hfcsr, ?_⟩
    rw [Thread.transfer_pc]
    exact Thread.transfer_vt_of_stamped rfl _
  case jal =>
    obtain ⟨hregs, hsys, hwork, hfcsr⟩ :=
      (s.thread c).keepsBut_linkTransfer (s.env c) 31 ((s.thread c).pc + off.signExtend 64 * 4)
    refine ⟨_, exec_jal hc hi, Thread.linkTransfer_pc _ _ _ _, Thread.gReg_linkTransfer_same _ _ _ _, hregs, hsys, hwork, hfcsr, ?_⟩
    rw [Thread.linkTransfer_pc]
    exact Thread.linkTransfer_vt _ _ _ _
  case aligned =>
    obtain ⟨hregs, hsys, hwork, hfcsr⟩ :=
      (s.thread c).keepsBut_linkTransfer (s.env c) rd ((s.thread c).gReg ra + imm.signExtend 64)
    exact ⟨_, exec_jalr_aligned hc hi ha, Thread.linkTransfer_pc _ _ _ _, Thread.gReg_linkTransfer_same _ _ _ _,
      hregs, hsys, hwork, hfcsr, Thread.linkTransfer_vt _ _ _ _⟩
  case misaligned =>
    exact ⟨_, exec_jalr_misaligned hc hi ha hv, rfl, Thread.keepsRegs_raise _ _ _ _⟩

end Sys2Proof.Machine
end

section
/-! PROOFS. End of interrupt (R153): single bits of a word, a completion at the controller, and the write that the queue applies. -/
namespace Sys2Proof.Machine
open Sys2Proof

/-! Single bits of a word. -/

theorem bit_eq_getLsbD (x : Word) (i : Nat) : bit x i = x.getLsbD i := BitVec.testBit_toNat x

theorem getLsbD_mask_one (k i : Nat) : (mask k 1).getLsbD i = (decide (i < 64) && decide (i = k)) := by
  have one : mask k 1 = 1#64 <<< k := BitVec.eq_of_toNat_eq (by simp [mask])
  rw [one, BitVec.getLsbD_shiftLeft, BitVec.getLsbD_one, Bool.eq_iff_iff]
  simp only [Bool.and_eq_true, Bool.not_eq_true', decide_eq_true_eq, decide_eq_false_iff_not]
  omega

/-- The bit that is set to `b` reads `b`, and every other bit keeps its value. -/
theorem bit_putBit (x : Word) (k : Nat) (b : Bool) {i : Nat} (hi : i < 64) :
    bit (putBit x k b) i = if i = k then b else bit x i := by
  have field : (BitVec.ofNat 64 ((b.toNat % 2 ^ 1) <<< k)).getLsbD i = (b && decide (i = k)) := by
    cases b
    case false => simp
    case true => simpa [mask, hi] using getLsbD_mask_one k i
  simp only [bit_eq_getLsbD, putBit, putBits, BitVec.getLsbD_or, BitVec.getLsbD_and, BitVec.getLsbD_not, getLsbD_mask_one, field, hi]
  by_cases hk : i = k <;> simp [hk]

theorem bit_putBit_same (x : Word) (b : Bool) {k : Nat} (hk : k < 64) : bit (putBit x k b) k = b := by
  rw [bit_putBit x k b hk, if_pos rfl]

theorem bit_putBit_other (x : Word) (b : Bool) {k i : Nat} (hi : i < 64) (h : i ≠ k) : bit (putBit x k b) i = bit x i := by
  rw [bit_putBit x k b hi, if_neg h]

/-! A completion at the controller (R153). -/

section
variable {c : Lic} {n : Nat} {w : Option Nat} {own other : Nat}

@[simp] theorem Lic.eoi_pend : (c.eoi n w own other).pend = c.pend := by
  unfold Lic.eoi
  split <;> rfl

theorem Lic.eoi_active_of_active (h : bit c.active n = true) : (c.eoi n w own other).active = putBit c.active n false := by
  rw [Lic.eoi, if_pos h]

theorem Lic.eoi_eoiIgnored_of_active (h : bit c.active n = true) : (c.eoi n w own other).eoiIgnored = c.eoiIgnored := by
  rw [Lic.eoi, if_pos h]

theorem Lic.eoi_of_not_active (h : bit c.active n = false) :
    c.eoi n w own other = { c with eoiIgnored := min (c.eoiIgnored + 1) 65535 } := by
  rw [Lic.eoi, h]
  rfl

/-- A completion of source `n`, active or not, is no completion of another source. -/
theorem Lic.bit_eoi_active_other {m : Nat} (hm : m < 64) (hne : m ≠ n) :
    bit (c.eoi n w own other).active m = bit c.active m := by
  cases h : bit c.active n
  case false => rw [Lic.eoi_of_not_active h]
  case true => rw [Lic.eoi_active_of_active h, bit_putBit_other _ _ hm hne]

theorem Lic.bit_eoi_active_same (hn : n < 64) (h : bit c.active n = true) : bit (c.eoi n w own other).active n = false := by
  rw [Lic.eoi_active_of_active h, bit_putBit_same _ _ hn]

end

/-! Before it acts, a write of the window keeps a past for the host (R412) and forgets old lags: no register changes by that. -/

@[simp] theorem Lic.mark_pend (c : Lic) (vt : Nat) : (c.mark vt).pend = c.pend := by
  unfold Lic.mark
  split <;> rfl
@[simp] theorem Lic.mark_active (c : Lic) (vt : Nat) : (c.mark vt).active = c.active := by
  unfold Lic.mark
  split <;> rfl
@[simp] theorem Lic.mark_eoiIgnored (c : Lic) (vt : Nat) : (c.mark vt).eoiIgnored = c.eoiIgnored := by
  unfold Lic.mark
  split <;> rfl
@[simp] theorem Lic.trim_pend (c : Lic) (old : Nat) : (c.trim old).pend = c.pend := rfl
@[simp] theorem Lic.trim_active (c : Lic) (old : Nat) : (c.trim old).active = c.active := rfl
@[simp] theorem Lic.trim_eoiIgnored (c : Lic) (old : Nat) : (c.trim old).eoiIgnored = c.eoiIgnored := rfl

/-! The write of LIC_EOI that the beam-write queue applies. -/

theorem Lane.storeLic_eoi (L : Lane) (t s d v : Nat) :
    L.storeLic t s d 0x150 v =
      L.setLic (((L.unit.lic.mark d).trim L.licOld).eoi (v % 64) (L.licWriter t) d (L.otherFrom s d)) := rfl

/-- An entry that names the LIC window and waits for its VT acts by `storeLic`. -/
theorem Lane.store_lic (L : Lane) {e : BeamEntry} (d : Nat) (lo : 0x31000 ≤ e.off) (hi : e.off < 0x32000) (ha : e.applied = false) :
    L.store e d = L.storeLic e.thread e.stamp d (e.off - 0x31000) e.data := by
  have ras : ¬ e.off < 0x20000 := by omega
  have snd : ¬ e.off < 0x30000 := by omega
  have tim : ¬ e.off < 0x31000 := by omega
  simp only [Lane.store, if_neg ras, if_neg snd, if_neg tim, if_pos hi, ha, Bool.false_eq_true, if_false]

theorem Lane.store_eoi_lic (L : Lane) {e : BeamEntry} (d : Nat) (ho : e.off = 0x31150) (ha : e.applied = false) :
    (L.store e d).unit.lic =
      ((L.unit.lic.mark d).trim L.licOld).eoi (e.data % 64) (L.licWriter e.thread) d (L.otherFrom e.stamp d) := by
  rw [L.store_lic d (by omega) (by omega) ha, ho]
  exact congrArg (fun A : Lane => A.unit.lic) (L.storeLic_eoi e.thread e.stamp d e.data)

/-- Settles O20: the queue's write completes the source that its low six bits name, and a completion clears ACTIVE of a source that is
active and counts one that is not. -/
theorem endOfInterrupt : Obligations.EndOfInterrupt := by
  refine ⟨fun L e d ho _ ha => ?write, fun c n w own other hn => ⟨fun h => ?active, Lic.eoi_of_not_active⟩⟩
  case write =>
    dsimp only
    have hn : e.data % 64 < 64 := Nat.mod_lt _ (by decide)
    rw [L.store_eoi_lic d ho ha]
    refine ⟨by simp, fun m hm hne => ?others, fun h => ⟨Lic.bit_eoi_active_same hn (by simpa using h), ?kept⟩, fun h => ?ignored⟩
    case others => exact (Lic.bit_eoi_active_other hm hne).trans (by simp)
    case kept => exact (Lic.eoi_eoiIgnored_of_active (by simpa using h)).trans (by simp)
    case ignored =>
      rw [Lic.eoi_of_not_active (by simpa using h)]
      simp
  case active => exact ⟨Lic.bit_eoi_active_same hn h, fun m hm hne => Lic.bit_eoi_active_other hm hne, Lic.eoi_pend⟩

end Sys2Proof.Machine
end

section
/-! PROOFS. The Nongagon instruction word (R108 to R111, R127): the fields of a word that a format writes, the word that its fields spell,
and the decoder opcode by opcode. -/
namespace Sys2Proof

/-! Each function is found by its own code, and each code is in its range. -/

theorem AluFn.find_code (f : AluFn) : AluFn.all.find? (fun g => g.code == f.code) = some f := by cases f <;> rfl
theorem MulFn.find_code (f : MulFn) : MulFn.all.find? (fun g => g.code == f.code) = some f := by cases f <;> rfl
theorem DivFn.find_code (f : DivFn) : DivFn.all.find? (fun g => g.code == f.code) = some f := by cases f <;> rfl
theorem FpFn.find_code (f : FpFn) : FpFn.all.find? (fun g => g.code == f.code) = some f := by cases f <;> rfl
theorem AmoFn.find_code (f : AmoFn) : AmoFn.all.find? (fun g => g.code == f.code) = some f := by cases f <;> rfl
theorem ImmFn.find_code (f : ImmFn) : ImmFn.all.find? (fun g => g.code == f.code) = some f := by cases f <;> rfl
theorem BrFn.find_code (f : BrFn) : BrFn.all.find? (fun g => g.code == f.code) = some f := by cases f <;> rfl
theorem LoadFn.find_code (f : LoadFn) : LoadFn.all.find? (fun g => g.code == f.code) = some f := by cases f <;> rfl
theorem StoreFn.find_code (f : StoreFn) : StoreFn.all.find? (fun g => g.code == f.code) = some f := by cases f <;> rfl

theorem AluFn.code_lt (f : AluFn) : f.code < 64 := by cases f <;> decide
theorem MulFn.code_lt (f : MulFn) : f.code < 64 := by cases f <;> decide
theorem DivFn.code_lt (f : DivFn) : f.code < 64 := by cases f <;> decide
theorem FpFn.code_lt (f : FpFn) : f.code < 32 := by cases f <;> decide
theorem AmoFn.code_lt (f : AmoFn) : f.code < 32 := by cases f <;> decide
theorem ImmFn.code_lt (f : ImmFn) : f.code < 64 := by cases f <;> decide
theorem BrFn.code_lt (f : BrFn) : f.code < 64 := by cases f <;> decide
theorem LoadFn.code_lt (f : LoadFn) : f.code < 64 := by cases f <;> decide
theorem StoreFn.code_lt (f : StoreFn) : f.code < 64 := by cases f <;> decide

end Sys2Proof

namespace Sys2Proof.Machine
open Sys2Proof

/-! The fields of a word written by each format of R109, and the word that its fields spell. -/

section
variable {op fn sub : Nat} (rd ra rb rc : RegNo)

theorem encR_toNat (hop : op < 64) (hfn : fn < 64) : (encR op rd ra rb rc fn).toNat =
    op * 2 ^ 26 + rd.toNat * 2 ^ 21 + ra.toNat * 2 ^ 16 + rb.toNat * 2 ^ 11 + rc.toNat * 2 ^ 6 + fn := by
  rw [encR, BitVec.toNat_ofNat, Nat.mod_eq_of_lt]
  have := rd.isLt; have := ra.isLt; have := rb.isLt; have := rc.isLt
  omega

theorem encI_toNat (i : BitVec 16) (hop : op < 64) :
    (encI op rd ra i).toNat = op * 2 ^ 26 + rd.toNat * 2 ^ 21 + ra.toNat * 2 ^ 16 + i.toNat := by
  rw [encI, BitVec.toNat_ofNat, Nat.mod_eq_of_lt]
  have := rd.isLt; have := ra.isLt; have := i.isLt
  omega

/-- The S format is that of an immediate whose upper four bits are `sub`. -/
theorem encS_eq_encI (n : BitVec 12) (hsub : sub < 16) :
    encS rd ra sub n = encI 0x3C rd ra (BitVec.ofNat 16 (sub * 2 ^ 12 + n.toNat)) := by
  have := n.isLt
  rw [encS, encI, BitVec.toNat_ofNat, Nat.mod_eq_of_lt (by omega), Nat.add_assoc _ (sub * 2 ^ 12)]

/-- A field that takes `n` bits from `lo` up. -/
theorem wfield_eq (w : BitVec 32) (lo n : Nat) : wfield w lo n = w.toNat / 2 ^ lo % 2 ^ n := by
  rw [wfield, Nat.shiftRight_eq_div_pow]

theorem wreg_toNat (w : BitVec 32) (lo : Nat) : (wreg w lo).toNat = w.toNat / 2 ^ lo % 32 := by
  rw [wreg, BitVec.toNat_ofNat, Nat.shiftRight_eq_div_pow]

theorem wreg_eq_of_toNat {w : BitVec 32} {lo : Nat} {r : RegNo} (h : w.toNat / 2 ^ lo % 32 = r.toNat) : wreg w lo = r :=
  BitVec.eq_of_toNat_eq (by rw [wreg_toNat, h])

/-- What the decoder reads from a word of the R format. -/
theorem encR_fields (hop : op < 64) (hfn : fn < 64) :
    let w := encR op rd ra rb rc fn
    wfield w 26 6 = op ∧ wreg w 21 = rd ∧ wreg w 16 = ra ∧ wreg w 11 = rb ∧ wreg w 6 = rc ∧ wfield w 0 6 = fn := by
  have spelt := encR_toNat rd ra rb rc hop hfn
  have := rd.isLt; have := ra.isLt; have := rb.isLt; have := rc.isLt
  refine ⟨?_, wreg_eq_of_toNat ?_, wreg_eq_of_toNat ?_, wreg_eq_of_toNat ?_, wreg_eq_of_toNat ?_, ?_⟩ <;>
    simp only [wfield_eq, spelt] <;> omega

/-- What the decoder reads from a word of the I, B and M formats. -/
theorem encI_fields (i : BitVec 16) (hop : op < 64) :
    let w := encI op rd ra i
    wfield w 26 6 = op ∧ wreg w 21 = rd ∧ wreg w 16 = ra ∧ BitVec.ofNat 16 w.toNat = i := by
  have spelt := encI_toNat rd ra i hop
  have := rd.isLt; have := ra.isLt; have := i.isLt
  refine ⟨?_, wreg_eq_of_toNat ?_, wreg_eq_of_toNat ?_, BitVec.eq_of_toNat_eq ?_⟩ <;>
    simp only [wfield_eq, BitVec.toNat_ofNat, spelt] <;> omega

/-- What the decoder reads from a word of the S format. -/
theorem encS_fields (n : BitVec 12) (hsub : sub < 16) :
    let w := encS rd ra sub n
    wfield w 26 6 = 0x3C ∧ wreg w 21 = rd ∧ wreg w 16 = ra ∧ wfield w 12 4 = sub ∧ BitVec.ofNat 12 w.toNat = n := by
  have := rd.isLt; have := ra.isLt; have := n.isLt
  have spelt : (encS rd ra sub n).toNat = 0x3C * 2 ^ 26 + rd.toNat * 2 ^ 21 + ra.toNat * 2 ^ 16 + sub * 2 ^ 12 + n.toNat := by
    rw [encS, BitVec.toNat_ofNat, Nat.mod_eq_of_lt (by omega)]
  refine ⟨?_, wreg_eq_of_toNat ?_, wreg_eq_of_toNat ?_, ?_, BitVec.eq_of_toNat_eq ?_⟩ <;>
    simp only [wfield_eq, BitVec.toNat_ofNat, spelt] <;> omega

/-- What the decoder reads from a word of the J format. -/
theorem encJ_fields (i : BitVec 26) (hop : op < 64) :
    let w := BitVec.ofNat 32 (op * 2 ^ 26 + i.toNat)
    wfield w 26 6 = op ∧ BitVec.ofNat 26 w.toNat = i := by
  have := i.isLt
  have spelt : (BitVec.ofNat 32 (op * 2 ^ 26 + i.toNat)).toNat = op * 2 ^ 26 + i.toNat := by
    rw [BitVec.toNat_ofNat, Nat.mod_eq_of_lt (by omega)]
  refine ⟨?_, BitVec.eq_of_toNat_eq ?_⟩ <;> simp only [wfield_eq, BitVec.toNat_ofNat, spelt] <;> omega

end

section
variable (w : BitVec 32)

theorem encR_of_fields : encR (wfield w 26 6) (wreg w 21) (wreg w 16) (wreg w 11) (wreg w 6) (wfield w 0 6) = w := by
  refine BitVec.eq_of_toNat_eq ?_
  have := w.isLt
  simp only [encR, wfield_eq, wreg_toNat, BitVec.toNat_ofNat]
  omega

theorem encI_of_fields : encI (wfield w 26 6) (wreg w 21) (wreg w 16) (BitVec.ofNat 16 w.toNat) = w := by
  refine BitVec.eq_of_toNat_eq ?_
  have := w.isLt
  simp only [encI, wfield_eq, wreg_toNat, BitVec.toNat_ofNat]
  omega

theorem encS_of_fields (hop : wfield w 26 6 = 0x3C) :
    encS (wreg w 21) (wreg w 16) (wfield w 12 4) (BitVec.ofNat 12 w.toNat) = w := by
  refine BitVec.eq_of_toNat_eq ?_
  have := w.isLt
  simp only [encS, wfield_eq, wreg_toNat, BitVec.toNat_ofNat] at hop ⊢
  omega

theorem encJ_of_fields {op : Nat} (hop : wfield w 26 6 = op) :
    BitVec.ofNat 32 (op * 2 ^ 26 + (BitVec.ofNat 26 w.toNat).toNat) = w := by
  refine BitVec.eq_of_toNat_eq ?_
  have := w.isLt
  simp only [wfield_eq, BitVec.toNat_ofNat] at hop ⊢
  omega

theorem wfield_lt (lo n : Nat) : wfield w lo n < 2 ^ n := Nat.mod_lt _ (Nat.two_pow_pos n)

end

/-- What a search by code finds has that code. -/
theorem code_of_find {α : Type} {l : List α} {code : α → Nat} {n : Nat} {f : α} (h : l.find? (fun g => code g == n) = some f) :
    code f = n :=
  by simpa using List.find?_some h

/-! The decoder on a word of each major opcode. -/

section
variable {w : BitVec 32}

theorem ndecode_alu (hop : wfield w 26 6 = 0x01) {f : AluFn} (hfn : wfield w 0 6 = f.code) :
    ndecode w = if (f == .sel || wreg w 6 == 0) && (!f.unary || wreg w 11 == 0)
      then some (.alu f (wreg w 21) (wreg w 16) (wreg w 11) (wreg w 6)) else none := by
  simp [ndecode, hop, hfn, f.find_code]

theorem ndecode_mul (hop : wfield w 26 6 = 0x02) {f : MulFn} (hfn : wfield w 0 6 = f.code) :
    ndecode w = if !(f == .mul || f == .mulw) || wreg w 6 == 0
      then some (.mul f (wreg w 21) (wreg w 16) (wreg w 11) (wreg w 6)) else none := by
  simp [ndecode, hop, hfn, f.find_code]

theorem ndecode_div (hop : wfield w 26 6 = 0x03) {f : DivFn} (hfn : wfield w 0 6 = f.code) :
    ndecode w = some (.div f (wreg w 21) (wreg w 16) (wreg w 11) (wreg w 6)) := by
  simp [ndecode, hop, hfn, f.find_code]

theorem ndecode_fp (hop : wfield w 26 6 = 0x04) {f : FpFn} (hfn : wfield w 0 6 % 32 = f.code) :
    ndecode w = if fpFieldsOk f (wreg w 11) (wreg w 6)
      then some (.fp (if wfield w 0 6 < 32 then .single else .double) f (wreg w 21) (wreg w 16) (wreg w 11) (wreg w 6)) else none := by
  simp [ndecode, hop, hfn, f.find_code]

theorem ndecode_amo (hop : wfield w 26 6 = 0x34) {f : AmoFn} (hfn : wfield w 0 6 % 32 = f.code) :
    ndecode w = if f == .cas || wreg w 6 == 0
      then some (.amo f (decide (32 ≤ wfield w 0 6)) (wreg w 21) (wreg w 16) (wreg w 11) (wreg w 6)) else none := by
  simp [ndecode, hop, hfn, f.find_code]

/-- The opcodes of R113, R116 and R120 stand for themselves: no other group claims them. -/
theorem ndecode_imm {f : ImmFn} (hop : wfield w 26 6 = f.code) :
    ndecode w = if f == .shifti && decide (256 ≤ (BitVec.ofNat 16 w.toNat).toNat) then none
      else some (.imm f (wreg w 21) (wreg w 16) (BitVec.ofNat 16 w.toNat)) := by
  simp only [ndecode, hop, f.find_code]
  cases f <;> rfl

theorem ndecode_br {f : BrFn} (hop : wfield w 26 6 = f.code) :
    ndecode w = some (.br f (wreg w 21) (wreg w 16) (BitVec.ofNat 16 w.toNat)) := by
  simp only [ndecode, hop]
  cases f <;> rfl

theorem ndecode_load {f : LoadFn} (hop : wfield w 26 6 = f.code) :
    ndecode w = some (.load f (wreg w 21) (wreg w 16) (BitVec.ofNat 16 w.toNat)) := by
  simp only [ndecode, hop]
  cases f <;> rfl

theorem ndecode_store {f : StoreFn} (hop : wfield w 26 6 = f.code) :
    ndecode w = some (.store f (wreg w 21) (wreg w 16) (BitVec.ofNat 16 w.toNat)) := by
  simp only [ndecode, hop]
  cases f <;> rfl

/-- The system group of R130: `sub` names the instruction, and the fields it does not use are 0. -/
theorem ndecode_sys (hop : wfield w 26 6 = 0x3C) :
    ndecode w =
      if wfield w 12 4 = 0 then (if wreg w 16 = 0 then some (.mfs (wreg w 21) (BitVec.ofNat 12 w.toNat)) else none)
      else if wfield w 12 4 = 1 then (if wreg w 21 = 0 then some (.mts (wreg w 16) (BitVec.ofNat 12 w.toNat)) else none)
      else if wfield w 12 4 = 4 then
        (if wreg w 21 = 0 ∧ wreg w 16 = 0 then some (.ecall (BitVec.ofNat 12 w.toNat)) else none)
      else if wreg w 21 = 0 ∧ wreg w 16 = 0 ∧ BitVec.ofNat 12 w.toNat = 0 then
        (if wfield w 12 4 = 5 then some .ebreak else if wfield w 12 4 = 6 then some .eret else if wfield w 12 4 = 7 then some .wait
         else if wfield w 12 4 = 8 then some .mbar else if wfield w 12 4 = 9 then some .isync else none)
      else none := by
  simp [ndecode, hop]

end

/-! Decoding what was encoded. -/

theorem ndecode_encR_fp (p : FpPrec) (f : FpFn) (rd ra rb rc : RegNo) (h : fpFieldsOk f rb rc = true) :
    ndecode (nencode (.fp p f rd ra rb rc)) = some (.fp p f rd ra rb rc) := by
  have lt := f.code_lt
  have bounded : precBit p + f.code < 64 := by cases p <;> simp only [precBit] <;> omega
  obtain ⟨hop, hrd, hra, hrb, hrc, hfn⟩ := encR_fields rd ra rb rc (op := 0x04) (by decide) bounded
  have low : (precBit p + f.code) % 32 = f.code := by cases p <;> simp only [precBit] <;> omega
  have prec : (if precBit p + f.code < 32 then FpPrec.single else .double) = p := by
    cases p
    case single => exact if_pos (by simpa [precBit] using lt)
    case double => exact if_neg (by simp [precBit])
  rw [nencode, ndecode_fp hop (by rw [hfn, low]), hrb, hrc, if_pos h, hfn, prec, hrd, hra]

theorem ndecode_encR_fma (p : FpPrec) (np na : Bool) (rd ra rb rc : RegNo) :
    ndecode (nencode (.fma p np na rd ra rb rc)) = some (.fma p np na rd ra rb rc) := by
  have bounded : precBit p + np.toNat + 2 * na.toNat < 64 := by cases p <;> cases np <;> cases na <;> decide
  obtain ⟨hop, hrd, hra, hrb, hrc, hfn⟩ := encR_fields rd ra rb rc (op := 0x05) (by decide) bounded
  simp only [nencode, ndecode, hop, hrd, hra, hrb, hrc, hfn]
  cases p <;> cases np <;> cases na <;> rfl

theorem ndecode_encR_amo (f : AmoFn) (w32 : Bool) (rd ra rb rc : RegNo) (h : (f == .cas || rc == 0) = true) :
    ndecode (nencode (.amo f w32 rd ra rb rc)) = some (.amo f w32 rd ra rb rc) := by
  have lt := f.code_lt
  have bounded : f.code + (if w32 then 32 else 0) < 64 := by split <;> omega
  obtain ⟨hop, hrd, hra, hrb, hrc, hfn⟩ := encR_fields rd ra rb rc (op := 0x34) (by decide) bounded
  have low : (f.code + (if w32 then 32 else 0)) % 32 = f.code := by split <;> omega
  have width : decide (32 ≤ f.code + (if w32 then 32 else 0)) = w32 := by
    cases w32
    case false => simpa using lt
    case true => simp
  rw [nencode, ndecode_amo hop (by rw [hfn, low]), hrc, if_pos h, hfn, width, hrd, hra, hrb]

theorem ndecode_nencode (i : NInstr) (h : i.wf = true) : ndecode (nencode i) = some i := by
  cases i with
  | alu f rd ra rb rc =>
    obtain ⟨hop, hrd, hra, hrb, hrc, hfn⟩ := encR_fields rd ra rb rc (op := 0x01) (by decide) f.code_lt
    rw [NInstr.wf] at h
    rw [nencode, ndecode_alu hop hfn, hrb, hrc, if_pos h, hrd, hra]
  | mul f rd ra rb rc =>
    obtain ⟨hop, hrd, hra, hrb, hrc, hfn⟩ := encR_fields rd ra rb rc (op := 0x02) (by decide) f.code_lt
    rw [NInstr.wf] at h
    rw [nencode, ndecode_mul hop hfn, hrc, if_pos h, hrd, hra, hrb]
  | div f rd ra rb rc =>
    obtain ⟨hop, hrd, hra, hrb, hrc, hfn⟩ := encR_fields rd ra rb rc (op := 0x03) (by decide) f.code_lt
    rw [nencode, ndecode_div hop hfn, hrd, hra, hrb, hrc]
  | fp p f rd ra rb rc => exact ndecode_encR_fp p f rd ra rb rc h
  | fma p np na rd ra rb rc => exact ndecode_encR_fma p np na rd ra rb rc
  | amo f w rd ra rb rc => exact ndecode_encR_amo f w rd ra rb rc h
  | imm f rd ra i =>
    obtain ⟨hop, hrd, hra, hi⟩ := encI_fields rd ra i f.code_lt
    have short : ¬ (f == .shifti && decide (256 ≤ i.toNat)) = true := by
      simp only [NInstr.wf, Bool.or_eq_true, Bool.not_eq_true', decide_eq_true_eq] at h
      simp only [Bool.and_eq_true, decide_eq_true_eq, not_and, Nat.not_le]
      intro hf
      simpa [hf] using h
    rw [nencode, ndecode_imm hop, hi, if_neg short, hrd, hra]
  | br f ra rb off =>
    obtain ⟨hop, hra, hrb, hi⟩ := encI_fields ra rb off f.code_lt
    rw [nencode, ndecode_br hop, hra, hrb, hi]
  | load f rt b off =>
    obtain ⟨hop, hrt, hb, hi⟩ := encI_fields rt b off f.code_lt
    rw [nencode, ndecode_load hop, hrt, hb, hi]
  | store f rt b off =>
    obtain ⟨hop, hrt, hb, hi⟩ := encI_fields rt b off f.code_lt
    rw [nencode, ndecode_store hop, hrt, hb, hi]
  | jalr rd ra i =>
    obtain ⟨hop, hrd, hra, hi⟩ := encI_fields rd ra i (op := 0x1A) (by decide)
    simp [nencode, ndecode, hop, hrd, hra, hi]
  | j off =>
    obtain ⟨hop, hi⟩ := encJ_fields off (op := 0x18) (by decide)
    simp only [nencode, ndecode, hop, hi]; rfl
  | jal off =>
    obtain ⟨hop, hi⟩ := encJ_fields off (op := 0x19) (by decide)
    simp only [nencode, ndecode, hop, hi]; rfl
  | sysx b =>
    obtain ⟨hop, hi⟩ := encJ_fields b (op := 0x3D) (by decide)
    simp only [nencode, ndecode, hop, hi]; rfl
  | mfs rd n =>
    obtain ⟨hop, hrd, hra, hsub, hn⟩ := encS_fields rd 0 n (sub := 0) (by decide)
    rw [nencode, ndecode_sys hop, hsub, hrd, hra, hn]; rfl
  | mts ra n =>
    obtain ⟨hop, hrd, hra, hsub, hn⟩ := encS_fields 0 ra n (sub := 1) (by decide)
    rw [nencode, ndecode_sys hop, hsub, hrd, hra, hn]; rfl
  | ecall n =>
    obtain ⟨hop, hrd, hra, hsub, hn⟩ := encS_fields 0 0 n (sub := 4) (by decide)
    rw [nencode, ndecode_sys hop, hsub, hrd, hra, hn]; rfl
  | ebreak | eret | wait | mbar | isync => rfl

/-! Encoding what was decoded. -/

/-- The precision bit of fn and the five bits below it spell fn (R127). -/
theorem precBit_add_mod {n : Nat} (h : n < 64) : precBit (if n < 32 then .single else .double) + n % 32 = n := by
  split <;> simp only [precBit] <;> omega

/-- The system group: the fields that the word's `sub` does not use are 0, so the S format spells the word again. -/
theorem nencode_of_ndecode_sys {w : BitVec 32} {i : NInstr} (hop : wfield w 26 6 = 0x3C) (h : ndecode w = some i) :
    i.wf = true ∧ nencode i = w := by
  have spelt := encS_of_fields w hop
  rw [ndecode_sys hop] at h
  split at h
  case isTrue hsub =>
    rw [hsub] at spelt
    split at h
    case isTrue hra => cases h; exact ⟨rfl, by rw [nencode, ← hra, spelt]⟩
    case isFalse => cases h
  case isFalse =>
  split at h
  case isTrue hsub =>
    rw [hsub] at spelt
    split at h
    case isTrue hrd => cases h; exact ⟨rfl, by rw [nencode, ← hrd, spelt]⟩
    case isFalse => cases h
  case isFalse =>
  split at h
  case isTrue hsub =>
    rw [hsub] at spelt
    split at h
    case isTrue hz => cases h; exact ⟨rfl, by rw [hz.1, hz.2] at spelt; exact spelt⟩
    case isFalse => cases h
  case isFalse =>
  split at h
  case isFalse => cases h
  case isTrue hz =>
    obtain ⟨hrd, hra, hn⟩ := hz
    rw [hrd, hra, hn] at spelt
    split at h
    case isTrue hsub => cases h; exact ⟨rfl, by rw [hsub] at spelt; exact spelt⟩
    split at h
    case isTrue hsub => cases h; exact ⟨rfl, by rw [hsub] at spelt; exact spelt⟩
    split at h
    case isTrue hsub => cases h; exact ⟨rfl, by rw [hsub] at spelt; exact spelt⟩
    split at h
    case isTrue hsub => cases h; exact ⟨rfl, by rw [hsub] at spelt; exact spelt⟩
    split at h
    case isTrue hsub => cases h; exact ⟨rfl, by rw [hsub] at spelt; exact spelt⟩
    case isFalse => cases h

/-- The two sign bits of FMA spell the low bits of fn below its precision bit. -/
theorem fma_fn_spelt {n : Nat} (h : n < 64) (low : n % 32 < 4) :
    precBit (if n < 32 then .single else .double) + (decide (n % 2 = 1)).toNat + 2 * (decide (n / 2 % 2 = 1)).toNat = n := by
  have prec := precBit_add_mod h
  have bit0 : (decide (n % 2 = 1)).toNat = n % 2 := by by_cases e : n % 2 = 1 <;> simp [e]; omega
  have bit1 : (decide (n / 2 % 2 = 1)).toNat = n / 2 % 2 := by by_cases e : n / 2 % 2 = 1 <;> simp [e]; omega
  omega

/-- Each branch of the decoder puts the word's own fields into an instruction that spells them again. -/
theorem nencode_of_ndecode {w : BitVec 32} {i : NInstr} (h : ndecode w = some i) : i.wf = true ∧ nencode i = w := by
  have spelt := encR_of_fields w
  have spelt' := encI_of_fields w
  have fnlt := wfield_lt w 0 6
  by_cases hsys : wfield w 26 6 = 0x3C
  · exact nencode_of_ndecode_sys hsys h
  unfold ndecode at h
  dsimp only at h
  by_cases h01 : wfield w 26 6 = 0x01
  · rw [if_pos h01] at h
    split at h
    case h_1 => cases h
    case h_2 f hf =>
      split at h
      case isTrue ok => cases h; exact ⟨ok, by rw [nencode, code_of_find hf, ← h01, spelt]⟩
      case isFalse => cases h
  rw [if_neg h01] at h
  by_cases h02 : wfield w 26 6 = 0x02
  · rw [if_pos h02] at h
    split at h
    case h_1 => cases h
    case h_2 f hf =>
      split at h
      case isTrue ok => cases h; exact ⟨ok, by rw [nencode, code_of_find hf, ← h02, spelt]⟩
      case isFalse => cases h
  rw [if_neg h02] at h
  by_cases h03 : wfield w 26 6 = 0x03
  · rw [if_pos h03] at h
    split at h
    case h_1 => cases h
    case h_2 f hf => cases h; exact ⟨rfl, by rw [nencode, code_of_find hf, ← h03, spelt]⟩
  rw [if_neg h03] at h
  by_cases h04 : wfield w 26 6 = 0x04
  · rw [if_pos h04] at h
    split at h
    case h_1 => cases h
    case h_2 f hf =>
      split at h
      case isTrue ok => cases h; exact ⟨ok, by rw [nencode, code_of_find hf, precBit_add_mod fnlt, ← h04, spelt]⟩
      case isFalse => cases h
  rw [if_neg h04] at h
  by_cases h05 : wfield w 26 6 = 0x05
  · rw [if_pos h05] at h
    split at h
    case isTrue low => cases h; exact ⟨rfl, by rw [nencode, fma_fn_spelt fnlt low, ← h05, spelt]⟩
    case isFalse => cases h
  rw [if_neg h05] at h
  by_cases h18 : wfield w 26 6 = 0x18
  · rw [if_pos h18] at h
    cases h; exact ⟨rfl, encJ_of_fields w h18⟩
  rw [if_neg h18] at h
  by_cases h19 : wfield w 26 6 = 0x19
  · rw [if_pos h19] at h
    cases h; exact ⟨rfl, encJ_of_fields w h19⟩
  rw [if_neg h19] at h
  by_cases h1a : wfield w 26 6 = 0x1A
  · rw [if_pos h1a] at h
    cases h; exact ⟨rfl, by rw [nencode, ← h1a, spelt']⟩
  rw [if_neg h1a] at h
  by_cases h34 : wfield w 26 6 = 0x34
  · rw [if_pos h34] at h
    split at h
    case h_1 => cases h
    case h_2 f hf =>
      have width : f.code + (if decide (32 ≤ wfield w 0 6) then 32 else 0) = wfield w 0 6 := by
        rw [code_of_find hf]
        simp only [decide_eq_true_eq]
        split <;> omega
      split at h
      case isTrue ok => cases h; exact ⟨ok, by rw [nencode, width, ← h34, spelt]⟩
      case isFalse => cases h
  rw [if_neg h34] at h
  rw [if_neg hsys] at h
  by_cases h3d : wfield w 26 6 = 0x3D
  · rw [if_pos h3d] at h
    cases h; exact ⟨rfl, encJ_of_fields w h3d⟩
  rw [if_neg h3d] at h
  split at h
  case h_1 f hf =>
    split at h
    case isTrue => cases h
    case isFalse short =>
      cases h
      refine ⟨?_, by rw [nencode, code_of_find hf, spelt']⟩
      simp only [Bool.and_eq_true, decide_eq_true_eq, not_and, Nat.not_le] at short
      simp only [NInstr.wf, Bool.or_eq_true, Bool.not_eq_true', decide_eq_true_eq]
      cases e : f == .shifti
      case false => exact .inl rfl
      case true => exact .inr (short e)
  case h_2 =>
  split at h
  case h_1 f hf => cases h; exact ⟨rfl, by rw [nencode, code_of_find hf, spelt']⟩
  case h_2 =>
  split at h
  case h_1 f hf => cases h; exact ⟨rfl, by rw [nencode, code_of_find hf, spelt']⟩
  case h_2 =>
  split at h
  case h_1 f hf => cases h; exact ⟨rfl, by rw [nencode, code_of_find hf, spelt']⟩
  case h_2 => cases h

/-- Settles O56, from the two directions of the round trip. -/
theorem wordsRoundTrip : Obligations.WordsRoundTrip :=
  ⟨ndecode_nencode, fun _ _ => nencode_of_ndecode⟩

end Sys2Proof.Machine
end

section
/-! PROOFS. The step, and what a device reset leaves (O53, O54, O58). -/
namespace Sys2Proof.Machine
open Sys2Proof

/-- Settles O53: by the two cases of the queue. -/
theorem stepTakesFront : Obligations.StepTakesFront := by
  unfold Obligations.StepTakesFront
  refine ⟨fun c rest s h => ?_, fun s h => ?_⟩ <;> simp only [step, h]

@[simp] theorem half_reset (h : HalfId) : State.reset.half h = .reset h := by cases h <;> rfl
@[simp] theorem lane_reset (l : Nat) : State.reset.lane l = .absent := by
  unfold State.lane
  rw [half_reset]
  rfl
@[simp] theorem Timers.get_reset (n : Nat) : Timers.reset.get n = .reset := by
  have all : ∀ x ∈ Timers.reset.t, x = .reset := fun x h => List.eq_of_mem_replicate h
  unfold Timers.get
  rw [List.getD_eq_getElem?_getD]
  cases e : Timers.reset.t[n]? with
  | none => rfl
  | some x => exact all x (List.mem_of_getElem? e)

/-- The spare units of a reset half lie beyond those of its 128 lane indices (R458). -/
theorem luOf_reset_not_spare {h : HalfId} {n u : Nat} (hn : n < 128) (hu : u ∈ (Half.reset h).sp.spares) :
    (Half.reset h).luOf h n ≠ u := by
  obtain ⟨k, hk, rfl⟩ := List.mem_map.1 hu
  rw [List.mem_range] at hk
  cases h <;> simp only [Half.luOf, Half.reset, Sparing.reset, Sparse.get, luDefault, if_true, reduceCtorEq, if_false] <;> omega

/-- Contexts 14 and 15 own positions 0 and 8 of each core's table (R78). -/
theorem slotReset_mul (c : Nat) : slotReset (16 * c) = 15 ∧ slotReset (16 * c + 8) = 16 := by
  unfold slotReset
  constructor
  · rw [if_pos (by omega)]
  · rw [if_neg (by omega), if_pos (by omega)]

/-- Settles O54: field by field of the reset state. -/
theorem afterReset : Obligations.AfterReset := by
  unfold Obligations.AfterReset
  refine ⟨fun l => ?lane, rfl, rfl, rfl, rfl, fun h => ?half⟩
  case lane =>
    rw [lane_reset]
    refine ⟨rfl, fun o => rfl, rfl, fun n _ => ?_⟩
    have timer : (Lane.absent.unit.tim.get n) = .reset := Timers.get_reset n
    rw [timer]
    exact ⟨rfl, rfl, rfl⟩
  case half =>
    rw [half_reset]
    refine ⟨rfl, rfl, fun _ => rfl, rfl, rfl, rfl, rfl, rfl, rfl, rfl, fun u hu n hn => luOf_reset_not_spare hn hu,
      fun c _ => slotReset_mul c, fun i => ⟨rfl, rfl, rfl, rfl⟩, fun i hi _ => ?_⟩
    exact if_pos hi

/-- Settles O58: a reset half holds no event and no record. -/
theorem resetBounded : Obligations.ResetBounded := by
  unfold Obligations.ResetBounded
  intro h
  rw [half_reset]
  exact ⟨Nat.lt_of_lt_of_le (Nat.two_pow_pos 12) (Nat.le_add_left _ _), fun en => absurd en Bool.false_ne_true, Nat.zero_le _⟩

end Sys2Proof.Machine
end

section
/-! PROOFS. Results of the integer and FP groups, and the system registers (O1, O2, O3, O6). -/
namespace Sys2Proof.Machine
open Sys2Proof

/-! An instruction that writes a g register and goes on (R104, R143). -/

/-- A result in `r`, at the turn of an instruction of `x` that costs `n` virtual cycles. -/
def Thread.result (e : CoreEnv) (r : RegNo) (v : Word) (n : Nat) (x : Thread) : Thread := (((x.stampNow e).setG r v).next).charge e n

section
variable (x : Thread) (e : CoreEnv) (r : RegNo) (v : Word) (n : Nat)

theorem Thread.gReg_result_same : (x.result e r v n).gReg r = written r v := by
  rw [result, gReg_charge, gReg_next, gReg_setG_same]
theorem Thread.result_pc : (x.result e r v n).pc = x.pc + 4 := by simp [result]
theorem Thread.result_vt : (x.result e r v n).vt = x.vtAfter e n := charge_vt_of_stamped (by simp) n
theorem Thread.keepsBut_result : x.keepsBut (x.result e r v n) [.g r] :=
  ((x.keepsBut_stampNow e _).setG (List.mem_singleton_self _) _).next.charge e n

end

/-- Settles O1: the result goes through `setG`, which touches no other register. -/
theorem integerResults : Obligations.IntegerResults := by
  refine ⟨fun c fn rd ra rb rc s hc hi => ?alu, fun c fn rd ra imm s hc hi => ?imm⟩
  case alu =>
    intro x
    obtain ⟨hregs, hsys, hwork, hfcsr⟩ := x.keepsBut_result (s.env c) rd (aluResult fn (x.gReg ra) (x.gReg rb) (x.gReg rc)) 1
    refine ⟨_, ?_, x.gReg_result_same .., hregs, hsys, hwork, hfcsr, x.result_pc .., x.result_vt ..⟩
    change execAluOp c fn rd ra rb rc s = _
    simp only [execAluOp, State.issue_eq_next hc hi, Thread.gReg_stampNow, Thread.result, x]
  case imm =>
    intro x
    obtain ⟨hregs, hsys, hwork, hfcsr⟩ := x.keepsBut_result (s.env c) rd (immResult fn (x.gReg ra) imm) 1
    refine ⟨_, ?_, x.gReg_result_same .., hregs, hsys, hwork, hfcsr, x.result_pc .., x.result_vt ..⟩
    change execImmediateOp c fn rd ra imm s = _
    simp only [execImmediateOp, State.issue_eq_next hc hi, Thread.gReg_stampNow, Thread.result, x]

/-! An operation handed to a unit beside the pipe (R85): no register changes yet. -/

/-- An operation in `u` at the turn of an instruction of `x` that costs `n` virtual cycles and leaves FCSR at `fl`. -/
def Thread.handOver (e : CoreEnv) (fl : Word) (u : UnitPend) (n : Nat) (x : Thread) : Thread :=
  ((({ x.stampNow e with fcsr := fl }).dispatch u.unit u.writes u.div).next).charge e n

section
variable (x : Thread) (e : CoreEnv) (fl : Word) (u : UnitPend) (n : Nat)

theorem Thread.handOver_units : (x.handOver e fl u n).units = x.units ++ [u] := by simp [handOver, dispatch]
theorem Thread.keepsRegs_handOver : x.keepsRegs (x.handOver e fl u n) [] := by
  refine ⟨fun r _ => ?_, fun r _ => ?_⟩
  · rw [handOver, gReg_charge, gReg_next]
    exact gReg_stampNow e x r
  · rw [handOver, fReg_charge, fReg_next]
    exact fReg_stampNow e x r
theorem Thread.keepsSys_handOver : x.keepsSys (x.handOver e fl u n) := by simp [keepsSys, handOver, dispatch]
theorem Thread.handOver_sb : (x.handOver e fl u n).sb = x.sb := by simp [handOver, dispatch]
theorem Thread.handOver_loads : (x.handOver e fl u n).loads = x.loads := by simp [handOver, dispatch]
theorem Thread.handOver_fcsr : (x.handOver e fl u n).fcsr = fl := by simp [handOver, dispatch]
theorem Thread.handOver_pc : (x.handOver e fl u n).pc = x.pc + 4 := by simp [handOver, dispatch]
theorem Thread.handOver_vt : (x.handOver e fl u n).vt = x.vtAfter e n := charge_vt_of_stamped (by simp [dispatch]) n

end

section
variable {s : State} {c : Ctx} (hc : c.ok = true)
include hc

theorem exec_mulOp {fn : MulFn} {rd ra rb rc : RegNo} (hi : s.issues c (.mul fn rd ra rb rc) = true) :
    exec (.mulOp c fn rd ra rb rc) s = .next ((s.tookSlot c).putThread c ((s.thread c).handOver (s.env c) (s.thread c).fcsr
      { unit := .pipelined, writes := mulWrites fn rd rc ((s.thread c).gReg ra) ((s.thread c).gReg rb) ((s.thread c).gReg rc), div := none } 3)) := by
  change execMulOp c fn rd ra rb rc s = _
  simp only [execMulOp, State.issue_eq_next hc hi, Thread.gReg_stampNow, Thread.handOver]
  rw [← Thread.stampNow_fcsr (s.env c) (s.thread c)]

/-- A divide keeps the VT and the pc of its issue, by which it can be abandoned (R86). -/
theorem exec_divOp {fn : DivFn} {rd ra rb rc : RegNo} (hi : s.issues c (.div fn rd ra rb rc) = true) :
    exec (.divOp c fn rd ra rb rc) s = .next ((s.tookSlot c).putThread c ((s.thread c).handOver (s.env c) (s.thread c).fcsr
      { unit := .divider,
        writes := [(.g rd, (divResult fn ((s.thread c).gReg ra) ((s.thread c).gReg rb)).1),
          (.g rc, (divResult fn ((s.thread c).gReg ra) ((s.thread c).gReg rb)).2)],
        div := some (((s.thread c).stampNow (s.env c)).vt, ((s.thread c).stampNow (s.env c)).pc, (s.env c).cpu) } 66)) := by
  change execDivOp c fn rd ra rb rc s = _
  simp only [execDivOp, State.issue_eq_next hc hi, Thread.gReg_stampNow, Thread.handOver]
  rw [← Thread.stampNow_fcsr (s.env c) (s.thread c)]

end

theorem Thread.stampNow_vt_eq_vtAfter (x : Thread) (e : CoreEnv) : (x.stampNow e).vt = x.vtAfter e 0 := by
  simp [stampNow_vt, vtAfter]

/-! Results as the units write them (R70). -/

/-- A value as the register of a destination takes it: g0 reads 0 (R104). -/
def Thread.showsIn (x : Thread) (d : Dest) (v : Word) : Prop :=
  match d with
  | .g r => x.gReg r = written r v
  | .f r => x.fReg r = v

theorem Thread.showsIn_setDest (x : Thread) (d : Dest) (v : Word) : (x.setDest d v).showsIn d v := by
  cases d with
  | g r => exact x.gReg_setG_same r v
  | f r => simp [showsIn, setDest, fReg_setF]

/-- A write of one destination leaves every register outside a list that names it. -/
theorem Thread.keepsRegs.setDest {x y : Thread} {l : List Dest} (h : x.keepsRegs y l) {d : Dest} (hd : d ∈ l) (v : Word) :
    x.keepsRegs (y.setDest d v) l := by
  obtain ⟨hg, hf⟩ := h
  cases d with
  | g r =>
    refine ⟨fun q hq => ?_, fun q hq => ?_⟩
    · have other : q ≠ r := fun e => hq (e ▸ hd)
      rw [Thread.setDest, gReg_setG, if_neg other, hg q hq]
    · exact (fReg_setG y r q v).trans (hf q hq)
  | f r =>
    refine ⟨fun q hq => hg q hq, fun q hq => ?_⟩
    have other : q ≠ r := fun e => hq (e ▸ hd)
    rw [Thread.setDest, Thread.fReg_setF, if_neg other, hf q hq]

@[simp] theorem Thread.setDest_units (x : Thread) (d : Dest) (v : Word) : (x.setDest d v).units = x.units := by
  cases d <;> simp [setDest]
@[simp] theorem Thread.setDest_sb (x : Thread) (d : Dest) (v : Word) : (x.setDest d v).sb = x.sb := by
  cases d <;> simp [setDest]
@[simp] theorem Thread.setDest_loads (x : Thread) (d : Dest) (v : Word) : (x.setDest d v).loads = x.loads := by
  cases d <;> simp [setDest]
@[simp] theorem Thread.setDest_fcsr (x : Thread) (d : Dest) (v : Word) : (x.setDest d v).fcsr = x.fcsr := by
  cases d <;> simp [setDest]
@[simp] theorem Thread.setDest_pc (x : Thread) (d : Dest) (v : Word) : (x.setDest d v).pc = x.pc := by
  cases d <;> simp [setDest]
@[simp] theorem Thread.setDest_vt (x : Thread) (d : Dest) (v : Word) : (x.setDest d v).vt = x.vt := by
  cases d <;> simp [setDest]
theorem Thread.keepsSys.setDest {x y : Thread} (h : x.keepsSys y) (d : Dest) (v : Word) : x.keepsSys (y.setDest d v) := by
  cases d <;> simpa [keepsSys, Thread.setDest] using h

/-- The thread once its unit's result `k` has left the unit. -/
def Thread.dropUnit (x : Thread) (k : Nat) : Thread := { x with units := x.units.eraseIdx k }

theorem exec_unitResultWrite {s : State} {c : Ctx} {k : Nat} {u : UnitPend} (hc : c.ok = true) (hu : (s.thread c).units[k]? = some u)
    (hd : s.unitDone c u = true) :
    exec (.unitResultWrite c k) s = .next (s.putThread c
      (u.writes.foldl (fun t w => t.setDest w.1 w.2) ((s.thread c).dropUnit k))) := by
  change execUnitResultWrite c k s = _
  simp [execUnitResultWrite, ctxOk_eq_ok, hc, hu, hd, Thread.dropUnit]

/-- Settles O2: MUL and DIV hand their results to a unit, and UNIT_RESULT_WRITE writes them one after the other. -/
theorem multiplyDivideResults : Obligations.MultiplyDivideResults := by
  refine ⟨fun c fn rd ra rb rc s hc hi => ?mul, fun c fn rd ra rb rc s hc hi => ?div, fun c k u d v s hc hu hd hw => ?one,
    fun c k u rd rc v w s hc hu hd hw => ?two⟩
  case mul =>
    exact ⟨_, _, exec_mulOp hc hi, Thread.handOver_units .., rfl, rfl, Thread.keepsRegs_handOver .., Thread.keepsSys_handOver ..,
      Thread.handOver_sb .., Thread.handOver_loads .., Thread.handOver_fcsr .., Thread.handOver_pc .., Thread.handOver_vt ..⟩
  case div =>
    refine ⟨_, _, exec_divOp hc hi, Thread.handOver_units .., rfl, ?_, Thread.keepsRegs_handOver .., Thread.keepsSys_handOver ..,
      Thread.handOver_sb .., Thread.handOver_loads .., Thread.handOver_fcsr .., Thread.handOver_pc .., Thread.handOver_vt ..⟩
    rw [Thread.stampNow_vt_eq_vtAfter, Thread.stampNow_pc]
  case one =>
    intro x
    have same : x.keepsRegs (x.dropUnit k) [d] := ⟨fun _ _ => rfl, fun _ _ => rfl⟩
    have sys : x.keepsSys (x.dropUnit k) := ⟨rfl, rfl, rfl, rfl, rfl⟩
    refine ⟨_, exec_unitResultWrite hc hu hd, ?_⟩
    rw [hw]
    exact ⟨Thread.setDest_units .., Thread.showsIn_setDest _ d v, same.setDest (List.mem_singleton_self _) v, sys.setDest d v,
      Thread.setDest_sb .., Thread.setDest_loads .., Thread.setDest_fcsr .., Thread.setDest_pc .., Thread.setDest_vt ..⟩
  case two =>
    intro x
    have same : x.keepsRegs (x.dropUnit k) [.g rd, .g rc] := ⟨fun _ _ => rfl, fun _ _ => rfl⟩
    have sys : x.keepsSys (x.dropUnit k) := ⟨rfl, rfl, rfl, rfl, rfl⟩
    refine ⟨_, exec_unitResultWrite hc hu hd, ?_⟩
    rw [hw]
    refine ⟨Thread.showsIn_setDest _ (.g rc) w, fun other => ?_, (same.setDest (d := .g rd) (by simp) v).setDest (d := .g rc) (by simp) w,
      (sys.setDest (.g rd) v).setDest (.g rc) w, ?_⟩
    · change (((x.dropUnit k).setDest (.g rd) v).setG rc w).gReg rd = _
      rw [Thread.gReg_setG, if_neg other]
      exact Thread.showsIn_setDest (x.dropUnit k) (.g rd) v
    · exact (Thread.setDest_pc _ (.g rc) w).trans (Thread.setDest_pc (x.dropUnit k) (.g rd) v)

/-- Settles O3: the FP unit takes the result, and the flags join FCSR at issue. -/
theorem floatResults : Obligations.FloatResults := by
  refine ⟨fun c p fn rd ra rb rc s hc hi => ?fp, fun c p np na rd ra rb rc s hc hi => ?fma⟩
  case fp =>
    intro x r
    refine ⟨x.handOver (s.env c) (fcsrOr x.fcsr r.2) { unit := fpUnit fn, writes := [(if fpWritesG fn then .g rd else .f rd, r.1)], div := none }
      (fpCost fn), _, ?_, Thread.handOver_units .., rfl, rfl, Thread.handOver_fcsr .., Thread.keepsRegs_handOver ..,
      Thread.keepsSys_handOver .., Thread.handOver_sb .., Thread.handOver_loads .., Thread.handOver_pc .., Thread.handOver_vt ..⟩
    change execFpOp c p fn rd ra rb rc s = _
    simp only [execFpOp, State.issue_eq_next hc hi, Thread.gReg_stampNow, Thread.fReg_stampNow, Thread.stampNow_fcsr, Thread.handOver, x, r]
  case fma =>
    intro x r
    refine ⟨x.handOver (s.env c) (fcsrOr x.fcsr r.2) { unit := .pipelined, writes := [(.f rd, r.1)], div := none } 5, _, ?_,
      Thread.handOver_units .., rfl, rfl, Thread.handOver_fcsr .., Thread.keepsRegs_handOver .., Thread.keepsSys_handOver ..,
      Thread.handOver_sb .., Thread.handOver_loads .., Thread.handOver_pc .., Thread.handOver_vt ..⟩
    change execFmaOp c p np na rd ra rb rc s = _
    simp only [execFmaOp, State.issue_eq_next hc hi, Thread.fReg_stampNow, Thread.stampNow_fcsr, Thread.handOver, x, r]

end Sys2Proof.Machine
end

section
/-! PROOFS. The system registers (R130, R133; O6), and the return from an exception (R140; O9). -/
namespace Sys2Proof.Machine
open Sys2Proof

/-- The bits of `v` that a mask allows, over an old value. -/
def maskedOver (v m old : Word) : Word := (old &&& ~~~ m) ||| (v &&& m)
/-- The top frame as a write of system register `n` leaves it (R133). -/
def topAfterWrite (e : CoreEnv) (n : Nat) (v : Word) (f : Frame) : Frame :=
  if n = 1 then { f with estatus := maskedOver v 1 f.estatus }
  else if n = 2 then { f with epc := maskedOver v (addrMask e.sys 2) f.epc } else f

theorem Thread.mapTop_eq_modifyHead (x : Thread) (f : Frame → Frame) : x.mapTop f = { x with frames := x.frames.modifyHead f } := by
  unfold mapTop
  split
  · next empty => rw [empty, List.modifyHead_nil, ← empty]
  · next top => rw [top, List.modifyHead_cons]

theorem topAfterWrite_other {n : Nat} (h1 : n ≠ 1) (h2 : n ≠ 2) (e : CoreEnv) (v : Word) (l : List Frame) :
    l.modifyHead (topAfterWrite e n v) = l := by
  have same : topAfterWrite e n v = id := funext fun f => by rw [topAfterWrite, if_neg h1, if_neg h2, id]
  rw [same, List.modifyHead_id, id]

/-- What a write of each system register changes, register by register of R133. -/
theorem Thread.writeSys_eq (x : Thread) (e : CoreEnv) (v : Word) {n : Nat} (h : n ∈ sysRegs) :
    x.writeSys e n v = { x with
      ie := if n = 0 then bit v 0 else x.ie
      frames := x.frames.modifyHead (topAfterWrite e n v)
      vbase := if n = 5 then maskedOver v (addrMask e.sys 10) x.vbase else x.vbase
      fcsr := if n = 8 then maskedOver v fcsrWritable x.fcsr else x.fcsr
      scratch := if 0x20 ≤ n then Sparse.set zeroWord x.scratch (n - 0x20) v else x.scratch } := by
  by_cases h1 : n = 1
  · subst h1
    exact x.mapTop_eq_modifyHead _
  by_cases h2 : n = 2
  · subst h2
    exact x.mapTop_eq_modifyHead _
  rw [topAfterWrite_other h1 h2]
  simp only [sysRegs, List.mem_cons, List.not_mem_nil, or_false, h1, h2, false_or] at h
  obtain rfl | rfl | rfl | rfl | rfl | rfl | rfl | rfl | rfl | rfl | rfl := h <;> rfl

theorem sysRegs_lt {n : Nat} (h : n ∈ sysRegs) : ¬ 0x800 ≤ n :=
  (by decide : ∀ m ∈ sysRegs, ¬ 0x800 ≤ m) n h

section
variable {s : State} {c : Ctx} {n : BitVec 12} (hc : c.ok = true)
include hc

theorem exec_mfs {rd : RegNo} (hi : s.issues c (.mfs rd n) = true) (hn : n.toNat ∈ sysRegs) :
    exec (.mfs c rd n) s = .next ((s.tookSlot c).putThread c
      ((s.thread c).result (s.env c) rd (((s.thread c).stampNow (s.env c)).readSys (s.env c) n.toNat) 1)) := by
  have low : ¬ 0x800 ≤ n.toNat := sysRegs_lt hn
  change execMfs c rd n s = _
  simp only [execMfs, if_neg low, List.contains_iff_mem, hn, if_true, State.issue_eq_next hc hi, Thread.result]

theorem exec_mts {ra : RegNo} (hi : s.issues c (.mts ra n) = true) (hn : n.toNat ∈ sysRegs) :
    exec (.mts c ra n) s = .next ((s.tookSlot c).putThread c
      (((((s.thread c).stampNow (s.env c)).writeSys (s.env c) n.toNat ((s.thread c).gReg ra)).next).charge (s.env c) 1)) := by
  have low : ¬ 0x800 ≤ n.toNat := sysRegs_lt hn
  change execMts c ra n s = _
  simp only [execMts, if_neg low, List.contains_iff_mem, hn, if_true, State.issue_eq_next hc hi, Thread.gReg_stampNow]

end

/-- Settles O6: MFS is a result in rd; MTS writes the fields of its register and no other. -/
theorem systemRegisterAccess : Obligations.SystemRegisterAccess := by
  refine ⟨fun c rd n s hc hi hn => ?mfs, fun c ra n s hc hi hn => ?mts⟩
  case mfs =>
    intro x
    obtain ⟨hregs, hsys, hwork, hfcsr⟩ := x.keepsBut_result (s.env c) rd ((x.stampNow (s.env c)).readSys (s.env c) n.toNat) 1
    exact ⟨_, exec_mfs hc hi hn, x.gReg_result_same .., hregs, hsys, hwork, hfcsr, x.result_pc .., x.result_vt ..⟩
  case mts =>
    intro x v into
    refine ⟨_, exec_mts hc hi hn, ?_⟩
    rw [Thread.writeSys_eq _ _ _ hn]
    refine ⟨⟨fun r _ => ?_, fun r _ => ?_⟩, by simp [Thread.keepsWork, x], by simp [x], by simp [x, v], ?_, fun k => ?_, ?_, ?_, by simp [x], ?_⟩
    case refine_1 => rw [Thread.gReg_charge, Thread.gReg_next]; exact Thread.gReg_stampNow ..
    case refine_2 => rw [Thread.fReg_charge, Thread.fReg_next]; exact Thread.fReg_stampNow ..
    case refine_3 => simp [x, v, into, maskedOver]
    case refine_4 =>
      simp only [Thread.charge_scratch, Thread.next_scratch, Thread.stampNow_scratch]
      by_cases hn : 0x20 ≤ n.toNat
      · simp only [hn, if_true, true_and, Sparse.get_set, v, x]
      · simp only [hn, if_false, false_and, x]
    case refine_5 => simp [x, v, into, maskedOver]
    case refine_6 =>
      simp only [Thread.charge_frames, Thread.next_frames, Thread.stampNow_frames]
      cases x.frames with
      | nil => rfl
      | cons f fs => rfl
    case refine_7 => exact Thread.charge_vt_of_stamped (by rfl) 1

/-! The return from an exception (R140). -/

/-- The return to the top frame, with its cost. -/
def Thread.returned (e : CoreEnv) (x : Thread) : Thread :=
  (((x.stampNow e).pop).jump (x.top (·.epc))).charge e (jumpCost (x.top (·.epc)) 12 4)


section
variable (x : Thread) (e : CoreEnv)

@[simp] theorem Thread.top_stampNow (f : Frame → Word) : (x.stampNow e).top f = x.top f := by simp [top]
theorem Thread.returned_of_frames {f : Frame} {fs : List Frame} (h : x.frames = f :: fs) :
    (x.returned e).pc = f.epc ∧ (x.returned e).ie = bit f.estatus 0 ∧ (x.returned e).level = bits f.estatus 4 4 ∧
      (x.returned e).frames = fs ∧ (x.returned e).vt = x.vtAfter e (jumpCost f.epc 12 4) := by
  have top (g : Frame → Word) : x.top g = g f := by rw [Thread.top, h]
  refine ⟨?_, ?_, ?_, ?_, ?_⟩
  case refine_5 =>
    rw [returned, top]
    exact charge_vt_of_stamped (by rfl) _
  all_goals simp [returned, pop, restores, top, h]
theorem Thread.keepsRegs_returned (d : List Dest) : x.keepsRegs (x.returned e) d := by
  refine ⟨fun r _ => ?_, fun r _ => ?_⟩
  · rw [returned, gReg_charge, gReg_jump]
    exact gReg_stampNow e x r
  · rw [returned, fReg_charge, fReg_jump]
    exact fReg_stampNow e x r
theorem Thread.returned_others : x.keepsWork (x.returned e) ∧ (x.returned e).vbase = x.vbase ∧ (x.returned e).fcsr = x.fcsr ∧
    (x.returned e).scratch = x.scratch := by
  simp [keepsWork, returned, pop]

end

/-- An ERET with a frame that does not chain. -/
theorem exec_eret_plain {s : State} {c : Ctx} (hc : c.ok = true) (hi : s.issues c .eret = true) (hf : (s.thread c).frames ≠ [])
    (fixed : s.eretFixed c = true)
    (alone : ∀ l t, c = .game l t → (s.lane l).chains t ((s.lane l).issueVt t) (s.lane l).cpu = none) :
    exec (.eret c) s = .next ((s.tookSlot c).putThread c ((s.thread c).returned (s.env c))) := by
  have some_frame : (s.thread c).frames.isEmpty = false := List.isEmpty_eq_false_iff.2 hf
  change execEret c s = _
  cases c with
  | game l t =>
    have alone := alone l t rfl
    have cpu : (s.env (.game l t)).cpu = (s.lane l).cpu := rfl
    simp [execEret, some_frame, ctxOk_eq_ok, hc, hi, fixed, cpu, alone, Thread.returned]
  | sys h k z => simp [execEret, some_frame, ctxOk_eq_ok, hc, hi, Thread.returned]

/-- Settles O9: a plain return pops the top frame, and one without a frame is an exception. -/
theorem exceptionReturn : Obligations.ExceptionReturn := by
  intro c s hc hi x
  refine ⟨fun f fs hx fixed alone => ?plain, fun hx hv => ?empty⟩
  case plain =>
    obtain ⟨hpc, hie, hlevel, hframes, hvt⟩ := x.returned_of_frames (s.env c) hx
    obtain ⟨hwork, hvbase, hfcsr, hscratch⟩ := x.returned_others (s.env c)
    exact ⟨_, exec_eret_plain hc hi (hx ▸ List.cons_ne_nil f fs) fixed alone, hpc, hie, hlevel, hframes, x.keepsRegs_returned _ _, hwork,
      hvbase, hfcsr, hscratch, hvt⟩
  case empty =>
    refine ⟨_, ?_, rfl, x.keepsRegs_raise _ _ _⟩
    change execEret c s = _
    simp only [execEret, x] at hx ⊢
    rw [hx, List.isEmpty_nil, if_pos rfl, State.fails_eq_next hc hi hv]

end Sys2Proof.Machine
end

section
/-! PROOFS. Exceptions (R134 to R139, R142): the entry, what raises one, and the trap (O7, O8). -/
namespace Sys2Proof.Machine
open Sys2Proof

/-! The entry of R137 in its cases. -/

section
variable (x : Thread) (e : CoreEnv) (n : Nat) (k b : Word) (lvl : Option Nat)

@[simp] theorem Thread.status_stampNow : (x.stampNow e).status e = x.status e := by simp [status]
@[simp] theorem Thread.vectorAddr_stampNow : (x.stampNow e).vectorAddr n = x.vectorAddr n := by simp [vectorAddr]

/-- The entry with room on the frame stack and a vector that may be read. -/
def Thread.pushed : Thread :=
  (({ x with frames := x.frame e k b :: x.frames, level := lvl.getD x.level }).jump (entryPc (e.vector (x.vectorAddr n)))).charge e 6

variable {x e n}

theorem Thread.enter_eq_pushed (room : x.frames.length < 16) (ok : vectorOk e (x.vectorAddr n) = true) :
    x.enter e n k b lvl = x.pushed e n k b lvl := by
  simp only [enter, Nat.ne_of_lt room, if_false, ok, Bool.true_eq_false, pushed]

/-- The entry that traps (R139). -/
theorem Thread.enter_traps (h : x.frames.length = 16 ∨ vectorOk e (x.vectorAddr n) = false) :
    (x.enter e n k b lvl).trapped = true ∧ (x.enter e n k b lvl).active = false ∧ (x.enter e n k b lvl).waiting = false ∧
      (x.enter e n k b lvl).frames = x.frames ∧ (x.enter e n k b lvl).pc = x.pc := by
  unfold enter
  dsimp only
  split
  · exact ⟨rfl, rfl, rfl, rfl, rfl⟩
  · next room =>
    rw [if_pos (h.resolve_left room)]
    simp [trap]

end

section
variable (x : Thread) (e : CoreEnv) (n : Nat) (k b : Word) (lvl : Option Nat)

@[simp] theorem Thread.pushed_pc : (x.pushed e n k b lvl).pc = entryPc (e.vector (x.vectorAddr n)) := by simp [pushed]
@[simp] theorem Thread.pushed_level : (x.pushed e n k b lvl).level = lvl.getD x.level := by simp [pushed]
@[simp] theorem Thread.pushed_ie : (x.pushed e n k b lvl).ie = x.ie := by simp [pushed]
@[simp] theorem Thread.pushed_frames : (x.pushed e n k b lvl).frames = x.frame e k b :: x.frames := by simp [pushed]
@[simp] theorem Thread.pushed_trapped : (x.pushed e n k b lvl).trapped = x.trapped := by simp [pushed]
@[simp] theorem Thread.pushed_vbase : (x.pushed e n k b lvl).vbase = x.vbase := by simp [pushed]
@[simp] theorem Thread.pushed_fcsr : (x.pushed e n k b lvl).fcsr = x.fcsr := by simp [pushed]
@[simp] theorem Thread.pushed_scratch : (x.pushed e n k b lvl).scratch = x.scratch := by simp [pushed]
@[simp] theorem Thread.pushed_units : (x.pushed e n k b lvl).units = x.units := by simp [pushed]
@[simp] theorem Thread.pushed_entering : (x.pushed e n k b lvl).entering = x.entering := by simp [pushed]
theorem Thread.pushed_vt : (x.pushed e n k b lvl).vt = if e.det then x.vt + 6 * e.cpu else x.vt := by simp [pushed, charge_vt]

end

/-! An exception of a context. -/

section
variable {s : State} {c : Ctx} {k : Cause}

theorem State.fails_eq_except {i : NInstr} (hc : c.ok = true) (hi : s.issues c i = true) : s.fails c i k = s.except c k := by
  simp [State.fails, ctxOk_eq_ok, hc, hi]

theorem State.except_eq_next (hv : s.vectorFixed c = true) :
    s.except c k = .next (((s.tookSlot c).putThread c ((s.thread c).raise (s.env c) k)).afterThread c) := by
  simp [State.except, hv]

/-- The entry in progress (R137). -/
theorem State.except_begun (hv : s.vectorFixed c = false) (room : (s.thread c).frames.length < 16) :
    s.except c k = .next ((s.tookSlot c).putThread c
      ((s.thread c).begin (s.env c).cpu (s.thread c).vt 6 (.except k.word k.bad))) := by
  simp [State.except, hv, Nat.ne_of_lt room]

/-- Nothing follows where the thread has not trapped. -/
theorem State.afterThread_putThread {y : Thread} (h : y.trapped = false) : (s.putThread c y).afterThread c = s.putThread c y := by
  cases c with
  | game l t =>
    have same : ((s.putThread (.game l t) y).lane l).thread t = y := State.thread_putThread s (.game l t) y
    simp only [State.afterThread, same, h, Bool.false_eq_true, if_false]
  | sys h k z => rfl

theorem State.vectorFixed_sys (s : State) (h : HalfId) (k z : Nat) : s.vectorFixed (.sys h k z) = true := rfl

/-- An exception of a game thread or a system thread that finds room and a vector. -/
theorem State.except_eq_pushed (hv : s.vectorFixed c = true) (room : (s.thread c).frames.length < 16)
    (ok : vectorOk (s.env c) ((s.thread c).vectorAddr 0) = true) (alive : (s.thread c).trapped = false) :
    s.except c k = .next ((s.tookSlot c).putThread c
      (((s.thread c).stampNow (s.env c)).pushed (s.env c) 0 k.word k.bad none)) := by
  have entered : (s.thread c).raise (s.env c) k = ((s.thread c).stampNow (s.env c)).pushed (s.env c) 0 k.word k.bad none := by
    unfold Thread.raise
    exact Thread.enter_eq_pushed _ _ _ (by simpa using room) (by simpa using ok)
  rw [State.except_eq_next hv, entered, State.afterThread_putThread (by simpa using alive)]

end

/-! What raises an exception. -/

section
variable {s : State} {c : Ctx} (hc : c.ok = true)
include hc

theorem exec_mfs_privileged {l t : Nat} {rd : RegNo} {n : BitVec 12} (e : c = .game l t) (hn : 0x800 ≤ n.toNat)
    (hi : s.issues c (.mfs rd n) = true) : exec (.mfs c rd n) s = s.except c (.privileged (nencode (.mfs rd n))) := by
  subst e
  change execMfs (.game l t) rd n s = _
  simp only [execMfs, if_pos hn]
  exact State.fails_eq_except hc hi
theorem exec_mts_privileged {l t : Nat} {ra : RegNo} {n : BitVec 12} (e : c = .game l t) (hn : 0x800 ≤ n.toNat)
    (hi : s.issues c (.mts ra n) = true) : exec (.mts c ra n) s = s.except c (.privileged (nencode (.mts ra n))) := by
  subst e
  change execMts (.game l t) ra n s = _
  simp only [execMts, if_pos hn]
  exact State.fails_eq_except hc hi
theorem exec_mfs_unassigned {rd : RegNo} {n : BitVec 12} (hn : n.toNat < 0x800) (none : n.toNat ∉ sysRegs)
    (hi : s.issues c (.mfs rd n) = true) : exec (.mfs c rd n) s = s.except c (.illegal (nencode (.mfs rd n))) := by
  change execMfs c rd n s = _
  simp only [execMfs, if_neg (Nat.not_le.mpr hn), List.contains_iff_mem, if_neg none]
  exact State.fails_eq_except hc hi
theorem exec_mts_unassigned {ra : RegNo} {n : BitVec 12} (hn : n.toNat < 0x800) (none : n.toNat ∉ sysRegs)
    (hi : s.issues c (.mts ra n) = true) : exec (.mts c ra n) s = s.except c (.illegal (nencode (.mts ra n))) := by
  change execMts c ra n s = _
  simp only [execMts, if_neg (Nat.not_le.mpr hn), List.contains_iff_mem, if_neg none]
  exact State.fails_eq_except hc hi
theorem exec_jalr_except {rd ra : RegNo} {imm : BitVec 16} (ha : (effAddr ((s.thread c).gReg ra) imm).toNat % 4 ≠ 0)
    (hi : s.issues c (.jalr rd ra imm) = true) :
    exec (.jalr c rd ra imm) s = s.except c (.instrAlign (effAddr ((s.thread c).gReg ra) imm)) := by
  change execJalr c rd ra imm s = _
  rw [execJalr, if_pos ha, State.fails_eq_except hc hi]
theorem exec_illegalInstruction_except {w : BitVec 32} (may : s.mayIssue c = true) (active : (s.thread c).active = true)
    (awake : (s.thread c).waiting = false) (alive : (s.thread c).trapped = false) (hw : (s.thread c).word = some w) (none : ndecode w = none) :
    exec (.illegalInstruction c w) s = s.except c (.illegal w) := by
  change execIllegalInstruction c w s = _
  simp [execIllegalInstruction, ctxOk_eq_ok, hc, may, active, awake, alive, hw, none]
theorem exec_instructionAccessFault_except {l t : Nat} (e : c = .game l t) (cool : s.thermtrip = false) (may : (s.lane l).issueOk t = true)
    (active : (s.thread c).active = true) (awake : (s.thread c).waiting = false) (alive : (s.thread c).trapped = false)
    (outside : executable (s.thread c).pc.toNat (s.lane l).titleLen = false) :
    exec (.instructionAccessFault c) s = s.except c (.instrAccess (s.thread c).pc (fetchDetail (s.thread c).pc.toNat)) := by
  subst e
  change execInstructionAccessFault (.game l t) s = _
  simp [execInstructionAccessFault, ctxOk_eq_ok, hc, cool, may, active, awake, alive, outside]

end

/-- Settles O7: each of the ten is an exception of its context, and the entry finds room and a vector. -/
theorem exceptionEntry : Obligations.ExceptionEntry := by
  intro c s k i hc hv room ok alive cases x
  have raised : exec i s = s.except c k := by
    obtain ⟨n, rfl, rfl, hi⟩ | ⟨rfl, rfl, hi⟩ | ⟨rd, ra, imm, rfl, rfl, ha, hi⟩ | ⟨l, t, rd, n, e, rfl, hn, rfl, hi⟩ |
      ⟨l, t, ra, n, e, rfl, hn, rfl, hi⟩ | ⟨rd, n, rfl, hn, none, rfl, hi⟩ | ⟨ra, n, rfl, hn, none, rfl, hi⟩ | ⟨l, t, b, rfl, rfl, rfl, hi⟩ |
      ⟨w, rfl, rfl, may, active, awake, hw, none⟩ | ⟨l, t, e, rfl, cool, may, active, awake, outside, rfl⟩ := cases
    · exact State.fails_eq_except hc hi
    · exact State.fails_eq_except hc hi
    · exact exec_jalr_except hc ha hi
    · exact exec_mfs_privileged hc e hn hi
    · exact exec_mts_privileged hc e hn hi
    · exact exec_mfs_unassigned hc hn none hi
    · exact exec_mts_unassigned hc hn none hi
    · exact State.fails_eq_except hc hi
    · exact exec_illegalInstruction_except hc may active awake alive hw none
    · exact exec_instructionAccessFault_except hc e cool may active awake alive outside
  refine ⟨_, raised.trans (State.except_eq_pushed hv room ok alive), ?_⟩
  have frame : ((s.thread c).stampNow (s.env c)).frame (s.env c) k.word k.bad =
      { epc := x.pc, estatus := x.status (s.env c), cause := k.word, badaddr := k.bad } := by simp [Thread.frame, x]
  refine ⟨?_, ?_, ?_, ?_, ⟨fun r _ => ?_, fun r _ => ?_⟩, ?_, ?_, ?_, ?_, ?_⟩
  case refine_1 => rw [Thread.pushed_frames, frame, Thread.stampNow_frames]
  case refine_2 => rw [Thread.pushed_pc, Thread.vectorAddr_stampNow]
  case refine_5 => simp [Thread.pushed, Thread.gReg, x]
  case refine_6 => simp [Thread.pushed, Thread.fReg, x]
  case refine_7 => simp [Thread.keepsWork, Thread.pushed, x]
  case refine_11 => exact Thread.charge_vt_of_stamped (by rfl) 6
  all_goals simp [x]

/-- Settles O8: a failing access is an exception; the entry is in progress while its vector cannot be read, and traps where it may not. -/
theorem faultsAndTraps : Obligations.FaultsAndTraps := by
  refine ⟨fun l t s i k hc hv => ?game, fun h n z s i k hc => ?sys, fun l t n s hc hi hv room => ?begun, fun c n s hc hi hv full => ?trap⟩
  case game =>
    intro c x faults
    have raised : exec i s = s.except c k := by
      obtain ⟨fn, rt, base, off, rfl, hi, hk⟩ | ⟨fn, rt, base, off, rfl, hi, hk⟩ | ⟨fn, w32, rd, ra, rb, rc, rfl, hi, hk⟩ := faults
      · change execLoad c fn rt base off s = _
        simp only [execLoad, ctxOk_eq_ok, hc, hi, c, x] at hk ⊢
        simp [hk]
      · change execStore c fn rt base off s = _
        simp only [execStore, ctxOk_eq_ok, hc, hi, c, x] at hk ⊢
        simp [hk]
      · change execAmo c fn w32 rd ra rb rc s = _
        simp only [execAmo, ctxOk_eq_ok, hc, hi, c, x] at hk ⊢
        simp [hk]
    exact raised.trans (State.except_eq_next hv)
  case sys =>
    intro c x a faults
    have raised : exec i s = s.except c k := by
      obtain ⟨fn, rt, base, off, d, rfl, hi, hk, rfl⟩ | ⟨fn, rt, base, off, d, rfl, hi, hk, rfl⟩ | ⟨fn, w32, rd, ra, rb, rc, rfl, hi, hk⟩ := faults
      · change execLoad c fn rt base off s = _
        simp only [execLoad, ctxOk_eq_ok, hc, hi, c, x, a] at hk ⊢
        simp [hk]
      · change execStore c fn rt base off s = _
        simp only [execStore, ctxOk_eq_ok, hc, hi, c, x, a] at hk ⊢
        simp [hk]
      · change execAmo c fn w32 rd ra rb rc s = _
        simp only [execAmo, ctxOk_eq_ok, hc, hi, c, x] at hk ⊢
        simp [hk]
    exact raised.trans (State.except_eq_next (s.vectorFixed_sys h n z))
  case begun =>
    intro x
    refine ⟨_, (State.fails_eq_except hc hi).trans (State.except_begun hv room), rfl, rfl, rfl, rfl, rfl, rfl,
      ⟨fun _ _ => rfl, fun _ _ => rfl⟩, rfl, rfl, rfl⟩
  case trap =>
    have traps := ((s.thread c).stampNow (s.env c)).enter_traps (e := s.env c) (n := 0) (Cause.ecall n).word (Cause.ecall n).bad none
      (by simpa using full)
    obtain ⟨trapped, inactive, awake, frames, pc⟩ := traps
    exact ⟨(s.thread c).raise (s.env c) (.ecall n), _, State.fails_eq_next hc hi hv _, rfl, trapped, inactive, awake,
      frames.trans (Thread.stampNow_frames ..), pc.trans (Thread.stampNow_pc ..), Thread.keepsRegs_raise ..⟩

end Sys2Proof.Machine
end

section
/-! PROOFS. Interrupt entry, chained return and an entry in progress (R86, R99, R137, R141, R149; O10). -/
namespace Sys2Proof.Machine
open Sys2Proof

/-! A divide abandoned (R86): the VT, the pc and the units change. -/

section
variable (x : Thread) (p : Nat)

@[simp] theorem Thread.abandon_g : (x.abandon p).g = x.g := by unfold abandon; split <;> rfl
@[simp] theorem Thread.abandon_f : (x.abandon p).f = x.f := by unfold abandon; split <;> rfl
@[simp] theorem Thread.abandon_ie : (x.abandon p).ie = x.ie := by unfold abandon; split <;> rfl
@[simp] theorem Thread.abandon_level : (x.abandon p).level = x.level := by unfold abandon; split <;> rfl
@[simp] theorem Thread.abandon_frames : (x.abandon p).frames = x.frames := by unfold abandon; split <;> rfl
@[simp] theorem Thread.abandon_vbase : (x.abandon p).vbase = x.vbase := by unfold abandon; split <;> rfl
@[simp] theorem Thread.abandon_fcsr : (x.abandon p).fcsr = x.fcsr := by unfold abandon; split <;> rfl
@[simp] theorem Thread.abandon_scratch : (x.abandon p).scratch = x.scratch := by unfold abandon; split <;> rfl
@[simp] theorem Thread.abandon_trapped : (x.abandon p).trapped = x.trapped := by unfold abandon; split <;> rfl
@[simp] theorem Thread.abandon_vt : (x.abandon p).vt = p := by unfold abandon; split <;> rfl
@[simp] theorem Thread.abandon_vectorAddr (n : Nat) : (x.abandon p).vectorAddr n = x.vectorAddr n := by simp [vectorAddr]
@[simp] theorem Thread.abandon_status (e : CoreEnv) : (x.abandon p).status e = x.status e := by simp [status]
theorem Thread.abandon_pc : (x.abandon p).pc = (match x.divide with | some d => d.2.1 | none => x.pc) := by
  unfold abandon
  cases x.divide <;> rfl
theorem Thread.abandon_units (h : x.divide ≠ none) : (x.abandon p).units = x.units.filter (fun u => u.div.isNone) := by
  unfold abandon
  cases e : x.divide with
  | none => exact absurd e h
  | some d => rfl
theorem Thread.keepsRegs_abandon (d : List Dest) : x.keepsRegs (x.abandon p) d := by
  simp [keepsRegs, gReg, fReg]

end

/-- The thread at another VT. -/
def Thread.setVt (x : Thread) (v : Nat) : Thread := { x with vt := v }

@[simp] theorem Thread.setVt_pc (x : Thread) (v : Nat) : (x.setVt v).pc = x.pc := rfl
@[simp] theorem Thread.setVt_frames (x : Thread) (v : Nat) : (x.setVt v).frames = x.frames := rfl
@[simp] theorem Thread.setVt_ie (x : Thread) (v : Nat) : (x.setVt v).ie = x.ie := rfl
@[simp] theorem Thread.setVt_level (x : Thread) (v : Nat) : (x.setVt v).level = x.level := rfl
@[simp] theorem Thread.setVt_entering (x : Thread) (v : Nat) : (x.setVt v).entering = x.entering := rfl
@[simp] theorem Thread.setVt_trapped (x : Thread) (v : Nat) : (x.setVt v).trapped = x.trapped := rfl
@[simp] theorem Thread.setVt_fcsr (x : Thread) (v : Nat) : (x.setVt v).fcsr = x.fcsr := rfl
@[simp] theorem Thread.setVt_vbase (x : Thread) (v : Nat) : (x.setVt v).vbase = x.vbase := rfl
@[simp] theorem Thread.setVt_scratch (x : Thread) (v : Nat) : (x.setVt v).scratch = x.scratch := rfl
@[simp] theorem Thread.setVt_units (x : Thread) (v : Nat) : (x.setVt v).units = x.units := rfl
@[simp] theorem Thread.setVt_vt (x : Thread) (v : Nat) : (x.setVt v).vt = v := rfl

theorem Thread.keepsRegs.trans {x y z : Thread} {d : List Dest} (h : x.keepsRegs y d) (k : y.keepsRegs z d) : x.keepsRegs z d :=
  ⟨fun r hr => (k.1 r hr).trans (h.1 r hr), fun r hr => (k.2 r hr).trans (h.2 r hr)⟩
theorem Thread.keepsRegs_setVt (x : Thread) (v : Nat) (d : List Dest) : x.keepsRegs (x.setVt v) d := ⟨fun _ _ => rfl, fun _ _ => rfl⟩
theorem Thread.keepsRegs_pushed (x : Thread) (e : CoreEnv) (n : Nat) (k b : Word) (lvl : Option Nat) {y : Thread} {d : List Dest}
    (h : y.keepsRegs x d) : y.keepsRegs (x.pushed e n k b lvl) d := by
  obtain ⟨hg, hf⟩ := h
  refine ⟨fun r hr => ?_, fun r hr => ?_⟩
  · rw [← hg r hr]
    exact gReg_charge ..
  · rw [← hf r hr]
    exact fReg_charge ..

@[simp] theorem Thread.begin_pc (x : Thread) (c p n : Nat) (k : EntryKind) : (x.begin c p n k).pc = x.pc := rfl
@[simp] theorem Thread.begin_frames (x : Thread) (c p n : Nat) (k : EntryKind) : (x.begin c p n k).frames = x.frames := rfl
@[simp] theorem Thread.begin_ie (x : Thread) (c p n : Nat) (k : EntryKind) : (x.begin c p n k).ie = x.ie := rfl
@[simp] theorem Thread.begin_level (x : Thread) (c p n : Nat) (k : EntryKind) : (x.begin c p n k).level = x.level := rfl
theorem Thread.keepsRegs_begin (x : Thread) (c p n : Nat) (k : EntryKind) (d : List Dest) : x.keepsRegs (x.begin c p n k) d :=
  ⟨fun _ _ => rfl, fun _ _ => rfl⟩

/-- The vector read of an entry names its source, and nothing more follows (R146). -/
theorem State.named_putThread {s : State} {l t : Nat} {y : Thread} (alive : y.trapped = false) (v n : Nat) :
    ((s.putThread (.game l t) y).named (.game l t) v n).afterThread (.game l t) =
      (s.putThread (.game l t) y).putLane l (((s.putThread (.game l t) y).lane l).acknowledge v n) := by
  have same : ((s.putThread (.game l t) y).lane l).thread t = y := State.thread_putThread s (.game l t) y
  have kept : (((s.putThread (.game l t) y).lane l).acknowledge v n).thread t = y := same
  simp only [State.named, State.thread, same, alive, State.afterThread, State.lane_putLane, kept, Bool.false_eq_true, if_false]

section
variable {s : State} {l t : Nat} (hc : (Ctx.game l t).ok = true)
include hc

/-- An interrupt of a game thread at its take point, once its vector read is decided. -/
theorem exec_interruptEntry_game {p n q : Nat} (active : (s.thread (.game l t)).active = true) (awake : (s.thread (.game l t)).waiting = false)
    (alive : (s.thread (.game l t)).trapped = false)
    (idle : (s.thread (.game l t)).loads = []) (plain : (s.thread (.game l t)).entering = none) (point : (s.lane l).takePoint t = some p)
    (runs : (s.lane l).phase = .running) (can : (s.lane l).vtCanAt t p = true)
    (fixed : (s.lane l).det = true → (s.lane l).takeFixed t p = true ∧
      (s.lane l).readFixed t (p + 3 * (if (s.lane l).det then (s.lane l).divCpu t else (s.lane l).cpu)) = true)
    (source : (s.lane l).entrySource t p (if (s.lane l).det then (s.lane l).divCpu t else (s.lane l).cpu)
      (Config.freeNat (laneDraw l (s.lane l))) = some (n, q))
    (room : (s.thread (.game l t)).frames.length < 16)
    (ok : vectorOk (laneEnv (s.lane l) (s.title l) t (p + 3 * (if (s.lane l).det then (s.lane l).divCpu t else (s.lane l).cpu)))
      ((s.thread (.game l t)).vectorAddr (1 + n)) = true) :
    let c3 := if (s.lane l).det then (s.lane l).divCpu t else (s.lane l).cpu
    let e : CoreEnv := { laneEnv (s.lane l) (s.title l) t (p + 3 * c3) with cpu := c3 }
    let w := ((s.thread (.game l t)).abandon p).pushed e (1 + n) (interruptCause n q) 0 (some q)
    let z := (s.putLane l { s.lane l with draws := (s.lane l).draws + 1 }).putThread (.game l t) (w.setVt ((s.lane l).onGrid p w.vt))
    exec (.interruptEntry (.game l t)) s =
      .next (z.putLane l ((z.lane l).acknowledge (if (s.lane l).det then p + 3 * c3 else p) n)) := by
  intro c3 e w z
  have entered : ((s.thread (.game l t)).abandon p).enter e (1 + n) (interruptCause n q) 0 (some q) = w :=
    Thread.enter_eq_pushed _ _ _ (by simpa using room) (by rw [Thread.abandon_vectorAddr]; exact ok)
  have decided : ((s.lane l).det && !(s.lane l).readFixed t (p + 3 * c3)) = false := by
    cases det : (s.lane l).det with
    | false => rfl
    | true => rw [(fixed det).2]; rfl
  have allowed : (!(s.lane l).det || (s.lane l).takeFixed t p) = true := by
    cases det : (s.lane l).det with
    | false => rfl
    | true => rw [(fixed det).1]; rfl
  rw [← State.named_putThread (by simpa [w, Thread.setVt] using alive)]
  change execInterruptEntry (.game l t) s = _
  simp only [execInterruptEntry, ctxOk_eq_ok, hc, active, awake, idle, plain, point, runs, can, allowed, decided, source, entered, c3, e]
  rfl

end

/-! A chained return (R141). -/

/-- The chained return whose vector may be read. -/
def Thread.chained (e : CoreEnv) (n p : Nat) (x : Thread) : Thread :=
  (({ x.mapTop (fun f => { f with cause := interruptCause n p }) with level := p }).jump (entryPc (e.vector (x.vectorAddr (1 + n))))).charge e 6

section
variable (x : Thread) (e : CoreEnv) (n p : Nat)

theorem Thread.chain_eq_chained (ok : vectorOk e (x.vectorAddr (1 + n)) = true) : x.chain e n p = x.chained e n p := by
  simp only [chain, ok, Bool.true_eq_false, if_false, chained]
@[simp] theorem Thread.chained_pc : (x.chained e n p).pc = entryPc (e.vector (x.vectorAddr (1 + n))) := by simp [chained]
@[simp] theorem Thread.chained_level : (x.chained e n p).level = p := by simp [chained]
@[simp] theorem Thread.chained_ie : (x.chained e n p).ie = x.ie := by simp [chained, mapTop_eq_modifyHead]
@[simp] theorem Thread.chained_trapped : (x.chained e n p).trapped = x.trapped := by simp [chained, mapTop_eq_modifyHead]
@[simp] theorem Thread.chained_entering : (x.chained e n p).entering = x.entering := by simp [chained, mapTop_eq_modifyHead]
theorem Thread.chained_frames {f : Frame} {fs : List Frame} (h : x.frames = f :: fs) :
    (x.chained e n p).frames = { f with cause := interruptCause n p } :: fs := by
  simp [chained, mapTop_eq_modifyHead, h]
theorem Thread.chained_vt : (x.chained e n p).vt = if e.det then x.vt + 6 * e.cpu else x.vt := by
  simp [chained, mapTop_eq_modifyHead, charge_vt]
theorem Thread.keepsRegs_chained (d : List Dest) : x.keepsRegs (x.chained e n p) d := by
  simp [keepsRegs, gReg, fReg, chained, mapTop_eq_modifyHead]

end

theorem Thread.keepsRegs_stampNow (x : Thread) (e : CoreEnv) (d : List Dest) : x.keepsRegs (x.stampNow e) d := (x.keepsBut_stampNow e d).1
theorem Thread.keepsRegs_atPoint (x : Thread) (q : Entering) (d : List Dest) : x.keepsRegs (x.atPoint q) d := ⟨fun _ _ => rfl, fun _ _ => rfl⟩

section
variable {s : State} {l t : Nat} (hc : (Ctx.game l t).ok = true)
include hc

/-- A return that chains. -/
theorem exec_eret_chains {n p : Nat} (hi : s.issues (.game l t) .eret = true) (fixed : s.eretFixed (.game l t) = true)
    (hf : (s.thread (.game l t)).frames ≠ [])
    (chains : (s.lane l).chains t ((s.lane l).issueVt t) (s.lane l).cpu = some (n, p))
    (ok : vectorOk (s.env (.game l t)) ((s.thread (.game l t)).vectorAddr (1 + n)) = true)
    (alive : (s.thread (.game l t)).trapped = false) :
    let u := (s.tookSlot (.game l t)).putThread (.game l t)
      (((s.thread (.game l t)).stampNow (s.env (.game l t))).chained (s.env (.game l t)) n p)
    exec (.eret (.game l t)) s = .next (u.putLane l ((u.lane l).acknowledge
      ((s.lane l).issueVt t + (if (s.lane l).det then 3 * (s.lane l).cpu else 0)) n)) := by
  intro u
  have some_frame : (s.thread (.game l t)).frames.isEmpty = false := List.isEmpty_eq_false_iff.2 hf
  have chained := Thread.chain_eq_chained ((s.thread (.game l t)).stampNow (s.env (.game l t))) (s.env (.game l t)) n p (by simpa using ok)
  rw [← State.named_putThread (by simpa using alive)]
  change execEret (.game l t) s = _
  simp only [execEret, some_frame, ctxOk_eq_ok, hc, hi, fixed, State.lane_tookSlot, ← chained]
  have cpu : (s.env (.game l t)).cpu = (s.lane l).cpu := rfl
  have det : (s.env (.game l t)).det = (s.lane l).det := rfl
  simp [cpu, det, chains]

/-- A return that is in progress until it is decided whether it chains. -/
theorem exec_eret_begun (hi : s.issues (.game l t) .eret = true) (open' : s.eretFixed (.game l t) = false)
    (hf : (s.thread (.game l t)).frames ≠ []) :
    exec (.eret (.game l t)) s = .next ((s.tookSlot (.game l t)).putThread (.game l t)
      ((s.thread (.game l t)).begin (s.lane l).cpu (s.thread (.game l t)).vt
        (min (jumpCost ((s.thread (.game l t)).top (·.epc)) 12 4) 6) .ret)) := by
  have some_frame : (s.thread (.game l t)).frames.isEmpty = false := List.isEmpty_eq_false_iff.2 hf
  have cpu : (s.env (.game l t)).cpu = (s.lane l).cpu := rfl
  change execEret (.game l t) s = _
  simp [execEret, some_frame, ctxOk_eq_ok, hc, hi, open', cpu]

/-- An entry or a return in progress of a running lane goes on once what it waits for has come about. -/
theorem exec_prefetchFill_goOn {q : Entering} {y : Thread} {n : Option Nat} (active : (s.thread (.game l t)).active = true)
    (entering : (s.thread (.game l t)).entering = some q) (runs : (s.lane l).phase = .running)
    (captured : (s.lane l).tm.boundary q.read ≤ (s.thread (.game l t)).capVt)
    (h : (s.lane l).entered (s.title l) t q = some (y, n)) (alive : y.trapped = false) :
    exec (.prefetchFill (.game l t)) s = .next (match n with
      | some n => (s.putThread (.game l t) y).putLane l (((s.putThread (.game l t) y).lane l).acknowledge q.read n)
      | none => s.putThread (.game l t) y) := by
  have captured : (s.lane l).tm.boundary q.read ≤ ((s.lane l).thread t).capVt := captured
  change execPrefetchFill (.game l t) s = _
  simp only [execPrefetchFill, ctxOk_eq_ok, hc, active, entering, State.goOn, runs, captured, h]
  cases n with
  | none => exact congrArg Host.Outcome.next (State.afterThread_putThread alive)
  | some n => exact congrArg Host.Outcome.next (State.named_putThread alive q.read n)

end

/-- The place of a context whose entry has been in progress since `q`. -/
def Lane.entryEnv (L : Lane) (title : Bytes) (t : Nat) (q : Entering) : CoreEnv := { laneEnv L title t q.read with cpu := q.cpu }

section
variable {L : Lane} {title : Bytes} {t : Nat} {q : Entering}

/-- An exception in progress (R137). -/
theorem Lane.entered_except {w b : Word} (kind : q.kind = .except w b) (fixed : L.vectorFixed t q.read = true)
    (room : (L.thread t).frames.length < 16) (ok : vectorOk (laneEnv L title t q.read) ((L.thread t).vectorAddr 0) = true) :
    let y := ((L.thread t).atPoint q).pushed (L.entryEnv title t q) 0 w b none
    L.entered title t q = some (y.setVt (L.onGrid q.point y.vt), none) := by
  intro y
  have pushed : ((L.thread t).atPoint q).enter (L.entryEnv title t q) 0 w b none = y := Thread.enter_eq_pushed _ _ _ room ok
  simp only [Lane.entered, kind, fixed, if_true, ← pushed]
  rfl

/-- An interrupt entry in progress (R149). -/
theorem Lane.entered_interrupt {n p : Nat} (kind : q.kind = .interrupt) (fixed : L.readFixed t q.read = true)
    (source : L.entrySource t q.point q.cpu 0 = some (n, p)) (room : (L.thread t).frames.length < 16)
    (ok : vectorOk (laneEnv L title t q.read) ((L.thread t).vectorAddr (1 + n)) = true) :
    let y := ((L.thread t).atPoint q).pushed (L.entryEnv title t q) (1 + n) (interruptCause n p) 0 (some p)
    L.entered title t q = some (y.setVt (L.onGrid q.point y.vt), some n) := by
  intro y
  have pushed : ((L.thread t).atPoint q).enter (L.entryEnv title t q) (1 + n) (interruptCause n p) 0 (some p) = y :=
    Thread.enter_eq_pushed _ _ _ room ok
  simp only [Lane.entered, kind, fixed, source, if_true, ← pushed]
  rfl

/-- A return in progress that does not chain (R140). -/
theorem Lane.entered_ret (kind : q.kind = .ret) (fixed : L.eretFixed t q.point q.cpu = true) (alone : L.chains t q.point q.cpu = none) :
    let x := (L.thread t).atPoint q
    let y := (x.pop.jump (x.top (·.epc))).charge (L.entryEnv title t q) (jumpCost (x.top (·.epc)) 12 4)
    L.entered title t q = some (y.setVt (L.onGrid q.point y.vt), none) := by
  simp only [Lane.entered, kind, fixed, alone, if_true]
  rfl

/-- A return in progress that chains (R141). -/
theorem Lane.entered_chains {n p : Nat} (kind : q.kind = .ret) (fixed : L.eretFixed t q.point q.cpu = true)
    (chains : L.chains t q.point q.cpu = some (n, p))
    (ok : vectorOk (laneEnv L title t q.read) ((L.thread t).vectorAddr (1 + n)) = true) :
    let y := ((L.thread t).atPoint q).chained (L.entryEnv title t q) n p
    L.entered title t q = some (y.setVt (L.onGrid q.point y.vt), some n) := by
  intro y
  have chained : ((L.thread t).atPoint q).chain (L.entryEnv title t q) n p = y := Thread.chain_eq_chained _ _ _ _ ok
  simp only [Lane.entered, kind, fixed, chains, if_true, ← chained]
  rfl

end

/-- An interrupt of a system context: its number and its priority are those of its own controller. -/
theorem exec_interruptEntry_sys {s : State} {h : HalfId} {k z n q : Nat} (hc : (Ctx.sys h k z).ok = true)
    (active : (s.thread (.sys h k z)).active = true) (awake : (s.thread (.sys h k z)).waiting = false)
    (idle : (s.thread (.sys h k z)).loads = []) (plain : (s.thread (.sys h k z)).entering = none) (ie : (s.thread (.sys h k z)).ie = true)
    (low : (s.thread (.sys h k z)).level < 15) (room : (s.thread (.sys h k z)).frames.length < 16) (hn : n = Config.freeNat s.draw % 64)
    (hq : q = (s.thread (.sys h k z)).level + 1 + Config.freeNat s.draw / 64 % (15 - (s.thread (.sys h k z)).level)) :
    exec (.interruptEntry (.sys h k z)) s = .next (({ s with freeCtr := s.freeCtr + 1 } : State).putThread (.sys h k z)
      ((s.thread (.sys h k z)).pushed (s.env (.sys h k z)) (1 + n) (interruptCause n q) 0 (some q))) := by
  rw [← Thread.enter_eq_pushed (e := s.env (.sys h k z)) (n := 1 + n) (interruptCause n q) 0 (some q) room rfl, hq, hn]
  change execInterruptEntry (.sys h k z) s = _
  simp only [execInterruptEntry, ctxOk_eq_ok, hc, active, awake, idle, plain, ie, low]
  rfl

/-! What goes on where an entry or a return was in progress. -/

section
variable (L : Lane) (title : Bytes) (t : Nat) (q : Entering) (x : Thread)

/-- The thread once the entry begun at `q` is complete. -/
def Lane.completed (n : Nat) (k b : Word) (lvl : Option Nat) : Thread :=
  let y := (x.atPoint q).pushed (L.entryEnv title t q) n k b lvl
  y.setVt (L.onGrid q.point y.vt)

variable (n : Nat) (k b : Word) (lvl : Option Nat)

@[simp] theorem Lane.completed_trapped : (L.completed title t q x n k b lvl).trapped = x.trapped := Thread.pushed_trapped ..
theorem Lane.completed_entering : (L.completed title t q x n k b lvl).entering = none := Thread.pushed_entering ..
theorem Lane.completed_frames : (L.completed title t q x n k b lvl).frames =
    { epc := x.pc, estatus := x.status (laneEnv L title t q.read), cause := k, badaddr := b } :: x.frames := Thread.pushed_frames ..
theorem Lane.completed_pc : (L.completed title t q x n k b lvl).pc = entryPc ((laneEnv L title t q.read).vector (x.vectorAddr n)) :=
  Thread.pushed_pc ..
theorem Lane.completed_ie : (L.completed title t q x n k b lvl).ie = x.ie := Thread.pushed_ie ..
theorem Lane.completed_level : (L.completed title t q x n k b lvl).level = lvl.getD x.level := Thread.pushed_level ..
theorem Lane.completed_vt (det : L.det = true) : (L.completed title t q x n k b lvl).vt = L.onGrid q.point (q.point + 6 * q.cpu) := by
  have hdet : (L.entryEnv title t q).det = true := det
  rw [completed, Thread.setVt_vt, Thread.pushed_vt, if_pos hdet]
  rfl
theorem Lane.keepsRegs_completed (d : List Dest) : x.keepsRegs (L.completed title t q x n k b lvl) d :=
  ((x.atPoint q).keepsRegs_pushed _ _ _ _ _ (x.keepsRegs_atPoint q d)).trans (Thread.keepsRegs_setVt ..)

end

section
variable {s : State} {l t : Nat} {q : Entering} (hc : (Ctx.game l t).ok = true) (active : (s.thread (.game l t)).active = true)
  (entering : (s.thread (.game l t)).entering = some q) (runs : (s.lane l).phase = .running)
  (captured : (s.lane l).tm.boundary q.read ≤ (s.thread (.game l t)).capVt) (det : (s.lane l).det = true)
  (alive : (s.thread (.game l t)).trapped = false)
include hc active entering runs captured det alive

theorem prefetchFill_except {w b : Word} (kind : q.kind = .except w b) (fixed : (s.lane l).vectorFixed t q.read = true)
    (room : (s.thread (.game l t)).frames.length < 16)
    (ok : vectorOk (laneEnv (s.lane l) (s.title l) t q.read) ((s.thread (.game l t)).vectorAddr 0) = true) :
    let c := Ctx.game l t
    let x := s.thread c
    let e := laneEnv (s.lane l) (s.title l) t q.read
    ∃ y, exec (.prefetchFill c) s = .next (s.putThread c y) ∧ y.entering = none ∧
      y.frames = { epc := x.pc, estatus := x.status e, cause := w, badaddr := b } :: x.frames ∧
      y.pc = entryPc (e.vector (x.vectorAddr 0)) ∧ y.ie = x.ie ∧ y.level = x.level ∧
      y.vt = (s.lane l).onGrid q.point (q.point + 6 * q.cpu) ∧ x.keepsRegs y [] :=
  ⟨(s.lane l).completed (s.title l) t q (s.thread (.game l t)) 0 w b none,
    exec_prefetchFill_goOn hc active entering runs captured (Lane.entered_except kind fixed room ok) ((Lane.completed_trapped ..).trans alive),
    Lane.completed_entering .., Lane.completed_frames .., Lane.completed_pc .., Lane.completed_ie .., Lane.completed_level ..,
    Lane.completed_vt _ _ _ _ _ _ _ _ _ det, Lane.keepsRegs_completed ..⟩

theorem prefetchFill_interrupt {n p : Nat} (kind : q.kind = .interrupt) (fixed : (s.lane l).readFixed t q.read = true)
    (source : (s.lane l).entrySource t q.point q.cpu 0 = some (n, p)) (room : (s.thread (.game l t)).frames.length < 16)
    (ok : vectorOk (laneEnv (s.lane l) (s.title l) t q.read) ((s.thread (.game l t)).vectorAddr (1 + n)) = true) :
    let c := Ctx.game l t
    let x := s.thread c
    let e := laneEnv (s.lane l) (s.title l) t q.read
    ∃ y, exec (.prefetchFill c) s =
        .next ((s.putThread c y).putLane l (((s.putThread c y).lane l).acknowledge q.read n)) ∧ y.entering = none ∧
      y.frames = { epc := x.pc, estatus := x.status e, cause := interruptCause n p, badaddr := 0 } :: x.frames ∧
      y.pc = entryPc (e.vector (x.vectorAddr (1 + n))) ∧ y.ie = x.ie ∧ y.level = p ∧
      y.vt = (s.lane l).onGrid q.point (q.point + 6 * q.cpu) ∧ x.keepsRegs y [] :=
  ⟨(s.lane l).completed (s.title l) t q (s.thread (.game l t)) (1 + n) (interruptCause n p) 0 (some p),
    exec_prefetchFill_goOn hc active entering runs captured (Lane.entered_interrupt kind fixed source room ok) ((Lane.completed_trapped ..).trans alive),
    Lane.completed_entering .., Lane.completed_frames .., Lane.completed_pc .., Lane.completed_ie .., Lane.completed_level ..,
    Lane.completed_vt _ _ _ _ _ _ _ _ _ det, Lane.keepsRegs_completed ..⟩

theorem prefetchFill_ret {f : Frame} {fs : List Frame} (kind : q.kind = .ret) (fixed : (s.lane l).eretFixed t q.point q.cpu = true)
    (alone : (s.lane l).chains t q.point q.cpu = none) (hf : (s.thread (.game l t)).frames = f :: fs) :
    let c := Ctx.game l t
    let x := s.thread c
    ∃ y, exec (.prefetchFill c) s = .next (s.putThread c y) ∧ y.entering = none ∧ y.frames = fs ∧ y.pc = f.epc ∧ y.ie = bit f.estatus 0 ∧
      y.level = bits f.estatus 4 4 ∧ y.vt = (s.lane l).onGrid q.point (q.point + jumpCost f.epc 12 4 * q.cpu) ∧ x.keepsRegs y [] := by
  intro c x
  have hdet : ((s.lane l).entryEnv (s.title l) t q).det = true := det
  have top (g : Frame → Word) : (x.atPoint q).top g = g f := by
    have hf : (x.atPoint q).frames = f :: fs := hf
    rw [Thread.top, hf]
  refine ⟨_, exec_prefetchFill_goOn hc active entering runs captured (Lane.entered_ret kind fixed alone) ?_, ?_, ?_, ?_, ?_, ?_, ?_, ?_⟩
  · exact (Thread.charge_trapped ..).trans alive
  · exact Thread.charge_entering ..
  · exact (Thread.charge_frames ..).trans (congrArg (List.drop 1) hf)
  · exact (Thread.charge_pc ..).trans (top _)
  · exact (Thread.charge_ie ..).trans (congrArg (bit · 0) (top (·.estatus)))
  · exact (Thread.charge_level ..).trans (congrArg (bits · 4 4) (top (·.estatus)))
  · rw [Thread.setVt_vt, Thread.charge_vt, if_pos hdet]
    change (s.lane l).onGrid q.point (q.point + jumpCost ((x.atPoint q).top (·.epc)) 12 4 * q.cpu) = _
    rw [top]
  · exact ⟨fun r _ => Thread.gReg_charge .., fun r _ => Thread.fReg_charge ..⟩

theorem prefetchFill_chains {f : Frame} {fs : List Frame} {n p : Nat} (kind : q.kind = .ret)
    (fixed : (s.lane l).eretFixed t q.point q.cpu = true)
    (chains : (s.lane l).chains t q.point q.cpu = some (n, p)) (hf : (s.thread (.game l t)).frames = f :: fs)
    (ok : vectorOk (laneEnv (s.lane l) (s.title l) t q.read) ((s.thread (.game l t)).vectorAddr (1 + n)) = true) :
    let c := Ctx.game l t
    let x := s.thread c
    let e := laneEnv (s.lane l) (s.title l) t q.read
    ∃ y, exec (.prefetchFill c) s =
        .next ((s.putThread c y).putLane l (((s.putThread c y).lane l).acknowledge q.read n)) ∧ y.entering = none ∧
      y.frames = { f with cause := interruptCause n p } :: fs ∧ y.pc = entryPc (e.vector (x.vectorAddr (1 + n))) ∧ y.ie = x.ie ∧
      y.level = p ∧ y.vt = (s.lane l).onGrid q.point (q.point + 6 * q.cpu) ∧ x.keepsRegs y [] := by
  intro c x e
  have hdet : ((s.lane l).entryEnv (s.title l) t q).det = true := det
  refine ⟨_, exec_prefetchFill_goOn hc active entering runs captured (Lane.entered_chains kind fixed chains ok) ?_, ?_, ?_, ?_, ?_, ?_, ?_, ?_⟩
  · rw [Thread.setVt_trapped, Thread.chained_trapped]
    exact alive
  · rw [Thread.setVt_entering, Thread.chained_entering]
    rfl
  · rw [Thread.setVt_frames]
    exact Thread.chained_frames _ _ _ _ hf
  · rw [Thread.setVt_pc, Thread.chained_pc]
    rfl
  · rw [Thread.setVt_ie, Thread.chained_ie]
    rfl
  · rw [Thread.setVt_level, Thread.chained_level]
  · rw [Thread.setVt_vt, Thread.chained_vt, if_pos hdet]
    rfl
  · exact (x.keepsRegs_atPoint q []).trans ((Thread.keepsRegs_chained ..).trans (Thread.keepsRegs_setVt ..))

end

/-- Settles O10: entry, chained return and what is in progress, each by its equation above. -/
theorem interruptsTaken : Obligations.InterruptsTaken := by
  refine ⟨fun l t s p n q hc => ?entry, fun l t s p hc => ?begun, fun h k z s hc => ?sys,
    fun l t s f fs n p hc hi fixed hf chains ok alive => ?chained, fun l t s hc hi fixed hf => ?returning,
    fun l t s q hc active entering runs det captured alive => ?going⟩
  case entry =>
    intro L x c3 v active awake alive idle plain point runs can fixed source room ok u
    refine ⟨_, exec_interruptEntry_game hc active awake alive idle plain point runs can fixed source room ok, ?_⟩
    have others := Thread.keepsRegs_pushed (x.abandon p) { laneEnv L (s.title l) t v with cpu := c3 } (1 + n) (interruptCause n q) 0 (some q)
      (x.keepsRegs_abandon p [])
    refine ⟨?_, ?_, ?_, ?_, ?_, fun divides => ?_, others.trans (Thread.keepsRegs_setVt ..), ?_, ?_, ?_⟩
    case refine_1 =>
      simp only [Thread.setVt, Thread.pushed_vt, Thread.abandon_vt]
      rfl
    case refine_2 =>
      simp only [Thread.setVt, Thread.pushed_frames, Thread.frame, Thread.abandon_pc, Thread.abandon_frames, Thread.abandon_status]
      rfl
    case refine_5 =>
      simp only [Thread.setVt, Thread.pushed_pc, Thread.abandon_vectorAddr]
      rfl
    case refine_6 =>
      simp only [Thread.setVt, Thread.pushed_units]
      exact x.abandon_units p divides
    all_goals simp [Thread.setVt, x]
  case begun =>
    intro L x active awake idle plain point runs det can fixed undecided room
    refine ⟨((x.abandon p).begin (L.divCpu t) p 6 .interrupt).setVt (L.onGrid p (p + 6 * L.divCpu t)), ?_, rfl, ?_⟩
    · change execInterruptEntry (.game l t) s = _
      simp only [execInterruptEntry, ctxOk_eq_ok, hc, active, awake, idle, plain, point, runs, det, can, fixed, if_true, undecided, room, L, x]
      rfl
    · exact ⟨x.abandon_frames p, x.abandon_level p, x.abandon_ie p, x.abandon_pc p,
        (x.keepsRegs_abandon p []).trans ((Thread.keepsRegs_begin ..).trans (Thread.keepsRegs_setVt ..))⟩
  case sys =>
    intro x active awake idle plain ie low room
    obtain ⟨n, hn⟩ : ∃ n, n = Config.freeNat s.draw % 64 := ⟨_, rfl⟩
    obtain ⟨q, hq⟩ : ∃ q, q = x.level + 1 + Config.freeNat s.draw / 64 % (15 - x.level) := ⟨_, rfl⟩
    have bound : Config.freeNat s.draw / 64 % (15 - x.level) < 15 - x.level := Nat.mod_lt _ (by omega)
    refine ⟨_, n, q, exec_interruptEntry_sys hc active awake idle plain ie low room hn hq, by omega, by omega, by omega, ?_⟩
    rw [State.thread_putThread]
    exact ⟨Thread.pushed_frames .., Thread.pushed_level x (s.env (.sys h k z)) (1 + n) (interruptCause n q) 0 (some q),
      Thread.keepsRegs_pushed x _ _ _ _ _ ⟨fun _ _ => rfl, fun _ _ => rfl⟩⟩
  case chained =>
    intro x v
    refine ⟨_, exec_eret_chains hc hi fixed (hf ▸ List.cons_ne_nil f fs) chains ok alive, ?_⟩
    refine ⟨Thread.chained_frames _ _ _ _ (by simpa using hf), Thread.chained_level .., by simp [x], by simp [x],
      (x.keepsRegs_stampNow _ _).trans (Thread.keepsRegs_chained ..), Thread.charge_vt_of_stamped (by simp [Thread.mapTop_eq_modifyHead, x]) 6⟩
  case returning =>
    intro x
    exact ⟨_, exec_eret_begun hc hi fixed hf, rfl, rfl, rfl, rfl, rfl, fun _ _ => rfl, fun _ _ => rfl⟩
  case going =>
    intro c L x e z
    exact ⟨fun w b kind fixed room ok => prefetchFill_except hc active entering runs captured det alive kind fixed room ok,
      fun n p kind fixed source room ok => prefetchFill_interrupt hc active entering runs captured det alive kind fixed source room ok,
      fun f fs kind fixed alone hf => prefetchFill_ret hc active entering runs captured det alive kind fixed alone hf,
      fun f fs n p kind fixed chains hf ok => prefetchFill_chains hc active entering runs captured det alive kind fixed chains hf ok⟩

end Sys2Proof.Machine
end

section
/-! PROOFS. Waits and barriers (R47, R82, R93, R131; O11). -/
namespace Sys2Proof.Machine
open Sys2Proof

/-! The next instruction, with its charge: nothing else of the thread changes. -/

theorem Thread.keepsBut_next_charge (x : Thread) (e : CoreEnv) (n : Nat) (d : List Dest) :
    x.keepsBut (((x.stampNow e).next).charge e n) d := (x.keepsBut_stampNow e d).next.charge e n
theorem Thread.next_charge_vt (x : Thread) (e : CoreEnv) (n : Nat) : (((x.stampNow e).next).charge e n).vt = x.vtAfter e n :=
  charge_vt_of_stamped (by rfl) n

/-- The thread of an instruction that leaves it waiting, or not (R131). -/
def Thread.waits (e : CoreEnv) (now : Bool) (x : Thread) : Thread := ({ (x.stampNow e).next with waiting := !now }).charge e 1

section
variable (x : Thread) (e : CoreEnv) (now : Bool)
theorem Thread.waits_waiting : (x.waits e now).waiting = !now := charge_waiting ..
theorem Thread.waits_pc : (x.waits e now).pc = x.pc + 4 := by simp [waits]
theorem Thread.keepsBut_waits (d : List Dest) : x.keepsBut (x.waits e now) d :=
  have h : x.keepsBut { (x.stampNow e).next with waiting := !now } d := (x.keepsBut_stampNow e d).next
  h.charge e 1
end

section
variable {s : State} {c : Ctx} (hc : c.ok = true)
include hc

theorem exec_wait_game {l t : Nat} (e : c = .game l t) (hi : s.issues c .wait = true) :
    exec (.wait c) s = .next ((s.tookSlot c).putThread c ((s.thread c).waits (s.env c)
      (if (s.lane l).det then ((s.lane l).ahead ((s.lane l).issueVt t)).wakeAt t ((s.lane l).issueVt t)
        else (s.lane l).wakeAt t ((s.lane l).issueVt t)))) := by
  subst e
  change execWait (.game l t) s = _
  rw [execWait, State.issue_eq_next hc hi]
  rfl
theorem exec_wait_sys {h : HalfId} {k z : Nat} (e : c = .sys h k z) (hi : s.issues c .wait = true) :
    exec (.wait c) s = .next ((s.tookSlot c).putThread c ((s.thread c).waits (s.env c) false)) := by
  subst e
  change execWait (.sys h k z) s = _
  rw [execWait, State.issue_eq_next hc hi]
  rfl
theorem exec_mbar (hi : s.issues c .mbar = true) (sb : (s.thread c).sb = []) (loads : (s.thread c).loads = []) :
    exec (.mbar c) s = .next ((s.tookSlot c).putThread c ((((s.thread c).stampNow (s.env c)).next).charge (s.env c) 1)) := by
  change execMbar c s = _
  simp only [execMbar, sb, loads, List.isEmpty_nil, Bool.and_self, if_true, State.issue_eq_next hc hi]

/-- The thread of an ISYNC: the prefetch queue and the line buffer are empty (R82). -/
def Thread.resynced (e : CoreEnv) (x : Thread) : Thread := ({ (x.stampNow e).next with prefetch := [], lineBuf := none }).charge e 1

theorem exec_isync (hi : s.issues c .isync = true) (sb : (s.thread c).sb = []) :
    exec (.isync c) s = .next (((s.tookSlot c).putThread c ((s.thread c).resynced (s.env c))).dropCode c) := by
  change execIsync c s = _
  simp only [execIsync, sb, ctxOk_eq_ok, hc, hi]
  rfl

end

/-- No line of a lane's code is left in the instruction cache of its half (R82). -/
theorem State.icache_dropCode_game (s : State) (l t : Nat) : ∀ z ∈ ((s.dropCode (.game l t)).half (halfOf l)).icache, z.space ≠ laneSpace l := by
  simp only [State.dropCode, State.half_putHalf]
  intro z hz
  simpa using (List.mem_filter.1 hz).2
theorem State.icache_dropCode_sys (s : State) (h : HalfId) (k n : Nat) :
    ∀ z ∈ ((s.dropCode (.sys h k n)).half h).icache, z.core ≠ k ∨ z.space ≠ 0 := by
  simp only [State.dropCode, State.half_putHalf]
  intro z hz
  simpa using (List.mem_filter.1 hz).2

/-- Settles O11: a wait by what is pending, a barrier by what is outstanding. -/
theorem waitAndBarriers : Obligations.WaitAndBarriers := by
  refine ⟨fun l t s hc hi => ?game, fun h k z s hc hi => ?sys, fun h k z s hc active waiting => ?resumeSys,
    fun l t s hc active waiting det runs wakes => ?resume, fun l t w s hc active waiting det runs point fixed silent => ?resumeDet,
    fun c s hc hi sb loads => ?mbar, fun c s hc hi sb => ?isync⟩
  case game =>
    intro x L p
    obtain ⟨hregs, hsys, hwork, _⟩ := x.keepsBut_waits (s.env (.game l t)) (if L.det then (L.ahead p).wakeAt t p else L.wakeAt t p) []
    exact ⟨_, exec_wait_game hc rfl hi, Thread.waits_waiting .., Thread.waits_pc .., hregs, hsys, hwork⟩
  case sys =>
    intro x
    obtain ⟨hregs, hsys, hwork, _⟩ := x.keepsBut_waits (s.env (.sys h k z)) false []
    exact ⟨_, exec_wait_sys hc rfl hi, Thread.waits_waiting .., Thread.waits_pc .., hregs, hsys, hwork⟩
  case resumeSys =>
    change execWaitResume (.sys h k z) s = _
    simp only [execWaitResume, ctxOk_eq_ok, hc, active, waiting]
    rfl
  case resume =>
    change execWaitResume (.game l t) s = _
    simp only [execWaitResume, ctxOk_eq_ok, hc, active, waiting, det, runs, wakes]
    rfl
  case resumeDet =>
    change execWaitResume (.game l t) s = _
    simp only [execWaitResume, ctxOk_eq_ok, hc, active, waiting, det, runs, point, fixed, silent]
    rfl
  case mbar =>
    intro x
    obtain ⟨hregs, hsys, hwork, _⟩ := x.keepsBut_next_charge (s.env c) 1 []
    exact ⟨_, exec_mbar hc hi sb loads, by simp [x], hregs, hsys, hwork, x.next_charge_vt ..⟩
  case isync =>
    intro x
    have kept : x.keepsBut { (x.stampNow (s.env c)).next with prefetch := [], lineBuf := none } [] := (x.keepsBut_stampNow (s.env c) []).next
    obtain ⟨hregs, hsys, hwork, _⟩ := kept.charge (s.env c) 1
    refine ⟨x.resynced (s.env c), _, exec_isync hc hi sb, rfl, Thread.charge_prefetch .., Thread.charge_lineBuf .., ?_, hregs, hsys, hwork,
      Thread.charge_vt_of_stamped (by rfl) 1, fun l t e => ?_, fun h k n e => ?_⟩
    · simp [Thread.resynced, x]
    · subst e
      exact State.icache_dropCode_game _ l t
    · subst e
      exact State.icache_dropCode_sys _ h k n

end Sys2Proof.Machine
end

section
/-! PROOFS. Loads and their data (R29, R88, R89, R91, R95, R96; O12). -/
namespace Sys2Proof.Machine
open Sys2Proof

@[simp] theorem State.putHalf_half (s : State) (h : HalfId) : s.putHalf h (s.half h) = s := by cases h <;> rfl

/-! A load begun. -/

section
variable (x : Thread) (e : CoreEnv)

@[simp] theorem Thread.meets_stampNow (a n : Nat) : (x.stampNow e).meets a n = x.meets a n := by simp [meets]
@[simp] theorem Thread.forward_stampNow (a n : Nat) : (x.stampNow e).forward a n = x.forward a n := by simp [forward]
@[simp] theorem Thread.partly_stampNow (a n : Nat) : (x.stampNow e).partly a n = x.partly a n := by simp [partly]
@[simp] theorem Thread.loadWait_stampNow (beam : Bool) (a n : Nat) : (x.stampNow e).loadWait beam a n = x.loadWait beam a n := by
  simp [loadWait]

/-- The load outstanding of a thread at its turn. -/
def Thread.loadPend (fn : LoadFn) (rt : RegNo) (a : Nat) : LoadPend :=
  { dest := if loadIsF fn then .f rt else .g rt, fn := fn, addr := a, stamp := x.vtAfter e 0, beam := !e.sys && decide (windowOf a = .regs),
    sent := false, wait := x.loadWait (!e.sys && decide (windowOf a = .regs)) a (loadWidth fn),
    reply := if (!e.sys && decide (windowOf a = .regs)) || e.det then none else (x.forward a (loadWidth fn)).map leNat, split := none }

variable (fn : LoadFn) (rt : RegNo) (a : Nat)

theorem Thread.beginLoad_stampNow : (x.stampNow e).beginLoad e fn rt a =
    ({ (x.stampNow e).next with loads := x.loads ++ [x.loadPend e fn rt a] }).charge e (loadCost a) := by
  simp only [beginLoad, loadWait_stampNow, forward_stampNow, stampNow_loads, stampNow_vt_eq_vtAfter, loadPend]
theorem Thread.beginLoad_loads : ((x.stampNow e).beginLoad e fn rt a).loads = x.loads ++ [x.loadPend e fn rt a] := by
  rw [beginLoad_stampNow, charge_loads]
theorem Thread.keepsRegs_beginLoad : x.keepsRegs ((x.stampNow e).beginLoad e fn rt a) [] := by
  refine ⟨fun r _ => (gReg_charge ..).trans ?_, fun r _ => (fReg_charge ..).trans ?_⟩
  · exact gReg_stampNow e x r
  · exact fReg_stampNow e x r
theorem Thread.keepsSys_beginLoad : x.keepsSys ((x.stampNow e).beginLoad e fn rt a) := by simp [keepsSys, beginLoad_stampNow]
theorem Thread.beginLoad_others : ((x.stampNow e).beginLoad e fn rt a).sb = x.sb ∧ ((x.stampNow e).beginLoad e fn rt a).units = x.units ∧
    ((x.stampNow e).beginLoad e fn rt a).fcsr = x.fcsr ∧ ((x.stampNow e).beginLoad e fn rt a).pc = x.pc + 4 := by
  simp [beginLoad_stampNow]
theorem Thread.beginLoad_vt : ((x.stampNow e).beginLoad e fn rt a).vt = x.vtAfter e (loadCost a) := charge_vt_of_stamped (by rfl) _

end

/-! Its data, written to its destination (R70). -/

/-- The thread once load `k` has its value. -/
def Thread.loaded (x : Thread) (k : Nat) (d : Dest) (v : Word) : Thread := { x with loads := x.loads.eraseIdx k }.setDest d v

section
variable (x : Thread) (k : Nat) (d : Dest) (v : Word)
theorem Thread.loaded_loads : (x.loaded k d v).loads = x.loads.eraseIdx k := setDest_loads ..
theorem Thread.showsIn_loaded : (x.loaded k d v).showsIn d v := showsIn_setDest ..
theorem Thread.keepsRegs_loaded : x.keepsRegs (x.loaded k d v) [d] :=
  have same : x.keepsRegs { x with loads := x.loads.eraseIdx k } [d] := ⟨fun _ _ => rfl, fun _ _ => rfl⟩
  same.setDest (List.mem_singleton_self _) v
theorem Thread.keepsSys_loaded : x.keepsSys (x.loaded k d v) :=
  have same : x.keepsSys { x with loads := x.loads.eraseIdx k } := ⟨rfl, rfl, rfl, rfl, rfl⟩
  same.setDest d v
theorem Thread.loaded_pc : (x.loaded k d v).pc = x.pc := setDest_pc ..
theorem Thread.loaded_vt : (x.loaded k d v).vt = x.vt := setDest_vt ..
end

/-- What a system thread's access of `m` bytes at `a` reads, and the half with its caches. -/
def State.sysLoad (s : State) (h : HalfId) (k z a m : Nat) : Bytes × Half :=
  if Config.sysMisfit a m then (List.replicate m 0, s.half h) else (s.half h).cachedRead h k 0 a m (fun b => s.plainRead (.sys h k z) b 64)

theorem State.sysLoad_eq (s : State) (h : HalfId) (k z a m : Nat) :
    (if Config.sysMisfit a m then (List.replicate m 0, s)
      else (((s.half h).cachedRead h k 0 a m (fun b => s.plainRead (.sys h k z) b 64)).1,
        s.putHalf h ((s.half h).cachedRead h k 0 a m (fun b => s.plainRead (.sys h k z) b 64)).2)) =
      ((s.sysLoad h k z a m).1, s.putHalf h (s.sysLoad h k z a m).2) := by
  unfold sysLoad
  split
  · rw [State.putHalf_half]
  · rfl

section
variable {s : State} {h : HalfId} {k z n : Nat} {p : LoadPend} (hc : (Ctx.sys h k z).ok = true)
  (hp : (s.thread (.sys h k z)).loads[n]? = some p) (wait : p.wait = 0)
include hc hp wait

/-- A load that the store buffer answers. -/
theorem exec_loadDataReturn_forwarded {v : Nat} (reply : p.reply = some v) :
    exec (.loadDataReturn (.sys h k z) n) s = .next (s.putThread (.sys h k z) ((s.thread (.sys h k z)).loaded n p.dest (loadResult p.fn v))) := by
  change execLoadDataReturn (.sys h k z) n s = _
  simp only [execLoadDataReturn, ctxOk_eq_ok, hc, hp, wait, reply]
  rfl

/-- A load in one piece. -/
theorem exec_loadDataReturn_whole (reply : p.reply = none) (whole : p.addr % loadWidth p.fn = 0) :
    exec (.loadDataReturn (.sys h k z) n) s = .next ((s.putHalf h (s.sysLoad h k z p.addr (loadWidth p.fn)).2).putThread (.sys h k z)
      ((s.thread (.sys h k z)).loaded n p.dest (loadResult p.fn (leNat (s.sysLoad h k z p.addr (loadWidth p.fn)).1)))) := by
  change execLoadDataReturn (.sys h k z) n s = _
  simp only [execLoadDataReturn, ctxOk_eq_ok, hc, hp, wait, reply, splitAt, whole, State.sysLoad_eq]
  rfl

/-- The first half of a split load (R96). -/
theorem exec_loadDataReturn_first (reply : p.reply = none) (halves : p.addr % loadWidth p.fn ≠ 0) (first : p.split = none) :
    let r := s.sysLoad h k z p.addr (loadWidth p.fn - p.addr % loadWidth p.fn)
    exec (.loadDataReturn (.sys h k z) n) s = .next ((s.putHalf h r.2).putThread (.sys h k z)
      { s.thread (.sys h k z) with loads := (s.thread (.sys h k z)).loads.set n { p with split := some r.1 } }) := by
  change execLoadDataReturn (.sys h k z) n s = _
  simp only [execLoadDataReturn, ctxOk_eq_ok, hc, hp, wait, reply, splitAt, halves, first, State.sysLoad_eq]
  rfl

/-- Its second half. -/
theorem exec_loadDataReturn_second {b : Bytes} (reply : p.reply = none) (halves : p.addr % loadWidth p.fn ≠ 0) (first : p.split = some b) :
    let q := loadWidth p.fn - p.addr % loadWidth p.fn
    let r := s.sysLoad h k z ((p.addr + q) % 2 ^ 64) (loadWidth p.fn - q)
    exec (.loadDataReturn (.sys h k z) n) s = .next ((s.putHalf h r.2).putThread (.sys h k z)
      ((s.thread (.sys h k z)).loaded n p.dest (loadResult p.fn (leNat (b ++ r.1))))) := by
  change execLoadDataReturn (.sys h k z) n s = _
  simp only [execLoadDataReturn, ctxOk_eq_ok, hc, hp, wait, reply, splitAt, halves, first, State.sysLoad_eq]
  rfl

end

/-- Settles O12: a load begins, and its data comes from the reply, the store buffer or memory, once for each of its halves. -/
theorem loads : Obligations.Loads := by
  refine ⟨fun l t fn rt base off s hc hi => ?game, fun h k z fn rt base off s hc hi => ?sys, fun l t k p r s hc hp beam data => ?memory,
    fun l t k p v s hc hp beam reply => ?beam, fun h k z n p s hc hp wait => ?parts⟩
  case game =>
    intro c x a beam fault
    obtain ⟨hsb, hunits, hfcsr, hpc⟩ := x.beginLoad_others (s.env c) fn rt a.toNat
    refine ⟨(x.stampNow (s.env c)).beginLoad (s.env c) fn rt a.toNat, _, x.loadPend (s.env c) fn rt a.toNat, ?_, rfl,
      x.beginLoad_loads .., rfl, rfl, rfl, rfl, rfl, rfl, rfl, x.keepsRegs_beginLoad .., x.keepsSys_beginLoad .., hsb, hunits, hfcsr, hpc,
      x.beginLoad_vt ..⟩
    change execLoad c fn rt base off s = _
    simp only [execLoad, ctxOk_eq_ok, hc, hi, c, x, a] at fault ⊢
    simp only [fault]
    rfl
  case sys =>
    intro c x a fault
    obtain ⟨hsb, hunits, hfcsr, hpc⟩ := x.beginLoad_others (s.env c) fn rt a.toNat
    refine ⟨(x.stampNow (s.env c)).beginLoad (s.env c) fn rt a.toNat, x.loadPend (s.env c) fn rt a.toNat, ?_,
      x.beginLoad_loads .., rfl, rfl, rfl, rfl, rfl, x.keepsRegs_beginLoad .., x.keepsSys_beginLoad .., hsb, hunits, hfcsr, hpc⟩
    change execLoad c fn rt base off s = _
    simp only [execLoad, ctxOk_eq_ok, hc, hi, c, x, a] at fault ⊢
    simp only [fault]
    rfl
  case memory =>
    intro x
    refine ⟨x.loaded k p.dest (loadResult p.fn r.1), ?_, x.loaded_loads .., x.showsIn_loaded .., x.keepsRegs_loaded .., x.keepsSys_loaded ..,
      x.loaded_pc .., x.loaded_vt ..⟩
    change execLoadDataReturn (.game l t) k s = _
    simp only [execLoadDataReturn, ctxOk_eq_ok, hc, hp, beam, data]
    rfl
  case beam =>
    intro x u
    refine ⟨x.loaded k p.dest (loadResult p.fn v), ?_, x.loaded_loads .., x.showsIn_loaded .., x.keepsRegs_loaded .., x.keepsSys_loaded ..,
      x.loaded_pc .., x.loaded_vt ..⟩
    change execLoadDataReturn (.game l t) k s = _
    simp only [execLoadDataReturn, ctxOk_eq_ok, hc, hp, beam, reply]
    rfl
  case parts =>
    intro c x rd m q
    refine ⟨fun v reply => ?_, fun reply whole => ?_, fun reply halves first => ?_, fun b reply halves first => ?_⟩
    · exact ⟨_, exec_loadDataReturn_forwarded hc hp wait reply, x.loaded_loads .., rfl, x.keepsRegs_loaded .., x.keepsSys_loaded .., x.loaded_pc ..⟩
    · exact ⟨_, exec_loadDataReturn_whole hc hp wait reply whole, x.loaded_loads .., rfl, x.keepsRegs_loaded .., x.keepsSys_loaded .., x.loaded_pc ..⟩
    · exact exec_loadDataReturn_first hc hp wait reply halves first
    · exact ⟨_, exec_loadDataReturn_second hc hp wait reply halves first, x.loaded_loads .., rfl, x.keepsRegs_loaded .., x.keepsSys_loaded ..,
        x.loaded_pc ..⟩

end Sys2Proof.Machine
end

section
/-! PROOFS. Stores, the video gate, the prefetch queue and atomic operations (R79 to R84, R89, R90, R96, R122 to R124, R179, R180; O13, O14). -/
namespace Sys2Proof.Machine
open Sys2Proof

/-! A store buffered. -/

/-- The thread with entries added to its store buffer, ended where one of them writes its own EXIT (R66). -/
def Thread.buffered (e : CoreEnv) (es : List SbEntry) (exit : Bool) (x : Thread) : Thread :=
  let z := ({ (x.stampNow e).next with sb := x.sb ++ es }).charge e 1
  if exit then { z with active := false } else z

section
variable (x : Thread) (e : CoreEnv) (es : List SbEntry) (exit : Bool)

theorem Thread.buffered_eq : x.buffered e es exit =
    { ({ (x.stampNow e).next with sb := x.sb ++ es }).charge e 1 with active := x.active && !exit } := by
  have active : x.active = (({ (x.stampNow e).next with sb := x.sb ++ es } : Thread).charge e 1).active := by simp
  unfold buffered
  cases exit
  case false => rw [Bool.not_false, Bool.and_true, active]; rfl
  case true => rw [Bool.not_true, Bool.and_false]; rfl
theorem Thread.buffered_sb : (x.buffered e es exit).sb = x.sb ++ es := by simp [buffered_eq]
theorem Thread.keepsRegs_buffered : x.keepsRegs (x.buffered e es exit) [] := by simp [buffered_eq, keepsRegs, gReg, fReg]
theorem Thread.keepsSys_buffered : x.keepsSys (x.buffered e es exit) := by simp [buffered_eq, keepsSys]
theorem Thread.buffered_others : (x.buffered e es exit).loads = x.loads ∧ (x.buffered e es exit).units = x.units ∧
    (x.buffered e es exit).fcsr = x.fcsr ∧ (x.buffered e es exit).pc = x.pc + 4 := by simp [buffered_eq]
theorem Thread.buffered_vt : (x.buffered e es exit).vt = x.vtAfter e 1 := by
  rw [buffered_eq]
  exact charge_vt_of_stamped (by rfl) 1
theorem Thread.buffered_active : (x.buffered e es exit).active = (x.active && !exit) := by rw [buffered_eq]

end

/-- A store of a system thread leaves its bytes in memory, and the other half (R93). -/
theorem State.thread_putHalf_storeSys (s : State) (h : HalfId) (k a : Nat) (b : Bytes) (c : Ctx) (hc : ∃ k z, c = .sys h k z) :
    (s.putHalf h ((s.half h).storeSys k a b)).thread c = s.thread c := by
  obtain ⟨k, z, rfl⟩ := hc
  simp only [State.thread, State.half_putHalf]
  rfl
theorem State.sysMem_putHalf_storeSys (s : State) (h : HalfId) (k a : Nat) (b : Bytes) :
    ((s.putHalf h ((s.half h).storeSys k a b)).half h).sysMem = (s.half h).sysMem.writeBytes a b := by
  rw [State.half_putHalf]
  rfl
@[simp] theorem State.sysMem_putThread_sys (s : State) (h : HalfId) (k z : Nat) (x : Thread) :
    ((s.putThread (.sys h k z) x).half h).sysMem = (s.half h).sysMem := by
  rw [State.putThread, State.half_putHalf]

theorem exec_storeBufferDrain_sys {s : State} {h : HalfId} {k z : Nat} {e : SbEntry} {rest : List SbEntry} (hc : (Ctx.sys h k z).ok = true)
    (sb : (s.thread (.sys h k z)).sb = e :: rest) (read : (s.thread (.sys h k z)).unread e.addr e.data.length = false) :
    let u := s.putThread (.sys h k z) (s.thread (.sys h k z)).stored
    exec (.storeBufferDrain (.sys h k z)) s = .next (u.putHalf h ((u.half h).storeSys k e.addr e.data)) := by
  change execStoreBufferDrain (.sys h k z) s = _
  simp only [execStoreBufferDrain, ctxOk_eq_ok, hc, sb, read]
  rfl

/-- Settles O13: a store enters the buffer, its entry leaves for the window of its address, and a fill takes the next word of the code. -/
theorem storesAndPrefetch : Obligations.StoresAndPrefetch := by
  refine ⟨fun l t fn rt base off s hc hi => ?game, fun h k z fn rt base off s hc hi => ?sys, fun l t e rest A n s hc sb drains => ?drain,
    fun l t s hc sb => ?empty, fun h k z e rest s hc sb read => ?drainSys, fun l k s hl first left hold => ?gate,
    fun l t s hc active plain => ?fill, fun h k z s hc active room => ?fillSys⟩
  case game =>
    intro c x a data fault room
    obtain ⟨hloads, hunits, hfcsr, hpc⟩ := x.buffered_others (s.env c)
      [{ addr := a.toNat, data := data, stamp := x.vtAfter (s.env c) 0 }] (exitStore t a.toNat data)
    refine ⟨x.buffered (s.env c) [{ addr := a.toNat, data := data, stamp := x.vtAfter (s.env c) 0 }] (exitStore t a.toNat data), ?_,
      x.buffered_sb .., x.keepsRegs_buffered .., x.keepsSys_buffered .., hloads, hunits, hfcsr, hpc, x.buffered_vt .., x.buffered_active ..⟩
    have accepts : ¬ (windowOf a.toNat = .regs ∧ 64 ≤ (s.lane l).queue.length) := fun h => absurd (room h.1) (by omega)
    change execStore c fn rt base off s = _
    simp only [execStore, ctxOk_eq_ok, hc, hi, c, x, a] at fault accepts ⊢
    simp only [fault, if_neg accepts, Thread.stampNow_vt_eq_vtAfter, Thread.stampNow_sb]
    rfl
  case sys =>
    intro c x a data parts fault room
    let es := (parts.filter (fun p => !Config.sysMisfit (p.1 % 2 ^ 64) p.2)).map
      (fun p => ({ addr := p.1 % 2 ^ 64, data := slice data (p.1 - a.toNat) p.2, stamp := 0 } : SbEntry))
    obtain ⟨hloads, _, _, hpc⟩ := x.buffered_others (s.env c) es false
    refine ⟨x.buffered (s.env c) es false, ?_, x.buffered_sb .., x.keepsRegs_buffered .., x.keepsSys_buffered .., hloads, hpc⟩
    have accepts : ¬ 8 < x.sb.length + parts.length := by omega
    change execStore c fn rt base off s = _
    simp only [execStore, ctxOk_eq_ok, hc, hi, c, x, a, parts] at fault accepts ⊢
    simp only [fault, Thread.stampNow_sb, if_neg accepts]
    rfl
  case drain =>
    refine ⟨_, ?_, rfl⟩
    change execStoreBufferDrain (.game l t) s = _
    simp only [execStoreBufferDrain, ctxOk_eq_ok, hc, sb, drains]
    rfl
  case empty =>
    change execStoreBufferDrain (.game l t) s = _
    simp only [execStoreBufferDrain, ctxOk_eq_ok, hc, sb]
    rfl
  case drainSys =>
    refine ⟨_, exec_storeBufferDrain_sys hc sb read, ?_, ?_, ?_⟩
    · rw [State.thread_putHalf_storeSys _ _ _ _ _ _ ⟨k, z, rfl⟩, State.thread_putThread]
      exact congrArg (List.drop 1) sb
    · rw [State.sysMem_putHalf_storeSys, State.sysMem_putThread_sys]
    · rw [State.half_peer_putHalf, State.putThread, State.half_peer_putHalf]
  case gate =>
    refine ⟨(s.lane l).gateWrite k, ?_, rfl⟩
    change execVideoGateWrite l s = _
    have low : ¬ 256 ≤ l := by omega
    simp only [execVideoGateWrite, State.onLane, if_neg low, first, left, hold]
    rfl
  case fill =>
    intro c L x q a
    refine ⟨fun ⟨room, code, near⟩ => ?_, fun full => ?_, fun ⟨room, code, det, far⟩ => ?_⟩
    · have more : ¬ (4 ≤ q.length ∨ executable a L.titleLen = false) := by simp [room, code]
      have direct : (L.det || decide (windowOf a = .near)) = true := by simpa using near
      change execPrefetchFill c s = _
      simp only [execPrefetchFill, ctxOk_eq_ok, hc, active, plain, c, x, q, a, L] at more direct ⊢
      rw [if_neg more, if_pos direct]
      rfl
    · change execPrefetchFill c s = _
      simp only [execPrefetchFill, ctxOk_eq_ok, hc, active, plain, c, x, q, a, L] at full ⊢
      rw [if_pos full]
      rfl
    · have more : ¬ (4 ≤ q.length ∨ executable a L.titleLen = false) := by simp [room, code]
      have direct : ¬ (L.det || decide (windowOf a = .near)) = true := by simp [det, far]
      change execPrefetchFill c s = _
      simp only [execPrefetchFill, ctxOk_eq_ok, hc, active, plain, c, x, q, a, L] at more direct ⊢
      rw [if_neg more, if_neg direct]
      rfl
  case fillSys =>
    intro c x a r
    have more : ¬ 4 ≤ x.prefetch.length := Nat.not_le.2 room
    change execPrefetchFill c s = _
    simp only [execPrefetchFill, ctxOk_eq_ok, hc, active, c, x] at more ⊢
    rw [if_neg more]
    rfl

/-! Atomic operations (R122 to R124). -/

/-- What an AMO stores, with the stamp and rank that order it. -/
def Lane.amoStore (L : Lane) (t v a n old : Nat) (fn : AmoFn) (b c : Word) : LogStore :=
  { stamp := v, rank := t + 1, addr := a, data := amoBytes fn n old b c, gated := L.det && decide (windowOf a = .video) }
/-- What it reads, once it has its turn. -/
def State.amoReads (s : State) (l t v a n : Nat) : Nat :=
  leNat (if (s.lane l).det then (s.lane l).viewAt (s.title l) v (t + 1) a n else s.plainRead (.game l t) a n)
/-- Its width (R122). -/
def amoWidth (w32 : Bool) : Nat := if w32 then 4 else 8

theorem amoOld_width (w32 : Bool) (old : Nat) : amoOld (amoWidth w32) old = if w32 then sextN 32 old else w64 old := by
  cases w32 <;> rfl

section
variable {s : State} {l t : Nat} {fn : AmoFn} {w32 : Bool} {rd ra rb rc : RegNo} (hc : (Ctx.game l t).ok = true)
  (hi : s.issues (.game l t) (.amo fn w32 rd ra rb rc) = true)
  (fault : amoFault false ((s.thread (.game l t)).gReg ra) (amoWidth w32) = none) (sb : (s.thread (.game l t)).sb = [])
  (turn : (s.lane l).amoTurn t = true)
  (hold : (s.lane l).ckptHold ((s.thread (.game l t)).vtAfter (s.env (.game l t)) 0) ((s.thread (.game l t)).gReg ra).toNat (amoWidth w32) = false)
  (read : (s.lane l).det = false → (s.thread (.game l t)).unread ((s.thread (.game l t)).gReg ra).toNat (amoWidth w32) = false)
include hc hi fault sb turn hold read

theorem exec_amo_game :
    let x := s.thread (.game l t)
    let v := x.vtAfter (s.env (.game l t)) 0
    let old := s.amoReads l t v (x.gReg ra).toNat (amoWidth w32)
    let y := x.result (s.env (.game l t)) rd (amoOld (amoWidth w32) old) (amoCost (x.gReg ra).toNat)
    let st := (s.lane l).amoStore t v (x.gReg ra).toNat (amoWidth w32) old fn (x.gReg rb) (x.gReg rc)
    exec (.amo (.game l t) fn w32 rd ra rb rc) s =
      if st.gated then
        if (s.lane l).gateTakes st then .next ((s.tookSlot (.game l t)).putLane l (((s.lane l).gated st).setThread t y)) else .next s
      else
        let r := ((s.lane l).setThread t y).land st
        .next ((((s.tookSlot (.game l t)).putLane l r.1).storeThrough l (x.gReg ra).toNat st.data).ckptLost l r.2) := by
  intro x v old y st
  have unread : (!(s.lane l).det && (x.stampNow (s.env (.game l t))).unread (x.gReg ra).toNat (amoWidth w32)) = false := by
    have loads : (x.stampNow (s.env (.game l t))).unread (x.gReg ra).toNat (amoWidth w32) = x.unread (x.gReg ra).toNat (amoWidth w32) := by
      simp [Thread.unread]
    rw [loads]
    cases det : (s.lane l).det with
    | false => rw [read det]; rfl
    | true => rfl
  have goes : (!(x.stampNow (s.env (.game l t))).sb.isEmpty || !(s.lane l).amoTurn t ||
      (s.lane l).ckptHold v (x.gReg ra).toNat (amoWidth w32) ||
      (!(s.lane l).det && (x.stampNow (s.env (.game l t))).unread (x.gReg ra).toNat (amoWidth w32))) = false := by
    rw [unread, Thread.stampNow_sb, sb, turn, hold]
    rfl
  change execAmo (.game l t) fn w32 rd ra rb rc s = _
  simp only [execAmo, ctxOk_eq_ok, hc, hi]
  simp only [x, v, amoWidth] at fault goes
  simp only [fault, Thread.stampNow_vt_eq_vtAfter, Thread.gReg_stampNow, goes]
  rfl

end

theorem exec_amo_sys {s : State} {h : HalfId} {k z : Nat} {fn : AmoFn} {w32 : Bool} {rd ra rb rc : RegNo} (hc : (Ctx.sys h k z).ok = true)
    (hi : s.issues (.sys h k z) (.amo fn w32 rd ra rb rc) = true)
    (fault : amoFault true ((s.thread (.sys h k z)).gReg ra) (amoWidth w32) = none) (sb : (s.thread (.sys h k z)).sb = [])
    (read : (s.thread (.sys h k z)).unread ((s.thread (.sys h k z)).gReg ra).toNat (amoWidth w32) = false) :
    let x := s.thread (.sys h k z)
    let a := (x.gReg ra).toNat
    let old := if Config.sysMisfit a (amoWidth w32) then 0 else leNat (s.plainRead (.sys h k z) a (amoWidth w32))
    let u := (s.tookSlot (.sys h k z)).putThread (.sys h k z) (x.result (s.env (.sys h k z)) rd (amoOld (amoWidth w32) old) 1)
    exec (.amo (.sys h k z) fn w32 rd ra rb rc) s =
      if Config.sysMisfit a (amoWidth w32) then .next u
      else .next (u.putHalf h ((u.half h).storeSys k a (amoBytes fn (amoWidth w32) old (x.gReg rb) (x.gReg rc)))) := by
  intro x a old u
  have goes : (!(x.stampNow (s.env (.sys h k z))).sb.isEmpty || (x.stampNow (s.env (.sys h k z))).unread a (amoWidth w32)) = false := by
    have loads : (x.stampNow (s.env (.sys h k z))).unread a (amoWidth w32) = x.unread a (amoWidth w32) := by simp [Thread.unread]
    rw [loads, read, Thread.stampNow_sb, sb]
    rfl
  change execAmo (.sys h k z) fn w32 rd ra rb rc s = _
  simp only [execAmo, ctxOk_eq_ok, hc, hi]
  simp only [x, a, amoWidth] at fault goes
  simp only [fault, Thread.gReg_stampNow, goes]
  rfl

/-- Settles O14: the old value is a result in rd, and the new one a store at the same address. -/
theorem atomicOperations : Obligations.AtomicOperations := by
  refine ⟨fun l t fn w32 rd ra rb rc s hc hi => ?game, fun h k z fn w32 rd ra rb rc s hc hi => ?sys⟩
  case game =>
    intro c x L a n v old new st fault sb turn hold read takes
    obtain ⟨hregs, hsys, _⟩ := x.keepsBut_result (s.env c) rd (amoOld (amoWidth w32) old) (amoCost a.toNat)
    have eq := exec_amo_game hc hi fault sb turn hold read
    refine ⟨x.result (s.env c) rd (amoOld (amoWidth w32) old) (amoCost a.toNat), fun gated => ?_, fun direct => ?_, ?_, hregs, hsys,
      x.result_pc .., x.result_vt ..⟩
    · exact eq.trans ((if_pos gated).trans (if_pos (takes gated)))
    · exact eq.trans (if_neg (by rw [Bool.not_eq_true]; exact direct))
    · rw [Thread.gReg_result_same, amoOld_width]
  case sys =>
    intro c x a n misfit old fault sb read
    let y := x.result (s.env c) rd (amoOld (amoWidth w32) old) 1
    have eq := exec_amo_sys hc hi fault sb read
    have shown : y.gReg rd = written rd (if w32 then sextN 32 old else w64 old) := by rw [Thread.gReg_result_same, amoOld_width]
    obtain ⟨hregs, _⟩ := x.keepsBut_result (s.env c) rd (amoOld (amoWidth w32) old) 1
    by_cases fits : misfit = true
    · refine ⟨_, eq.trans (if_pos fits), ?_⟩
      rw [State.thread_putThread, State.sysMem_putThread_sys, State.sysMem_tookSlot, if_pos fits]
      exact ⟨shown, hregs, x.result_pc .., rfl⟩
    · refine ⟨_, eq.trans (if_neg fits), ?_⟩
      rw [State.thread_putHalf_storeSys _ _ _ _ _ _ ⟨k, z, rfl⟩, State.thread_putThread, State.sysMem_putHalf_storeSys,
        State.sysMem_putThread_sys, State.sysMem_tookSlot, if_neg fits]
      exact ⟨shown, hregs, x.result_pc .., rfl⟩

end Sys2Proof.Machine
end

section
/-! PROOFS. The beam of a lane: its writes, reads and milestones (R36, R42 to R44, R54, R99; O15). -/
namespace Sys2Proof.Machine
open Sys2Proof

/-- What each step of a fold keeps, the fold keeps. -/
theorem foldl_keeps {α β γ : Type} (p : β → γ) {f : β → α → β} (h : ∀ b a, p (f b a) = p b) (l : List α) (b : β) : p (l.foldl f b) = p b := by
  induction l generalizing b with
  | nil => rfl
  | cons a l ih => exact (ih (f b a)).trans (h b a)

/-- Work on a lane that comes about. -/
theorem State.onLane_eq {s : State} {l n : Nat} {f : Lane → Option (Lane × Nat)} {L : Lane} (hl : l < 256) (h : f (s.lane l) = some (L, n)) :
    s.onLane l f = .next ((s.putLane l L).ckptLost l n) := by
  simp only [State.onLane, if_neg (Nat.not_le.2 hl), h]

/-- Work that loses no checkpoint. -/
theorem State.onLane_next {s : State} {l : Nat} {f : Lane → Option (Lane × Nat)} {L : Lane} (hl : l < 256) (h : f (s.lane l) = some (L, 0)) :
    s.onLane l f = .next (s.putLane l L) := State.onLane_eq hl h

/-- What the beam's own work on a milestone leaves of its lane: memory, threads, store log and its place. -/
def Lane.place (L : Lane) : Nat × Nat × Mem × Sparse Thread × List LogStore := (L.bvt, L.mil, L.mem, L.th, L.log)

theorem Lane.place_markRegion (L : Lane) (j v : Nat) : (L.markRegion j v).place = L.place := rfl
theorem Lane.place_raiseBeam (L : Lane) (n d : Nat) : (L.raiseBeam n d).place = L.place := rfl
theorem Lane.place_raiseAt (L : Lane) (n e : Nat) : (L.raiseAt n e).place = L.place := rfl

/-- The beam's arrival (R36, R43). -/
theorem Lane.place_arrive (L : Lane) : L.arrive.place = (L.nextMil, L.mil + 1, L.mem, L.th, L.log) := by
  unfold arrive
  dsimp only
  split
  · exact foldl_keeps Lane.place (fun L _ => L.place_markRegion ..) _ _
  · refine (foldl_keeps Lane.place (fun L _ => L.place_raiseBeam 30 _) _ _).trans ?_
    exact foldl_keeps Lane.place (fun L _ => L.place_markRegion ..) _ _

/-- The events of a milestone fixed (R99). -/
theorem Lane.place_project (L : Lane) (k : Nat) : (L.project k).place = L.place := by
  unfold project
  exact foldl_keeps Lane.place (fun L _ => L.place_raiseAt ..) _ _
theorem Lane.milestones_raiseAt (L : Lane) (n e : Nat) : (L.raiseAt n e).unit.lic.milestones = L.unit.lic.milestones := by
  simp only [raiseAt, Lic.raise]
  split <;> rfl
theorem Lane.milestones_project (L : Lane) (k : Nat) : (L.project k).unit.lic.milestones = k + 1 := by
  unfold project
  exact foldl_keeps (fun L : Lane => L.unit.lic.milestones) (fun L _ => L.milestones_raiseAt ..) _ _

/-- Settles O15: each is the work on its lane that comes about. -/
theorem beamProgress : Obligations.BeamProgress := by
  refine ⟨fun l p s hl late => ?late, fun l p s hl late front write serves => ?write, fun l t p s hl ht front read thread serves => ?read,
    fun L e read full => ?full, fun l s hl arrives line => ?arrive, fun l k s hl arrives milestones within can => ?project⟩
  case late =>
    change execBeamWriteApply l s = _
    exact State.onLane_next hl (by simp only [Lane.nextWrite, late, Option.map_some])
  case write =>
    change execBeamWriteApply l s = _
    exact State.onLane_next hl (by simp [Lane.nextWrite, late, front, write, serves])
  case read =>
    change execStampedReadRelease l t s = _
    exact State.onLane_next hl (by simp [front, read, thread, serves])
  case full =>
    simp [Lane.canServe, read, Nat.not_lt.mpr full]
  case arrive =>
    have place := (s.lane l).place_arrive
    simp only [Lane.place, Prod.mk.injEq] at place
    obtain ⟨hbvt, hmil, hmem, hth, hlog⟩ := place
    refine ⟨(s.lane l).arrive, ?_, hbvt, hmil, hmem, hth, hlog⟩
    change execMilestone l s = _
    exact State.onLane_next hl (by simp [arrives, line])
  case project =>
    have place := (s.lane l).place_project k
    simp only [Lane.place, Prod.mk.injEq] at place
    obtain ⟨hbvt, hmil, hmem, hth, _⟩ := place
    refine ⟨(s.lane l).project k, ?_, (s.lane l).milestones_project k, hbvt, hmil, hmem, hth⟩
    have due : (if (s.lane l).det then decide ((s.lane l).tm.milVt k < (s.lane l).frameEnd) else decide ((s.lane l).tm.milVt k ≤ (s.lane l).bvt)) =
        true := by
      cases det : (s.lane l).det <;> simpa [det] using within
    change execMilestone l s = _
    exact State.onLane_next hl (by simp [arrives, Lane.lookAhead, milestones, due, can])

end Sys2Proof.Machine
end

section
/-! PROOFS. Fields of a register, and frame boundaries, late frames and holds (R36, R53, R56 to R59, R66, R377; O16). -/
namespace Sys2Proof.Machine
open Sys2Proof

/-! Fields of a word. -/

theorem testBit_bits (x : Word) (lo n i : Nat) : (bits x lo n).testBit i = (decide (i < n) && x.getLsbD (lo + i)) := by
  simp [bits, Nat.testBit_mod_two_pow, Nat.testBit_shiftRight, BitVec.testBit_toNat]
theorem getLsbD_mask (lo n i : Nat) : (mask lo n).getLsbD i = (decide (i < 64) && (decide (lo ≤ i) && decide (i - lo < n))) := by
  simp [mask, BitVec.getLsbD_ofNat, Nat.testBit_shiftLeft, Nat.testBit_two_pow_sub_one]
theorem getLsbD_putBits (x : Word) (lo n v i : Nat) (hi : i < 64) :
    (putBits x lo n v).getLsbD i = if lo ≤ i ∧ i - lo < n then v.testBit (i - lo) else x.getLsbD i := by
  simp only [putBits, BitVec.getLsbD_or, BitVec.getLsbD_and, BitVec.getLsbD_not, getLsbD_mask, BitVec.getLsbD_ofNat, Nat.testBit_shiftLeft,
    Nat.testBit_mod_two_pow, hi, decide_true, Bool.true_and]
  by_cases h1 : lo ≤ i <;> by_cases h2 : i - lo < n <;> simp [h1, h2]

/-- A field reads what it was given. -/
theorem bits_putBits_same (x : Word) {lo n : Nat} (v : Nat) (h : lo + n ≤ 64) : bits (putBits x lo n v) lo n = v % 2 ^ n := by
  refine Nat.eq_of_testBit_eq fun i => ?_
  rw [testBit_bits, Nat.testBit_mod_two_pow]
  by_cases hi : i < n
  · rw [getLsbD_putBits _ _ _ _ _ (by omega), if_pos ⟨by omega, by omega⟩, Nat.add_sub_cancel_left]
  · simp [hi]
/-- Another field keeps its value. -/
theorem bits_putBits_other (x : Word) {lo n a m : Nat} (v : Nat) (h : a + m ≤ 64) (d : a + m ≤ lo ∨ lo + n ≤ a) :
    bits (putBits x lo n v) a m = bits x a m := by
  refine Nat.eq_of_testBit_eq fun i => ?_
  rw [testBit_bits, testBit_bits]
  by_cases hi : i < m
  · rw [getLsbD_putBits _ _ _ _ _ (by omega), if_neg (by omega)]
  · simp [hi]
theorem satBits_mod (n v : Nat) : satBits n v % 2 ^ n = satBits n v :=
  Nat.mod_eq_of_lt (by have := Nat.two_pow_pos n; unfold satBits; omega)

theorem LaneUnit.reg_setReg_same (u : LaneUnit) (off : Nat) (v : Word) : (u.setReg off v).reg off = v := Sparse.get_set_same ..

/-! The end of a hold, and a frame marked late (R53, R57, R58, R66). -/

theorem Lane.endHold_last (L : Lane) (time : Nat) :
    bits ((L.endHold time).unit.reg 0x34028) 32 32 = satBits 32 ((time - L.holdAt) / 40) := by
  rw [endHold, LaneUnit.reg_setReg_same, bits_putBits_same _ _ (by decide), satBits_mod]
theorem Lane.markLate_count (L : Lane) (v : Nat) :
    bits ((L.markLate v).unit.reg 0x34028) 8 24 = min (bits (L.unit.reg 0x34028) 8 24 + 1) (2 ^ 24 - 1) := by
  rw [markLate, countLate, LaneUnit.reg_setReg_same, bits_putBits_same _ _ (by decide), satBits_mod]
  rfl

/-! The tailrace pass keeps the time at which a hold began. -/

theorem Lane.holdAt_keepCleared (L : Lane) (r : Ras) (e : BeamEntry) : (L.keepCleared r e).holdAt = L.holdAt := by
  unfold keepCleared
  split <;> rfl
theorem Lane.holdAt_raiseBeam (L : Lane) (n d : Nat) : (L.raiseBeam n d).holdAt = L.holdAt := rfl
theorem Lane.holdAt_tailWrites (L : Lane) (r : Ras) (due : BeamEntry → Bool) : (L.tailWrites r due).1.holdAt = L.holdAt := by
  unfold tailWrites
  refine foldl_keeps (fun a : Lane × Ras => a.1.holdAt) (fun a e => ?_) _ _
  dsimp only
  split
  · exact (holdAt_raiseBeam ..).trans (holdAt_keepCleared ..)
  · exact holdAt_keepCleared ..
theorem Lane.holdAt_tailMilestone (L : Lane) (r : Ras) (k : Nat) : (L.tailMilestone r k).1.holdAt = L.holdAt := by
  unfold tailMilestone
  exact (foldl_keeps Lane.holdAt (fun A _ => A.holdAt_raiseBeam 30 _) _ _).trans (L.holdAt_tailWrites _ _)
theorem Lane.holdAt_syncTail (L : Lane) (v : Nat) : (L.syncTail v).holdAt = L.holdAt := by
  unfold syncTail syncTailBy
  split
  · rfl
  · split
    · rfl
    · exact (holdAt_tailWrites ..).trans (foldl_keeps (fun a : Lane × Ras => a.1.holdAt) (fun a _ => a.1.holdAt_tailMilestone ..) _ _)

theorem Lane.copyBack_hold (L : Lane) (f time : Nat) : (L.copyBack f time).hold = .none ∧
    bits ((L.copyBack f time).unit.reg 0x34028) 32 32 = satBits 32 ((time - L.holdAt) / 40) := by
  rw [← L.holdAt_syncTail (f - 1)]
  unfold copyBack
  dsimp only
  split
  · exact ⟨rfl, endHold_last ..⟩
  · exact ⟨rfl, endHold_last ..⟩

@[simp] theorem State.lane_lifeAdd (s : State) (h : HalfId) (off n k l : Nat) : (s.lifeAdd h off n k).lane l = s.lane l := by
  simp only [State.lane, State.lifeAdd]
  cases h <;> cases halfOf l <;> rfl

/-- Settles O16: boundaries and holds are work on their lane, with the marks and the counts that go with them. -/
theorem framesAndHolds : Obligations.FramesAndHolds := by
  refine ⟨fun l tm s hl ends free early plain => ?boundary, fun l tm s hl runs relock => ?relock, fun l tm s hl ends free late => ?vblank,
    fun l v s hl turns => ?late, fun l v w tm s hl => ?slack, fun l tm s hl hold floor => ?slackEnd,
    fun l tm r s hl tail runs at_ reached => ?copying, fun l tm r s hl tail runs ended => ?copied,
    fun l tm s hl runs counted long waits => ?fault⟩
  case boundary =>
    have low : ¬ 256 ≤ l := by omega
    refine ⟨fun stays => ?_, fun retimes => ?_⟩
    · change execFrameBoundary l tm s = _
      simp [execFrameBoundary, low, State.lane_at, free, ends, early, plain, stays]
    · change execFrameBoundary l tm s = _
      simp [execFrameBoundary, low, State.lane_at, free, ends, early, plain, retimes]
  case relock =>
    have low : ¬ 256 ≤ l := by omega
    change execFrameBoundary l tm s = _
    simp [execFrameBoundary, low, State.lane_at, runs, relock]
  case vblank =>
    have low : ¬ 256 ≤ l := by omega
    change execFrameBoundary l tm s = _
    simp [execFrameBoundary, low, State.lane_at, free, ends, late]
  case late =>
    have low : ¬ 256 ≤ l := by omega
    refine ⟨(s.putLane l ((s.lane l).markLate v)).lifeAdd (halfOf l) 0x48 8 1, ?_, ?_⟩
    · change execFrameLate l v s = _
      simp [execFrameLate, low, turns]
    · rw [State.lane_lifeAdd, State.lane_putLane, State.lifeAdd, State.half_peer_putHalf, State.putLane, State.half_peer_putHalf]
      exact ⟨rfl, rfl, rfl, rfl, rfl, (s.lane l).markLate_count v, rfl, rfl, rfl⟩
  case slack =>
    intro L det runs late free fewer lowest lags behind within
    change execSlackHold l v tm s = _
    refine State.onLane_next hl ?_
    simp only [L, State.lane_at] at *
    simp [det, runs, late, free, fewer, lowest, lags, behind, within]
  case slackEnd =>
    refine ⟨(s.lane l).endHold (s.at tm).time, ?_, rfl, rfl, rfl, rfl, rfl⟩
    change execSlackHoldEnd l tm s = _
    exact State.onLane_next hl (by simp [State.lane_at, hold, floor])
  case copying =>
    have notOver : (s.lane l).holdOver (s.lane l).nextMil (s.at tm).time r = false := by simp [Lane.holdOver, at_]
    change execVblankHoldEnd l tm s = _
    unfold execVblankHoldEnd
    exact State.onLane_next hl (by simp [State.lane_at, tail, runs, notOver, at_, reached])
  case copied =>
    refine ⟨?_, Lane.copyBack_hold ..⟩
    change execVblankHoldEnd l tm s = _
    unfold execVblankHoldEnd
    exact State.onLane_next hl (by simp [State.lane_at, tail, runs, ended])
  case fault =>
    have low : ¬ 256 ≤ l := by omega
    have none : (s.half (halfOf l)).sp.later.any
        (fun x => match x.2 with | .fault f => decide (f.cls = 3) && decide (f.lane = some l) | .hbm .. => false) = false := by
      rw [List.any_eq_false]
      intro x hx
      cases e : x.2 with
      | fault f => simpa using waits x hx f e
      | hbm => simp
    change execHoldFault l tm s = _
    simp only [execHoldFault, if_neg low, State.lane_at, State.half_at]
    rw [if_pos ⟨runs, counted, long, none⟩]

end Sys2Proof.Machine
end

section
/-! PROOFS. Starts and ends of threads (R51, R66; O17). -/
namespace Sys2Proof.Machine
open Sys2Proof

/-- The effect that waits first comes when it is due (R51). -/
theorem exec_crossThreadEffect {s : State} {l : Nat} {c : CrossEffect} {rest : List CrossEffect} (hl : l < 256)
    (first : (s.lane l).cross = c :: rest) (runs : (s.lane l).phase = .running) (due : (s.lane l).CrossDue c) :
    exec (.crossThreadEffect l) s = .next (s.putLane l (({ s.lane l with cross := rest } : Lane).crossEffect c)) := by
  change execCrossThreadEffect l s = _
  unfold execCrossThreadEffect
  refine State.onLane_next hl ?_
  unfold Lane.CrossDue at due
  cases det : (s.lane l).det with
  | true =>
    rw [det, if_pos rfl] at due
    simp only [first, runs, decide_true, Bool.true_and, due.1, due.2, det, if_true]
  | false =>
    rw [det, if_neg Bool.false_ne_true] at due
    simp only [first, runs, decide_true, Bool.true_and, due, det, Bool.false_eq_true, if_false, if_true]

theorem Lane.crossEffect_start {L : Lane} {c : CrossEffect} {k : Nat} (start : c.start = some k) (source : c.source = none)
    (admitted : (L.thread k).admitted = true) (idle : (L.thread k).active = false) : L.crossEffect c = L.startThread k (L.milVt c.mil) := by
  simp only [crossEffect, start, source, admitted, idle, Bool.not_false, Bool.and_self, if_true]
theorem Lane.crossEffect_source {L : Lane} {c : CrossEffect} {n : Nat} (start : c.start = none) (source : c.source = some n) :
    L.crossEffect c = L.raiseAt n (L.milVt c.mil) := by
  simp only [crossEffect, start, source]

/-- A thread started anew (R105, R66). -/
theorem Lane.thread_startThread (L : Lane) (k m : Nat) :
    ((L.startThread k m).thread k).active = true ∧
      ((L.startThread k m).thread k).pc = w64 (bits (L.unit.reg (0x34080 + 8 * k)) 2 38 * 4) ∧
      ((L.startThread k m).thread k).sb = (L.thread k).sb ∧ ((L.startThread k m).thread k).vt = roundUp m L.cpu ∧
      ∀ r, ((L.startThread k m).thread k).gReg r = 0 := by
  rw [startThread, thread_setThread]
  refine ⟨rfl, rfl, rfl, rfl, fun r => ?_⟩
  unfold Thread.gReg
  split <;> rfl

/-- A write of LSYS_THR_CTL that the queue does not hold acts by itself. -/
theorem Lane.viaQueue_plain {L : Lane} (on : L.phase ≠ .stopped) (empty : L.queue = []) (p : BeamEntry → Bool) (plain : Lane → Lane) :
    L.viaQueue p plain = some (plain L, 0) := by
  simp [viaQueue, on, empty]

/-- Settles O17: a start waits for its milestone and then begins a thread anew; an EXIT ends its own thread. -/
theorem threadControl : Obligations.ThreadControl := by
  refine ⟨fun l c rest k s hl first runs due start source admitted idle => ?start, fun l c rest n s hl first runs due start source => ?source,
    fun l w t stamp s hl hw ht on empty other => ?ask, fun l t stamp s hl pos ht on empty => ?exit, fun l stamp s hl on empty => ?zero⟩
  case start =>
    refine ⟨({ s.lane l with cross := rest } : Lane).startThread k ((s.lane l).milVt c.mil), ?_, rfl, ?_⟩
    · exact (exec_crossThreadEffect hl first runs due).trans (congrArg (fun A => Host.Outcome.next (s.putLane l A))
        (Lane.crossEffect_start start source admitted idle))
    · obtain ⟨active, pc, sb, vt, regs⟩ := ({ s.lane l with cross := rest } : Lane).thread_startThread k ((s.lane l).milVt c.mil)
      exact ⟨active, pc, sb, vt, regs, fun u hu => Lane.thread_setThread_other _ _ _ _ hu⟩
  case source =>
    exact ⟨_, (exec_crossThreadEffect hl first runs due).trans (congrArg (fun A => Host.Outcome.next (s.putLane l A))
      (Lane.crossEffect_source start source)), rfl, rfl, rfl⟩
  case ask =>
    change execThrCtlStart l w t stamp s = _
    rw [execThrCtlStart, if_neg (by omega)]
    refine State.onLane_next hl ((Lane.viaQueue_plain on empty _ _).trans ?_)
    rw [Lane.askStart, if_neg other]
  case exit =>
    change execThrCtlExit l t t stamp s = _
    rw [execThrCtlExit, if_neg (by omega)]
    refine State.onLane_next hl ((Lane.viaQueue_plain on empty _ _).trans ?_)
    rw [Lane.endThread, if_pos ⟨rfl, by omega⟩]
  case zero =>
    change execThrCtlExit l 0 0 stamp s = _
    rw [execThrCtlExit, if_neg (by omega)]
    exact State.onLane_next hl (Lane.viaQueue_plain on empty _ _)

end Sys2Proof.Machine
end

section
/-! PROOFS. Pause and wake (R62, R63, R157; O18). -/
namespace Sys2Proof.Machine
open Sys2Proof

/-- What the wakes and the checkpoint of a boundary leave of a lane. -/
def Lane.halted (L : Lane) : Nat × PauseWhy × PauseWhy × Option Snapshot × Sparse Thread × Mem :=
  (L.bvt, L.pausedFor, L.pauseDue, L.snap, L.th, L.mem)

theorem Lane.halted_trimPages (L : Lane) : L.trimPages.halted = L.halted := by
  unfold trimPages
  split <;> rfl
theorem Lane.halted_beginCkpt (L : Lane) (f : Nat) : (L.beginCkpt f).halted = L.halted := by
  unfold beginCkpt
  split
  · rfl
  · exact halted_trimPages _
theorem State.halted_ckptAt (s : State) (l f : Nat) : ((s.ckptAt l f).lane l).halted = (s.lane l).halted := by
  unfold ckptAt
  dsimp only
  split
  · rw [State.lane_putLane]
    rfl
  · rw [State.lane_putLane, Lane.halted_beginCkpt, State.lane_putLane]
    rfl
theorem Lane.halted_endTapAudio (L : Lane) : L.endTapAudio.halted = L.halted := by
  unfold endTapAudio
  split <;> rfl

@[simp] theorem State.lane_markBoundary (s : State) (l f m : Nat) : (s.markBoundary l f).lane m = s.lane m := by
  simp only [State.markBoundary, State.putNetLane, State.lane]
  cases halfOf l <;> cases halfOf m <;> rfl
@[simp] theorem State.drain_markBoundary (s : State) (l f : Nat) (h : HalfId) : ((s.markBoundary l f).half h).drain = (s.half h).drain := by
  simp only [State.markBoundary, State.putNetLane]
  cases halfOf l <;> cases h <;> rfl

/-- The lane as its pause leaves it (R62), of the lane `A` at the boundary. -/
def Lane.paused (A : Lane) (drains : Bool) : Lane :=
  { A.endTapAudio with phase := .paused, pausedFor := (A.pausedFor.or A.pauseDue).or { PauseWhy.no with drain := drains }, pauseDue := .no, pauseCmds := [] }

theorem Lane.paused_facts (A : Lane) (drains : Bool) : (A.paused drains).phase = .paused ∧ (A.paused drains).bvt = A.bvt ∧
    (A.paused drains).pausedFor = (A.pausedFor.or A.pauseDue).or { PauseWhy.no with drain := drains } ∧ (A.paused drains).pauseDue = .no ∧
    (A.paused drains).th = A.th ∧ (A.paused drains).mem = A.mem := by
  have kept := A.halted_endTapAudio
  simp only [halted, Prod.mk.injEq] at kept
  obtain ⟨hbvt, _, _, _, hth, hmem⟩ := kept
  exact ⟨rfl, hbvt, rfl, rfl, hth, hmem⟩

section
variable {s : State} {l tm : Nat} (hl : l < 256) (ends : (s.lane l).canEnd = true) (early : (s.lane l).late = false)
  (due : (s.lane l).pauseDue.any = true) (tap : (s.lane l).op.tap = none ∨ (s.lane l).op.tapDone = none)
include hl ends early due tap

theorem exec_pauseTakesEffect :
    let u := (s.at tm).markBoundary l (s.lane l).nextMil
    let A := ((u.putLane l { s.lane l with bvt := (s.lane l).nextMil }).ckptAt l (s.lane l).nextMil).lane l
    let drains := (s.half (halfOf l)).drain.lanes.contains l && (A.snap.any (·.drain) || (s.half (halfOf l)).drain.buffersOver)
    exec (.pauseTakesEffect l tm) s = .next ((s.lane l).pauseCmds.foldl
      (fun s' id => s'.finish id stOk 0 (leBytes 4 ((s.lane l).tm.frameAt (s.lane l).nextMil))) ((u.putLane l (A.paused drains)).unlock l)) := by
  intro u A drains
  have low : ¬ 256 ≤ l := by omega
  have goes : ((s.lane l).canEnd && !(s.lane l).late && (s.lane l).pauseDue.any &&
      ((s.lane l).op.tap.isNone || (s.lane l).op.tapDone.isNone)) = true := by
    simpa [ends, early, due] using tap
  change execPauseTakesEffect l tm s = _
  simp only [execPauseTakesEffect, if_neg low, State.lane_at, if_pos goes, State.drain_markBoundary, State.half_at]
  rfl

end

/-- Settles O18: the checkpoint at the boundary keeps what the pause must keep. -/
theorem pauseAndWake : Obligations.PauseAndWake := by
  refine ⟨fun l tm s hl ends early due cmds tap => ?pause, fun l tm s hl ends early due tap => ⟨_, exec_pauseTakesEffect hl ends early due tap⟩,
    fun l tm s hl paused latched snap fault test drain => ?wake⟩
  case pause =>
    have eq := exec_pauseTakesEffect (tm := tm) hl ends early due tap
    rw [cmds] at eq
    have kept := State.halted_ckptAt (((s.at tm).markBoundary l (s.lane l).nextMil).putLane l { s.lane l with bvt := (s.lane l).nextMil }) l (s.lane l).nextMil
    rw [State.lane_putLane] at kept
    simp only [Lane.halted, Prod.mk.injEq] at kept
    obtain ⟨hbvt, hfor, hdue, hsnap, hth, hmem⟩ := kept
    refine ⟨_, eq, ?_⟩
    obtain ⟨phase, bvt, why, none, th, mem⟩ := Lane.paused_facts
      (((((s.at tm).markBoundary l (s.lane l).nextMil).putLane l { s.lane l with bvt := (s.lane l).nextMil }).ckptAt l (s.lane l).nextMil).lane l)
      ((s.half (halfOf l)).drain.lanes.contains l && ((s.lane l).snap.any (·.drain) || (s.half (halfOf l)).drain.buffersOver))
    rw [hsnap]
    exact ⟨phase, bvt.trans hbvt, by rw [why, hfor, hdue], none, th.trans hth, mem.trans hmem⟩
  case wake =>
    have low : ¬ 256 ≤ l := by omega
    change execLaneWake l tm s = _
    simp [execLaneWake, low, State.lane_at, paused, latched, snap, fault, test, drain]

end Sys2Proof.Machine
end

section
/-! PROOFS. The lane interrupt controller as commands (R99, R145 to R147, R153 to R155; O19). -/
namespace Sys2Proof.Machine
open Sys2Proof

/-- What an element of a list brings about, a fold along the list keeps, where each step keeps it and what it depends on. -/
theorem foldl_reaches {α β γ : Type} {f : β → α → β} (p : β → γ) (keeps : ∀ b a, p (f b a) = p b) {Q : β → Prop}
    (stays : ∀ b a, Q b → Q (f b a)) {l : List α} {a : α} (ha : a ∈ l) {b : β} (gets : ∀ b', p b' = p b → Q (f b' a)) : Q (l.foldl f b) := by
  have later : ∀ (l : List α) (b : β), Q b → Q (l.foldl f b) := fun l => by
    induction l with
    | nil => exact fun b h => h
    | cons c l ih => exact fun b h => ih (f b c) (stays b c h)
  induction l generalizing b with
  | nil => exact absurd ha List.not_mem_nil
  | cons c l ih =>
    obtain rfl | ha := List.mem_cons.1 ha
    · exact later l (f b a) (gets b rfl)
    · exact ih ha (b := f b c) fun b' h => gets b' (h.trans (keeps b c))

/-! A write of LIC_PEND_SET, source by source (R51, R154). -/

/-- What the write does for source `n`. -/
def Lane.pendOne (t s d v : Nat) (A : Lane) (n : Nat) : Lane :=
  if !v.testBit n then A
  else if A.det && decide (A.unit.lic.reg.target n ≠ t) then
    { A with cross := A.cross ++ [{ mil := A.tm.milIndex s + 2, start := none, source := some n }] }
  else A.raiseAt n d
theorem Lane.pendSet_eq_foldl (L : Lane) (t s d v : Nat) : L.pendSet t s d v = ((List.range 8).map (· + 48)).foldl (pendOne t s d v) L := rfl

/-- What it depends on and leaves. -/
def Lane.pendFrame (L : Lane) : Mem × Sparse Thread × Timers × Bool × Nat × Timing × LicCfg :=
  (L.mem, L.th, L.unit.tim, L.det, L.bvt, L.tm, L.unit.lic.reg)

theorem Lic.reg_raise (c : Lic) (n e : Nat) : (c.raise n e).reg = c.reg := by
  unfold raise
  split <;> rfl
theorem Lane.pendFrame_raiseAt (L : Lane) (n e : Nat) : (L.raiseAt n e).pendFrame = L.pendFrame := by
  simp only [pendFrame, raiseAt, Lic.reg_raise]
  rfl
theorem Lane.pendFrame_pendOne (t s d v : Nat) (A : Lane) (n : Nat) : (pendOne t s d v A n).pendFrame = A.pendFrame := by
  unfold pendOne
  split
  · rfl
  · split
    · rfl
    · exact pendFrame_raiseAt ..

theorem Lane.mem_events_raiseAt {L : Lane} {x : Nat × Nat} (n e : Nat) (h : x ∈ L.unit.lic.events) : x ∈ (L.raiseAt n e).unit.lic.events := by
  simp only [raiseAt, Lic.raise]
  split
  · exact h
  · exact List.mem_append_left _ h
theorem Lane.mem_events_raiseAt_self (L : Lane) {n : Nat} (e : Nat) (hn : licReserved n = false) :
    (n, if L.det then e else L.bvt) ∈ (L.raiseAt n e).unit.lic.events := by
  simp [raiseAt, Lic.raise, hn]
theorem Lane.mem_events_pendOne {t s d v : Nat} {A : Lane} {x : Nat × Nat} (n : Nat) (h : x ∈ A.unit.lic.events) :
    x ∈ (pendOne t s d v A n).unit.lic.events := by
  unfold pendOne
  split
  · exact h
  · split
    · exact h
    · exact mem_events_raiseAt _ _ h
theorem Lane.mem_cross_pendOne {t s d v : Nat} {A : Lane} {x : CrossEffect} (n : Nat) (h : x ∈ A.cross) : x ∈ (pendOne t s d v A n).cross := by
  unfold pendOne
  split
  · exact h
  · split
    · exact List.mem_append_left _ h
    · exact h

theorem software_not_reserved {n : Nat} (lo : 48 ≤ n) (hi : n < 56) : licReserved n = false := by
  simp only [licReserved, Bool.or_eq_false_iff, decide_eq_false_iff_not]
  omega
theorem mem_software {n : Nat} (lo : 48 ≤ n) (hi : n < 56) : n ∈ (List.range 8).map (· + 48) :=
  List.mem_map.2 ⟨n - 48, List.mem_range.2 (by omega), by omega⟩

theorem Lane.pendSet_raises {L : Lane} {t s d v n : Nat} (lo : 48 ≤ n) (hi : n < 56) (hv : v.testBit n = true)
    (own : L.det = true → L.unit.lic.reg.target n = t) : (n, if L.det then d else L.bvt) ∈ (L.pendSet t s d v).unit.lic.events := by
  rw [pendSet_eq_foldl]
  refine foldl_reaches pendFrame (pendFrame_pendOne t s d v) (Q := fun A : Lane => (n, if L.det then d else L.bvt) ∈ A.unit.lic.events)
    (fun A m => mem_events_pendOne m) (mem_software lo hi) fun A same => ?_
  simp only [pendFrame, Prod.mk.injEq] at same
  obtain ⟨_, _, _, hdet, hbvt, _, hreg⟩ := same
  have direct : (A.det && decide (A.unit.lic.reg.target n ≠ t)) = false := by
    rw [hdet, hreg]
    cases det : L.det with
    | false => rfl
    | true => simp [own det]
  have raised := A.mem_events_raiseAt_self d (software_not_reserved lo hi)
  rw [hdet, hbvt] at raised
  unfold pendOne
  rw [if_neg (by simp [hv]), if_neg (by rw [direct]; exact Bool.false_ne_true)]
  exact raised
theorem Lane.pendSet_defers {L : Lane} {t s d v n : Nat} (lo : 48 ≤ n) (hi : n < 56) (hv : v.testBit n = true) (det : L.det = true)
    (other : L.unit.lic.reg.target n ≠ t) :
    ({ mil := L.tm.milIndex s + 2, start := none, source := some n } : CrossEffect) ∈ (L.pendSet t s d v).cross := by
  rw [pendSet_eq_foldl]
  refine foldl_reaches pendFrame (pendFrame_pendOne t s d v)
    (Q := fun A : Lane => ({ mil := L.tm.milIndex s + 2, start := none, source := some n } : CrossEffect) ∈ A.cross)
    (fun A m => mem_cross_pendOne m) (mem_software lo hi) fun A same => ?_
  simp only [pendFrame, Prod.mk.injEq] at same
  obtain ⟨_, _, _, hdet, _, htm, hreg⟩ := same
  simp [pendOne, hv, hdet, det, htm, hreg, other]

/-! A write of the window that the queue does not hold. -/

theorem w64_toNat (v : BitVec 64) : w64 v.toNat = v := by simp [w64]

/-- The VT at which it acts (R42, R61). -/
def Lane.actsAt (L : Lane) (stamp : Nat) : Nat := if L.det then L.tm.stampVt stamp else L.bvt

theorem licRow_plain {s : State} {l w stamp off width v : Nat} (hl : l < 256) (hw : w < 4) (on : (s.lane l).phase ≠ .stopped)
    (empty : (s.lane l).queue = []) (hoff : 0x31000 ≤ off) :
    licRow off width v l w stamp s = .next (s.putLane l ((s.lane l).storeLic w stamp ((s.lane l).actsAt stamp) (off - 0x31000) v)) := by
  have lic : ¬ off < 0x31000 := by omega
  unfold licRow
  rw [if_neg (by omega)]
  refine State.onLane_next hl ?_
  simp only [Lane.viaClocked, on, empty, decide_false, Bool.false_eq_true, if_false, List.findIdx?_nil, Lane.storeClocked, if_neg lic,
    Lane.actsAt]

/-- LIC_PEND_CLEAR, in either mode (R147, R155). -/
theorem Lane.storeLic_pendClear (L : Lane) (t s d : Nat) (v : BitVec 64) :
    L.storeLic t s d 0x118 v.toNat =
      L.setLic (if L.det then ((L.unit.lic.mark d).trim L.licOld).clearPend v (L.licWriter t) d (L.otherFrom s d)
        else { ((L.unit.lic.mark d).trim L.licOld).clearPend v (L.licWriter t) (d + 1) (L.otherFrom s d) with
          lagPend := ((L.unit.lic.mark d).trim L.licOld).lagPend }) := by
  have unfolded : L.storeLic t s d 0x118 v.toNat =
      L.setLic (if L.det then ((L.unit.lic.mark d).trim L.licOld).clearPend (w64 v.toNat) (L.licWriter t) (if L.det then d else d + 1)
          (L.otherFrom s d)
        else { ((L.unit.lic.mark d).trim L.licOld).clearPend (w64 v.toNat) (L.licWriter t) (if L.det then d else d + 1)
          (L.otherFrom s d) with lagPend := ((L.unit.lic.mark d).trim L.licOld).lagPend }) := rfl
  rw [unfolded, w64_toNat]
  cases det : L.det with
  | true => rfl
  | false => rfl

/-- Settles O19: a condition sets PEND once it is settled, and a write of the window is one change of the controller. -/
theorem controllerWrites : Obligations.ControllerWrites := by
  refine ⟨fun l n e s hl hn first on settled => ?pending, fun l n s hl lo hi none trigs step => ?capture,
    fun l n k s hl lo hi none det milestones within can => ?milestone, fun l w stamp s hl hw on empty => ?write⟩
  case pending =>
    have ok : (!(s.lane l).det || (decide (e < (s.lane l).frameEnd) && (s.lane l).fixed e && (s.lane l).silent (fun _ => false) e)) = true := by
      cases det : (s.lane l).det with
      | false => rfl
      | true =>
        obtain ⟨within, fixed, silent⟩ := settled det
        simp [within, fixed, silent]
    change execLicSourcePending l n s = _
    rw [execLicSourcePending, if_neg (by omega)]
    refine State.onLane_next hl ?_
    simp only [first]
    exact if_pos ⟨on, ok⟩
  case capture =>
    have some_trig : (s.lane l).unit.tim.trigs.isEmpty = false := List.isEmpty_eq_false_iff.2 trigs
    have notMil : ¬ (24 ≤ n ∧ n ≤ 27) := by omega
    change execLicSourcePending l n s = _
    rw [execLicSourcePending, if_neg (by omega)]
    refine State.onLane_next hl ?_
    simp [none, notMil, lo, hi, some_trig, step]
  case milestone =>
    change execLicSourcePending l n s = _
    rw [execLicSourcePending, if_neg (by omega)]
    refine State.onLane_next hl ?_
    simp [none, lo, hi, Lane.lookAhead, det, milestones, within, can]
  case write =>
    intro L d c o put
    refine ⟨fun v => ?_, fun v => ?_, fun v => ?_, fun v => ?_, fun v => ?_⟩
    · exact licRow_plain hl hw on empty (by decide)
    · refine (licRow_plain hl hw on empty (by decide)).trans ?_
      simp only [Lane.storeLic, licOpOf, w64_toNat]
      rfl
    · refine (licRow_plain hl hw on empty (by decide)).trans ?_
      simp only [Lane.storeLic, licOpOf, w64_toNat]
      rfl
    · exact (licRow_plain hl hw on empty (by decide)).trans
        (congrArg (fun A => Host.Outcome.next (s.putLane l A)) (Lane.storeLic_pendClear L w stamp d v))
    · refine ⟨L.pendSet w stamp d v.toNat, licRow_plain hl hw on empty (by decide), ?_⟩
      have frame := foldl_keeps Lane.pendFrame (Lane.pendFrame_pendOne w stamp d v.toNat) ((List.range 8).map (· + 48)) L
      rw [← Lane.pendSet_eq_foldl] at frame
      simp only [Lane.pendFrame, Prod.mk.injEq] at frame
      obtain ⟨hmem, hth, htim, _⟩ := frame
      refine ⟨hmem, hth, htim, fun n lo hi hv => ⟨fun normal => ?_, fun det own => ?_, fun det other => Lane.pendSet_defers lo hi hv det other⟩⟩
      · have raised := Lane.pendSet_raises (L := L) (t := w) (s := stamp) (d := d) lo hi hv (fun det => absurd (normal.symm.trans det) Bool.false_ne_true)
        rwa [normal] at raised
      · have raised := Lane.pendSet_raises (L := L) (t := w) (s := stamp) (d := d) lo hi hv (fun _ => own)
        rwa [det] at raised

end Sys2Proof.Machine
end

section
/-! PROOFS. The timers as commands and as rules (R158 to R169; O21, O22). -/
namespace Sys2Proof.Machine
open Sys2Proof

/-! One timer of the eight. -/

theorem Timers.get_put_same {x : Timers} {n : Nat} (y : Timer) (hn : n < x.t.length) : (x.put n y).get n = y := by
  simp [get, put, List.getD, hn]
theorem Timers.get_put_other (x : Timers) {m n : Nat} (y : Timer) (h : n ≠ m) : (x.put m y).get n = x.get n := by
  simp [get, put, List.getD, List.getElem?_set_ne (Ne.symm h)]
/-- What timer `n` may be after one was replaced. -/
theorem Timers.get_put (x : Timers) (m n : Nat) (y : Timer) : (x.put m y).get n = if m = n ∧ n < x.t.length then y else x.get n := by
  by_cases same : m = n
  · subst same
    by_cases hn : m < x.t.length
    · rw [if_pos ⟨rfl, hn⟩, get_put_same y hn]
    · simp [get, put, List.getD, hn]
  · rw [if_neg (fun h => same h.1), get_put_other x y (Ne.symm same)]
@[simp] theorem Timers.length_put (x : Timers) (n : Nat) (y : Timer) : (x.put n y).t.length = x.t.length := List.length_set
@[simp] theorem Timers.t_at (x : Timers) (vt : Nat) : (x.at vt).t = x.t := by
  have marked : (x.mark vt).t = x.t := by
    unfold mark
    split <;> rfl
  dsimp only [Timers.at]
  split
  · exact marked
  · exact marked
@[simp] theorem Timers.get_at (x : Timers) (vt n : Nat) : (x.at vt).get n = x.get n := by simp only [get, t_at]
@[simp] theorem Timers.slave_at (x : Timers) (vt n : Nat) : (x.at vt).slave n = x.slave n := by simp only [slave, get_at]
@[simp] theorem Timers.running_at (x : Timers) (vt n : Nat) : (x.at vt).running n = x.running n := by simp only [running, slave_at, get_at]

/-- Replacing timer `n` does not make it, or stop it being, the even timer of a pair. -/
theorem Timers.paired_put (x : Timers) (n : Nat) (y : Timer) : (x.put n y).paired n = x.paired n := by
  rw [paired, paired, get_put_other x y (by omega)]

/-! The captures of a period (step 3 of R160). -/

/-- What they leave, with the wrap of timer `n`. -/
def Timers.captureFrame (n : Nat) (x : Timers) : Nat × Nat × Bool := (x.now, x.closed, (x.get n).wrapped)
theorem Timers.captureFrame_put {n m : Nat} {x : Timers} {y : Timer} (h : y.wrapped = (x.get m).wrapped) :
    (x.put m y).captureFrame n = x.captureFrame n := by
  have same : ((x.put m y).get n).wrapped = (x.get n).wrapped := by
    rw [get_put]
    split
    · next here => rw [h, here.1]
    · rfl
  rw [captureFrame, captureFrame, same]
  rfl
theorem Timers.captureFrame_capture (n m vt : Nat) (x : Timers) : (x.capture m vt).1.captureFrame n = x.captureFrame n := by
  unfold capture
  split
  · rfl
  · dsimp only
    split
    · exact (captureFrame_put (by rfl)).trans (captureFrame_put (by rfl))
    · exact captureFrame_put (by rfl)
theorem Timers.captureFrame_captures (n : Nat) (x : Timers) : x.captures.1.captureFrame n = x.captureFrame n := by
  refine foldl_keeps (fun a : Timers × List (Nat × Nat) => a.1.captureFrame n) (fun a q => ?_) x.trigs (x, [])
  refine foldl_keeps (fun a : Timers × List (Nat × Nat) => a.1.captureFrame n) (fun a m => ?_) (List.range 8) a
  split
  · exact captureFrame_capture ..
  · rfl

theorem Timers.captures_keeps (x : Timers) (n : Nat) :
    x.captures.1.now = x.now ∧ x.captures.1.closed = x.closed ∧ (x.captures.1.get n).wrapped = (x.get n).wrapped := by
  have same := captureFrame_captures n x
  simp only [captureFrame, Prod.mk.injEq] at same
  exact same

/-! Step 4 reads nothing of what closed the period, and leaves it. -/

theorem Timers.raiseWrap_closed (x : Timers) (c n : Nat) :
    ({ x with closed := c } : Timers).raiseWrap n = ({ (x.raiseWrap n).1 with closed := c }, (x.raiseWrap n).2) := by
  change (if (x.get n).wrapped then _ else _) = _
  unfold raiseWrap
  split <;> rfl
theorem Timers.raiseWrap_keeps (x : Timers) (n : Nat) : (x.raiseWrap n).1.now = x.now ∧ (x.raiseWrap n).1.closed = x.closed := by
  unfold raiseWrap
  split
  · exact ⟨rfl, rfl⟩
  · exact ⟨rfl, rfl⟩
theorem Timers.compare_closed (x : Timers) (c n : Nat) :
    ({ x with closed := c } : Timers).compare n = ({ (x.compare n).1 with closed := c }, (x.compare n).2) := by
  unfold compare
  change (if (!(x.get n).due) = true then _ else if (x.slave n && (x.get n).cmp64 || !x.running n) = true then _
    else if (!x.compareNow n) = true then _ else if (x.get n).armed = true then _ else _) = _
  dsimp only
  split
  · rfl
  · split
    · rfl
    · split
      · rfl
      · split <;> rfl
theorem Timers.compare_keeps (x : Timers) (n : Nat) : (x.compare n).1.now = x.now ∧ (x.compare n).1.closed = x.closed := by
  unfold compare
  dsimp only
  split
  · exact ⟨rfl, rfl⟩
  · split
    · exact ⟨rfl, rfl⟩
    · split
      · exact ⟨rfl, rfl⟩
      · split <;> exact ⟨rfl, rfl⟩

/-! What the lane's timers raise. -/

/-- What a source that arises leaves. -/
def Lane.raiseFrame (L : Lane) : Mem × Sparse Thread × Timers × Bool × Nat := (L.mem, L.th, L.unit.tim, L.det, L.bvt)
theorem Lane.raiseFrame_timersRaise (L : Lane) (r : Timers × List (Nat × Nat)) :
    (L.timersRaise r).raiseFrame = (L.mem, L.th, { r.1 with closed := max r.1.closed (r.1.now + 1) }, L.det, L.bvt) :=
  foldl_keeps (f := fun A (p : Nat × Nat) => A.raiseAt p.1 p.2) raiseFrame (fun _ _ => rfl) r.2 _
theorem Lane.timersRaise_keeps (L : Lane) (r : Timers × List (Nat × Nat)) :
    (L.timersRaise r).mem = L.mem ∧ (L.timersRaise r).th = L.th ∧
      (L.timersRaise r).unit.tim = { r.1 with closed := max r.1.closed (r.1.now + 1) } ∧ (L.timersRaise r).det = L.det ∧
      (L.timersRaise r).bvt = L.bvt := by
  have same := L.raiseFrame_timersRaise r
  simp only [raiseFrame, Prod.mk.injEq] at same
  exact same
theorem Lane.mem_events_timersRaise {L : Lane} {r : Timers × List (Nat × Nat)} {n e : Nat} (hn : licReserved n = false) (h : (n, e) ∈ r.2) :
    (n, if L.det then e else L.bvt) ∈ (L.timersRaise r).unit.lic.events := by
  refine foldl_reaches (f := fun A (p : Nat × Nat) => A.raiseAt p.1 p.2) raiseFrame (fun _ _ => rfl) (Q := fun A : Lane => (n, if L.det then e else L.bvt) ∈ A.unit.lic.events)
    (fun A p => mem_events_raiseAt _ _) h fun A same => ?_
  simp only [raiseFrame, Prod.mk.injEq] at same
  obtain ⟨_, _, _, hdet, hbvt⟩ := same
  have raised := A.mem_events_raiseAt_self e hn
  rwa [hdet, hbvt] at raised

/-- Steps 3 and 4 one after the other: the second closes nothing further. -/
theorem Lane.timersRaise_twice (L : Lane) (f : Timers → Timers × List (Nat × Nat))
    (closes : ∀ (x : Timers) c, f { x with closed := c } = ({ (f x).1 with closed := c }, (f x).2))
    (keeps : ∀ x, (f x).1.now = x.now ∧ (f x).1.closed = x.closed) :
    let A := L.timersRaise L.unit.tim.captures
    (A.timersRaise (f A.unit.tim)).unit.tim =
        { (f L.unit.tim.captures.1).1 with closed := max L.unit.tim.closed (L.unit.tim.now + 1) } ∧
      (A.timersRaise (f A.unit.tim)).mem = L.mem ∧ (A.timersRaise (f A.unit.tim)).th = L.th ∧
      (f A.unit.tim).2 = (f L.unit.tim.captures.1).2 ∧ A.det = L.det ∧ A.bvt = L.bvt := by
  intro A
  obtain ⟨mem, th, tim, det, bvt⟩ := L.timersRaise_keeps L.unit.tim.captures
  obtain ⟨mem', th', tim', _, _⟩ := A.timersRaise_keeps (f A.unit.tim)
  obtain ⟨now, closed, _⟩ := L.unit.tim.captures_keeps 0
  have step : f A.unit.tim = ({ (f L.unit.tim.captures.1).1 with closed := max L.unit.tim.closed (L.unit.tim.now + 1) },
      (f L.unit.tim.captures.1).2) := by
    rw [tim, closes, closed, now]
  have idem : max (max L.unit.tim.closed (L.unit.tim.now + 1)) (L.unit.tim.now + 1) = max L.unit.tim.closed (L.unit.tim.now + 1) := by
    omega
  refine ⟨?_, mem'.trans mem, th'.trans th, congrArg (·.2) step, det, bvt⟩
  rw [tim', step, (keeps _).1, now, idem]

/-! A write, or a read that acts, of the window. -/

theorem timRow_plain {s : State} {l off v vt : Nat} (hl : l < 256) (on : (s.lane l).phase ≠ .stopped) (empty : (s.lane l).queue = [])
    (hoff : off < 0x31000) : timRow off v vt l s = .next (s.putLane l ((s.lane l).storeTim vt (off - 0x30000) v)) := by
  unfold timRow
  refine State.onLane_next hl ?_
  simp only [Lane.viaClocked, on, empty, decide_false, Bool.false_eq_true, if_false, List.findIdx?_nil, Lane.storeClocked, if_pos hoff]

/-- The same with the offset counted from the window. -/
theorem timRow_at {s : State} {l off v vt : Nat} (hl : l < 256) (on : (s.lane l).phase ≠ .stopped) (empty : (s.lane l).queue = [])
    {k : Nat} (hk : k < 0x1000) (hoff : off = 0x30000 + k) : timRow off v vt l s = .next (s.putLane l ((s.lane l).storeTim vt k v)) := by
  have window : off - 0x30000 = k := by omega
  rw [timRow_plain hl on empty (by omega), window]

theorem timReadRow_plain {s : State} {l off : Nat} (hl : l < 256) (on : (s.lane l).phase ≠ .stopped) (empty : (s.lane l).queue = []) :
    timReadRow off l s = .next (s.putLane l ((s.lane l).readEffect off)) :=
  State.onLane_next hl (Lane.viaQueue_plain on empty _ _)

theorem timer_not_reserved {n : Nat} (hn : n < 8) : licReserved (8 + n) = false := by
  simp only [licReserved, Bool.or_eq_false_iff, decide_eq_false_iff_not]
  omega

/-- The lane as a tick at `t` finds it: in normal mode the beam has come as far. -/
def Lane.broughtTo (L : Lane) (t : Nat) : Lane := if L.det || decide (L.nextMil ≤ t) then L else L.beamTo t
theorem Lane.broughtTo_keeps (L : Lane) (t : Nat) :
    (L.broughtTo t).unit = L.unit ∧ (L.broughtTo t).mem = L.mem ∧ (L.broughtTo t).th = L.th := by
  unfold broughtTo
  split
  · exact ⟨rfl, rfl, rfl⟩
  · exact ⟨rfl, rfl, rfl⟩

/-- Settles O21: a tick is that of its timer, steps 3 and 4 follow each other and close the period once, and an access acts at its VT. -/
theorem timerCommands : Obligations.TimerCommands := by
  refine ⟨fun l n t s hl hn next first runs isOpen det => ?tick, fun l n t s hl hn next first runs isOpen det => ?tickNormal,
    fun l n s hl hn runs wrapped step => ?wrap, fun l n s hl hn runs due step => ?compare, fun l s hl on empty => ?access⟩
  case tick =>
    change execTimerTick l n s = _
    rw [execTimerTick, if_neg (by omega)]
    refine State.onLane_next hl ?_
    simp only [next, runs, first, isOpen, det, decide_true, Bool.and_self, Bool.true_or, if_true]
  case tickNormal =>
    obtain ⟨unit, mem, th⟩ := (s.lane l).broughtTo_keeps t
    refine ⟨{ (s.lane l).broughtTo t with unit := { ((s.lane l).broughtTo t).unit with tim := ((s.lane l).broughtTo t).unit.tim.tick n } },
      ?_, congrArg (fun u : LaneUnit => u.tim.tick n) unit, mem, th⟩
    change execTimerTick l n s = _
    rw [execTimerTick, if_neg (by omega)]
    refine State.onLane_next hl ?_
    simp only [next, runs, first, isOpen, decide_true, Bool.and_self, if_true]
    rfl
  case wrap =>
    obtain ⟨tim, mem, th, raised, det, bvt⟩ := (s.lane l).timersRaise_twice (·.raiseWrap n) (fun x c => x.raiseWrap_closed c n)
      (fun x => x.raiseWrap_keeps n)
    obtain ⟨now, _, still⟩ := (s.lane l).unit.tim.captures_keeps n
    refine ⟨_, ?_, tim, ?_, mem, th⟩
    · change execTimerWrap l n s = _
      rw [execTimerWrap, if_neg (by omega)]
      refine State.onLane_next hl ?_
      simp only [runs, wrapped, step, decide_true, Bool.and_self, if_true]
    · have event := Lane.mem_events_timersRaise (L := (s.lane l).timersRaise (s.lane l).unit.tim.captures) (n := 8 + n)
        (e := (s.lane l).unit.tim.now) (timer_not_reserved hn) (r := ((s.lane l).timersRaise (s.lane l).unit.tim.captures).unit.tim.raiseWrap n)
        (by rw [raised, Timers.raiseWrap, if_pos (still.trans wrapped), now]; exact List.mem_singleton_self _)
      rwa [det, bvt] at event
  case compare =>
    obtain ⟨tim, mem, th, _⟩ := (s.lane l).timersRaise_twice (·.compare n) (fun x c => x.compare_closed c n) (fun x => x.compare_keeps n)
    refine ⟨_, ?_, tim, mem, th⟩
    change execTimerCompare l n (s.lane l).unit.tim.now s = _
    rw [execTimerCompare, if_neg (by omega)]
    refine State.onLane_next hl ?_
    simp only [runs, due, step, decide_true, Bool.and_self, if_true]
  case access =>
    intro L W
    refine ⟨fun n v vt hn => ?_, fun n v vt hn => ?_, fun n v vt hn => ?_, fun n v vt hn hv => ?_, fun n v vt hn hv => ?_, fun v vt => ?_,
      fun n hn => ?_, fun k hk => ?_⟩
    · change execTimCtlWrite l n v vt s = _
      rw [execTimCtlWrite, if_neg (by omega)]
      exact timRow_at hl on empty (by omega) (by omega)
    · change execTimCntWrite l n v vt s = _
      rw [execTimCntWrite, if_neg (by omega)]
      exact timRow_at hl on empty (by omega) (by omega)
    · change execTimCmpWrite l n v vt s = _
      rw [execTimCmpWrite, if_neg (by omega)]
      exact timRow_at hl on empty (by omega) (by omega)
    · change execTimerStart l n v vt s = _
      rw [execTimerStart, if_neg (by omega), if_pos hv]
      exact timRow_at hl on empty (by decide) rfl
    · change execTimerStop l n v vt s = _
      rw [execTimerStop, if_neg (by omega), if_pos hv]
      exact timRow_at hl on empty (by decide) rfl
    · exact timRow_at hl on empty (by decide) rfl
    · change execTimCapRead l n s = _
      rw [execTimCapRead, if_neg (by omega)]
      exact timReadRow_plain hl on empty
    · change execTimCntPairRead l k s = _
      rw [execTimCntPairRead, if_neg (by omega)]
      exact timReadRow_plain hl on empty

/-! The rules of the timer registers. -/

theorem gstart_bits {n : Nat} (hn : n < 8) :
    (2 ^ n).testBit n = true ∧ (2 ^ n).testBit (8 + n) = false ∧ (2 ^ (8 + n)).testBit n = false ∧ (2 ^ (8 + n)).testBit (8 + n) = true ∧
      (2 ^ n + 2 ^ (8 + n)).testBit n = true ∧ (2 ^ n + 2 ^ (8 + n)).testBit (8 + n) = true := by
  have small : ∀ n < 8, (2 ^ n).testBit n = true ∧ (2 ^ n).testBit (8 + n) = false ∧ (2 ^ (8 + n)).testBit n = false ∧
      (2 ^ (8 + n)).testBit (8 + n) = true ∧ (2 ^ n + 2 ^ (8 + n)).testBit n = true ∧ (2 ^ n + 2 ^ (8 + n)).testBit (8 + n) = true := by
    decide
  exact small n hn

theorem Timers.count_writeCnt {x : Timers} {n v : Nat} (vt : Nat) (hn : n < x.t.length) (hv : v < 2 ^ 32) :
    ((x.writeCnt n v vt).get n).count = v := by
  have written : (((x.at vt).put n { (x.at vt).get n with count := v % 2 ^ 32, due := (x.at vt).running n }).get n).count = v := by
    rw [get_put_same _ (by simpa using hn)]
    exact Nat.mod_eq_of_lt hv
  unfold writeCnt
  dsimp only
  split
  · next follows =>
    have odd : n % 2 = 1 := by
      simp only [slave, Bool.and_eq_true, decide_eq_true_eq] at follows
      exact follows.1.1
    rw [get_put_other _ _ (by omega)]
    exact written
  · exact written

theorem Timers.run_start {x : Timers} {n : Nat} (vt : Nat) (hn : n < x.t.length) : ((x.start n vt).get n).run = true := by
  unfold start
  split
  · assumption
  · dsimp only
    split
    · rw [get_put_other _ _ (by omega), get_put_same _ hn]
    · rw [get_put_same _ hn]
theorem Timers.run_stop {x : Timers} {n : Nat} (hn : n < x.t.length) : ((x.stop n).get n).run = false := by
  unfold stop
  dsimp only
  split
  · rw [get_put_other _ _ (by omega), get_put_same _ hn]
  · rw [get_put_same _ hn]

/-- A capture of a timer that is not the odd one of a pair (R168). -/
theorem Timers.get_capture {x : Timers} {n : Nat} (vt : Nat) (hn : n < x.t.length) (single : x.slave n = false) :
    (x.capture n vt).1.get n = { x.get n with cap := (x.get n).count, capf := true, capovr := (x.get n).capovr || (x.get n).capf } ∧
      (x.capture n vt).2 = [(16 + n, vt)] ∧
      (x.paired n = true → n + 1 < x.t.length → ((x.capture n vt).1.get (n + 1)).cap = (x.get (n + 1)).count) := by
  unfold capture
  rw [if_neg (by rw [single]; exact Bool.false_ne_true)]
  dsimp only
  rw [paired_put]
  split
  · refine ⟨?_, rfl, fun _ pair => ?_⟩
    · rw [get_put_other _ _ (by omega), get_put_same _ hn]
    · rw [get_put_same _ (by simpa using pair), get_put_other _ _ (by omega)]
  · next alone => exact ⟨get_put_same _ hn, rfl, fun pair => absurd pair alone⟩

theorem Timers.capf_readCap {x : Timers} {n : Nat} (hn : n < x.t.length) (single : x.slave n = false) : ((x.readCap n).get n).capf = false := by
  unfold readCap
  simp only [single, Bool.false_eq_true, if_false]
  split
  · exact congrArg (·.capf) (get_put_same _ hn)
  · exact congrArg (·.capf) (get_put_same _ hn)

/-- Settles O22: the step of each mode, and the writes, starts, captures and reads of one timer. -/
theorem timerRules : Obligations.TimerRules := by
  refine ⟨fun top => ?_, fun c top below _ => ?_, fun top falling => ⟨rfl, rfl⟩, fun c top falling pos _ => ?_, fun c top below small => ?_,
    fun c small => ?_, fun c top above _ small => ?_, fun top => rfl, fun x n eight hn => ?registers⟩
  · simp [timerStep]
  · have step : ¬ (c = top ∨ c = 2 ^ 32 - 1) := by omega
    simp only [timerStep, if_neg step]
  · have step : c ≠ 0 := by omega
    simp only [timerStep, if_neg step, and_self]
  · have low : ¬ top ≤ c + 1 := by omega
    simp [timerStep, low]
    omega
  · simp [timerStep]
    omega
  · have diff : (c + 2 ^ 32 - 1) % 2 ^ 32 = c - 1 := by omega
    have inside : c - 1 ≠ 0 := by omega
    simp only [timerStep, if_true, diff, if_neg inside]
  case registers =>
    have hx : n < x.t.length := by omega
    obtain ⟨st, st', sp', sp, both, both'⟩ := gstart_bits hn
    refine ⟨fun v vt hv => Timers.count_writeCnt vt hx hv, fun vt => ?_, fun odd v vt => ⟨?_, ?_⟩, fun single => ⟨fun vt idle => ?_,
      fun vt runs => ?_, fun vt => ?_, Timers.capf_readCap hx single⟩⟩
    · simp only [Timers.gstartOne, both, both', Bool.not_true, Bool.and_false, Bool.false_eq_true, if_false, ite_self]
    · rw [Timers.gstartOne, if_pos odd]
    · rw [Timers.capture, if_pos odd]
    · simp only [Timers.gstartOne, single, st, st', Bool.not_false, Bool.and_self, Bool.false_eq_true, if_false, if_true]
      exact Timers.run_start vt hx
    · simp only [Timers.gstartOne, single, sp, sp', Bool.not_true, Bool.not_false, Bool.and_self, Bool.false_eq_true, if_false, if_true]
      exact Timers.run_stop hx
    · obtain ⟨own, raised, pair⟩ := Timers.get_capture vt hx single
      refine ⟨by rw [own], by rw [own], by rw [own], raised, fun paired => pair paired ?_⟩
      simp only [Timers.paired, Bool.and_eq_true, decide_eq_true_eq] at paired
      omega

end Sys2Proof.Machine
end

section
/-! PROOFS. Line fetches and opacity (R175 to R178, R193, R202; O23). -/
namespace Sys2Proof.Machine
open Sys2Proof

/-! What a register write and a line-list group leave of the lines fetched. -/

theorem Ras.lines_showSigs (r : Ras) (d : Nat) : (r.showSigs d).lines = r.lines := by
  unfold showSigs
  refine (foldl_keeps Ras.lines (fun r s => ?_) _ _).trans rfl
  dsimp only
  split <;> rfl
theorem Ras.lines_store (r : Ras) (tm : Timing) (d off v : Nat) : (r.store tm d off v).1.lines = r.lines := by
  have shown : (if off = 0x10080 then r.showSigs (d - 1) else r).lines = r.lines := by
    split
    · exact lines_showSigs ..
    · rfl
  unfold store
  dsimp only
  split
  · split
    · exact shown
    · exact shown
  · exact shown
theorem GroupOut.lines_entry (tm : Timing) (m : Nat) (g : GroupOut) (e : LlEntry) : (g.entry tm m e).ras.lines = g.ras.lines := by
  unfold entry
  dsimp only
  split
  · rfl
  · rfl
  · generalize (if e.kind = 1 then 4 else 8) = w
    generalize (if e.kind = 1 then e.data % 2 ^ 32 else e.data) = v
    split
    · split
      · exact Ras.lines_store ..
      · rfl
    · split
      · rfl
      · rfl
theorem Ras.lines_execGroup (r : Ras) (tm : Timing) (m : Nat) (q : LlGroup) : (r.execGroup tm m q).ras.lines = r.lines := by
  have entries := foldl_keeps (f := fun g e => GroupOut.entry g tm m e) (fun g : GroupOut => g.ras.lines) (GroupOut.lines_entry tm m) q.entries
    { ras := r, irqs := 0, marks := [] }
  unfold execGroup
  dsimp only
  split
  · exact entries
  · exact entries

/-- What the groups read after their milestone leave of the lane (R211). -/
def Lane.fetchFrame (L : Lane) : Mem × Sparse Thread × List LineFetch := (L.mem, L.th, L.unit.ras.lines)
theorem Lane.fetchFrame_lateGroups (L : Lane) : L.lateGroups.fetchFrame = L.fetchFrame := by
  unfold lateGroups
  refine (foldl_keeps fetchFrame (fun A g => ?_) _ _).trans rfl
  have executed : ({ A with unit := { A.unit with ras := (A.unit.ras.execGroup A.tm L.bvt g).ras } } : Lane).fetchFrame = A.fetchFrame :=
    congrArg (fun x => (A.mem, A.th, x)) (Ras.lines_execGroup ..)
  have marked (B : Lane) (marks : List (Nat × Nat)) : (marks.foldl (fun B p => B.markRegion p.1 p.2) B).fetchFrame = B.fetchFrame :=
    foldl_keeps (f := fun (B : Lane) (p : Nat × Nat) => B.markRegion p.1 p.2) fetchFrame (fun _ _ => rfl) marks B
  have raised (C : Lane) (n : Nat) : ((List.range n).foldl (fun C _ => C.raiseBeam 30 L.bvt) C).fetchFrame = C.fetchFrame :=
    foldl_keeps (f := fun (C : Lane) (_ : Nat) => C.raiseBeam 30 L.bvt) fetchFrame (fun _ _ => rfl) (List.range n) C
  dsimp only
  split
  · exact (marked _ _).trans executed
  · exact (raised _ _).trans ((marked _ _).trans executed)

/-- The lines of a pass once the open one is complete (R177). -/
theorem exec_lineFetchComplete {s : State} {l : Nat} {p : Pass} {r : Ras} {f : LineFetch} (hl : l < 256) (pass : (s.lane l).pass p = some r)
    (first : r.lines.find? (fun f => !f.complete) = some f) :
    exec (.lineFetchComplete l p) s = .next (s.putLane l
      (match p with
      | .beam => ((((s.lane l).setPass p { (if f.listed then r else r.readGroup (s.lane l).tm f) with
          lines := ((if f.listed then r else r.readGroup (s.lane l).tm f).lines.map (fun f => { f with complete := true })).filter
            (fun f => decide (f.line < (s.lane l).tm.vact)) }).countRequests f).lateGroups)
      | .tailrace => (s.lane l).setPass p { (if f.listed then r else r.readGroup (s.lane l).tm f) with
          lines := ((if f.listed then r else r.readGroup (s.lane l).tm f).lines.map (fun f => { f with complete := true })).filter
            (fun f => decide (f.line < (s.lane l).tm.vact)) })) := by
  change execLineFetchComplete l p s = _
  unfold execLineFetchComplete
  refine State.onLane_next hl ?_
  simp only [pass, first]
  cases p <;> rfl

theorem Ras.lines_readGroup (r : Ras) (tm : Timing) (f : LineFetch) : (r.readGroup tm f).lines = r.lines := by
  unfold readGroup readList
  dsimp only
  split
  · rfl
  · split
    · split <;> rfl
    · split <;> rfl
theorem Ras.lines_listed (r : Ras) (tm : Timing) (f : LineFetch) : (if f.listed then r else r.readGroup tm f).lines = r.lines := by
  split
  · rfl
  · exact lines_readGroup ..

/-- What a raster write does to the pending tiles (R202). -/
theorem Lane.storeRas_region (L : Lane) (e : BeamEntry) (d j : Nat) (hj : j < 2) (he : e.off = 0x200 + 8 * j) :
    (L.storeRas e d).mem = L.mem ∧ (L.storeRas e d).th = L.th ∧
      (L.storeRas e d).opqPend =
        L.opqPend.filter (fun p => decide (p / 65536 ≠ j)) ++ (List.range (bits (w64 e.data) 32 16 + 1)).map (· + 65536 * j) := by
  have inside : 0x200 ≤ e.off ∧ e.off < 0x210 := by omega
  have region : (e.off - 0x200) / 8 = j := by omega
  simp only [storeRas, if_pos inside, region]
  split
  · exact ⟨rfl, rfl, rfl⟩
  · split
    · exact ⟨rfl, rfl, rfl⟩
    · exact ⟨rfl, rfl, rfl⟩

/-- Settles O23: a fetch starts where it may, a fetched line is complete, a pending tile is scanned, and a region's tiles become pending. -/
theorem lineFetches : Obligations.LineFetches := by
  refine ⟨fun l p r s hl pass can => ?start, fun l r f s hl pass first => ?tailrace, fun l r f s hl pass first => ?beam,
    fun l k rest s hl pending => ?rescan, fun l j v s hl hj on empty => ?region⟩
  case start =>
    change execLineFetchStart l p s = _
    unfold execLineFetchStart
    refine State.onLane_next hl ?_
    simp only [pass, can, if_true]
  case tailrace =>
    exact ⟨_, _, exec_lineFetchComplete hl pass first, rfl, by rw [Ras.lines_listed], rfl, rfl, rfl⟩
  case beam =>
    have frame := Lane.fetchFrame_lateGroups (((s.lane l).setPass .beam { (if f.listed then r else r.readGroup (s.lane l).tm f) with
      lines := ((if f.listed then r else r.readGroup (s.lane l).tm f).lines.map (fun f => { f with complete := true })).filter
        (fun f => decide (f.line < (s.lane l).tm.vact)) }).countRequests f)
    simp only [Lane.fetchFrame, Prod.mk.injEq] at frame
    obtain ⟨mem, th, lines⟩ := frame
    exact ⟨_, exec_lineFetchComplete hl pass first, lines.trans (by rw [← Ras.lines_listed r (s.lane l).tm f]; rfl), mem, th⟩
  case rescan =>
    change execOpacityRescan l s = _
    unfold execOpacityRescan
    refine State.onLane_next hl ?_
    simp only [pending]
  case region =>
    obtain ⟨mem, th, opq⟩ := (s.lane l).storeRas_region
      { thread := 0, stamp := (s.lane l).bvt, off := 0x200 + 8 * j, width := 8, data := v.toNat, read := false, applied := false } (s.lane l).bvt j hj rfl
    refine ⟨_, ?_, mem, th, fun k hk => ?_⟩
    · change execRasOpqWrite l j v s = _
      rw [execRasOpqWrite, if_neg (by omega)]
      exact State.onLane_next hl (Lane.viaQueue_plain on empty _ _)
    · rw [opq, w64_toNat]
      exact List.mem_append_right _ (List.mem_map.2 ⟨k, List.mem_range.2 (by omega), rfl⟩)

end Sys2Proof.Machine
end

section
/-! PROOFS. The picture: composition, point B and slices (R181, R228, R229, R252, R334; O24). -/
namespace Sys2Proof.Machine
open Sys2Proof

/-! A viewer of a half replaced. -/

theorem Sparse.mem_of_get {V : Type} {d : Nat → V} {m : Sparse V} {k : Nat} {v : V} (h : Sparse.get d m k = v) (listed : v ≠ d k) :
    (k, v) ∈ m := by
  induction m with
  | nil => exact absurd h.symm listed
  | cons p t ih =>
    rw [Sparse.get] at h
    split at h
    · next here => exact List.mem_cons.2 (.inl (Prod.ext here.symm h.symm))
    · exact List.mem_cons_of_mem _ (ih h)
theorem Half.mem_viewersOf {H : Half} {v l : Nat} {x : Viewer} (h : H.viewer v = some x) (hl : x.lane = l) : (v, x) ∈ H.viewersOf l :=
  List.mem_filterMap.2 ⟨(v, some x), Sparse.mem_of_get h (by simp [noViewer]), by simp [hl]⟩

@[simp] theorem Half.viewer_putViewer (H : Half) (v : Nat) (x : Option Viewer) : (H.putViewer v x).viewer v = x := Sparse.get_set_same ..
theorem Half.viewer_putViewer_other (H : Half) {v w : Nat} (x : Option Viewer) (h : w ≠ v) : (H.putViewer v x).viewer w = H.viewer w :=
  Sparse.get_set_other _ _ _ _ _ h

/-- A viewer after one of the half has changed. -/
theorem State.viewer_mapViewer (s : State) (h : HalfId) (v w : Nat) (f : Viewer → Viewer) :
    ((s.mapViewer h v f).half h).viewer w = if w = v then ((s.half h).viewer w).map f else (s.half h).viewer w := by
  unfold mapViewer
  by_cases same : w = v
  · subst same
    rw [if_pos rfl]
    cases e : (s.half h).viewer w with
    | none => simp [e]
    | some x => simp
  · rw [if_neg same]
    cases (s.half h).viewer v with
    | none => rfl
    | some x => simp [Half.viewer_putViewer_other _ _ same]

/-- That viewer `v` of half `h` is there, with a property. -/
def State.viewerHas (h : HalfId) (v : Nat) (Q : Viewer → Prop) (s : State) : Prop := ∃ y, (s.half h).viewer v = some y ∧ Q y

theorem State.viewerHas_mapViewer {s : State} {h : HalfId} {v w : Nat} {f : Viewer → Viewer} {Q : Viewer → Prop} (keeps : ∀ x, Q x → Q (f x))
    (has : s.viewerHas h v Q) : (s.mapViewer h w f).viewerHas h v Q := by
  obtain ⟨y, hy, q⟩ := has
  unfold viewerHas
  rw [viewer_mapViewer, hy]
  split
  · exact ⟨f y, rfl, keeps y q⟩
  · exact ⟨y, rfl, q⟩
theorem State.isSome_viewer_mapViewer (s : State) (h : HalfId) (v w : Nat) (f : Viewer → Viewer) :
    (((s.mapViewer h w f).half h).viewer v).isSome = ((s.half h).viewer v).isSome := by
  rw [viewer_mapViewer]
  split
  · exact Option.isSome_map
  · rfl

/-! The blocks that a slice leaves dirty (R334). -/

/-- DIRTY of a block for a viewer. -/
def Viewer.dirty (x : Viewer) (b : Nat) : Bool := (Sparse.get blockFresh x.blocks b).dirty

theorem dirty_put_sent (m : Sparse BlockState) (f k b : Nat) :
    (Sparse.get blockFresh (Sparse.set blockFresh m k { Sparse.get blockFresh m k with sent := f, none := false }) b).dirty =
      (Sparse.get blockFresh m b).dirty := by
  rw [Sparse.get_set]
  split
  · next same => rw [same]
  · rfl

theorem Viewer.dirty_dirtySlice_of (L : Lane) (f sl b : Nat) {x : Viewer} (h : x.dirty b = true) : (x.dirtySlice L f sl).dirty b = true := by
  unfold dirtySlice dirty
  refine List.foldlRecOn (motive := fun m => (Sparse.get blockFresh m b).dirty = true) _ _ h fun m hm c _ => ?_
  dsimp only
  split
  · rw [Sparse.get_set]
    split
    · rfl
    · exact hm
  · exact hm
theorem Viewer.dirty_dirtySlice (L : Lane) {f sl c : Nat} (x : Viewer) (hc : c < L.bx) (changed : L.chg (128 * sl + c) = f) :
    (x.dirtySlice L f sl).dirty (128 * sl + c) = true := by
  refine foldl_reaches (fun _ => ()) (fun _ _ => rfl) (Q := fun m => (Sparse.get blockFresh m (128 * sl + c)).dirty = true)
    (fun m k hm => ?_) (List.mem_range.2 hc) fun m _ => ?_
  · split
    · rw [Sparse.get_set]
      split
      · rfl
      · exact hm
    · exact hm
  · rw [if_pos changed, Sparse.get_set_same]

/-- Handing a slice to a viewer changes no DIRTY. -/
theorem Viewer.dirty_takeSlice (x : Viewer) (L : Lane) (tm f sl b : Nat) : (x.takeSlice L tm f sl).dirty b = x.dirty b := by
  unfold takeSlice
  dsimp only
  split
  · rfl
  · refine (foldl_keeps (fun m : Sparse BlockState => (Sparse.get blockFresh m b).dirty) ?_ _ _).trans ?_
    · exact fun m c => dirty_put_sent m _ _ b
    refine congrArg (fun m : Sparse BlockState => (Sparse.get blockFresh m b).dirty) ?_
    refine (foldl_keeps Viewer.blocks ?_ _ _).trans ?_
    · exact fun _ _ => rfl
    · split <;> rfl

/-- The viewers of a lane once a slice has closed, before the lane goes on to the next. -/
def State.sliceSent (s : State) (l : Nat) (L : Lane) : State :=
  let s := ((s.half (halfOf l)).viewersOf l).foldl (fun s p => s.mapViewer (halfOf l) p.1 (fun x => x.dirtySlice L L.enc.sf L.enc.sl)) s
  if L.withheld then s
  else (s.serviceOrder l).foldl (fun s v => s.mapViewer (halfOf l) v
    (fun x => if x.selects && x.fits L then x.takeSlice L s.time L.enc.sf L.enc.sl else x)) s

theorem exec_sliceClose {l tm : Nat} {s : State} (hl : l < 256) (runs : (s.lane l).phase = .running)
    (read : (s.lane l).enc.sf < (s.lane l).enc.bf ∨
      ((s.lane l).enc.sf = (s.lane l).enc.bf ∧ 16 * ((s.lane l).enc.sl + 1) ≤ (s.lane l).enc.bl)) :
    exec (.sliceClose l tm) s =
      let a := Sparse.get crcReset (s.lane l).enc.crcA (s.lane l).enc.sl
      let b := Sparse.get crcReset (s.lane l).enc.crcB (s.lane l).enc.sl
      let r := (s.at tm).sliceSent l (s.lane l)
      let u := r.putLane l { r.lane l with enc := (s.lane l).enc.closed (s.lane l).tm }
      .next (if a = b then u else u.pointFault l (a ^^^ b)) := by
  have readBool : (decide ((s.lane l).enc.sf < (s.lane l).enc.bf) || (decide ((s.lane l).enc.sf = (s.lane l).enc.bf) &&
      decide (16 * ((s.lane l).enc.sl + 1) ≤ (s.lane l).enc.bl))) = true := by simpa using read
  change execSliceClose l tm s = _
  rw [execSliceClose, if_neg (by omega)]
  simp only [State.lane_at]
  rw [if_pos ⟨runs, readBool⟩]
  rfl

/-- The blocks of the slice that changed in the frame are dirty for a viewer (R334). -/
def Lane.dirtyFor (L : Lane) (y : Viewer) : Prop :=
  ∀ c, c < L.bx → L.chg (128 * L.enc.sl + c) = L.enc.sf → y.dirty (128 * L.enc.sl + c) = true

theorem State.viewerHas_sliceSent {s : State} {l v : Nat} (L : Lane) {x : Viewer} (hx : (s.half (halfOf l)).viewer v = some x)
    (lane : x.lane = l) : (s.sliceSent l L).viewerHas (halfOf l) v L.dirtyFor := by
  have marked : (((s.half (halfOf l)).viewersOf l).foldl
      (fun s p => s.mapViewer (halfOf l) p.1 (fun x => x.dirtySlice L L.enc.sf L.enc.sl)) s).viewerHas (halfOf l) v L.dirtyFor := by
    refine foldl_reaches (fun s : State => ((s.half (halfOf l)).viewer v).isSome)
      (f := fun (s : State) (p : Nat × Viewer) => s.mapViewer (halfOf l) p.1 (fun x => x.dirtySlice L L.enc.sf L.enc.sl))
      (fun s p => s.isSome_viewer_mapViewer (halfOf l) v p.1 _) (Q := State.viewerHas (halfOf l) v L.dirtyFor)
      (fun s p has => State.viewerHas_mapViewer (fun y hy c hc changed => Viewer.dirty_dirtySlice_of L _ _ _ (hy c hc changed)) has)
      (Half.mem_viewersOf hx lane) fun s' there => ?_
    obtain ⟨y, hy⟩ := Option.isSome_iff_exists.1 (there.trans (by rw [hx]; rfl))
    refine ⟨y.dirtySlice L L.enc.sf L.enc.sl, ?_, fun c hc changed => y.dirty_dirtySlice L hc changed⟩
    rw [State.viewer_mapViewer, if_pos rfl, hy]
    rfl
  unfold sliceSent
  dsimp only
  split
  · exact marked
  · refine List.foldlRecOn _ _ marked fun s' has w _ => State.viewerHas_mapViewer (fun y hy c hc changed => ?_) has
    split
    · rw [Viewer.dirty_takeSlice]
      exact hy c hc changed
    · exact hy c hc changed

@[simp] theorem State.net_putLane (s : State) (l : Nat) (L : Lane) (h : HalfId) : ((s.putLane l L).half h).net = (s.half h).net := by
  unfold putLane
  by_cases same : h = halfOf l
  · rw [same, State.half_putHalf, Half.putLane_net]
  · rw [State.half_putHalf_other _ _ _ _ same]

/-- Settles O24: dots are composed, point B reads them, and a slice that it has read closes with its changed blocks dirty for every viewer. -/
theorem pictureComposed : Obligations.PictureComposed := by
  refine ⟨fun l p r f s hl pass line can free => ?compose, fun l s hl runs composed frame => ?pointB,
    fun l tm s hl runs => ?quiet, fun l tm s hl runs => ?slice⟩
  case compose =>
    change execDotCompose l p s = _
    rw [execDotCompose, if_neg (by omega)]
    simp only [pass, line, can, free, Bool.and_self, if_true]
  case pointB =>
    change execPointBRead l s = _
    rw [execPointBRead, if_neg (by omega)]
    exact if_pos ⟨runs, composed, frame⟩
  case quiet =>
    intro L e read none withheld same
    have sent : (s.at tm).sliceSent l L = s.at tm := by
      unfold State.sliceSent
      rw [State.half_at, none, if_pos withheld]
      rfl
    rw [exec_sliceClose hl runs read]
    dsimp only
    rw [if_pos same]
    exact congrArg (fun r : State => Host.Outcome.next (r.putLane l { r.lane l with enc := e.closed L.tm })) sent |>.trans (by rw [State.lane_at])
  case slice =>
    intro L e a b read
    refine ⟨_, exec_sliceClose hl runs read, by rw [State.lane_putLane], fun v x hx lane => ?_⟩
    obtain ⟨y, hy, dirty⟩ := ((s.at tm).viewerHas_sliceSent L (by rw [State.half_at]; exact hx) lane)
    refine ⟨y, ?_, dirty⟩
    rw [Half.viewer, State.net_putLane]
    exact hy

end Sys2Proof.Machine
end

section
/-! PROOFS. The operator's side, the blitter and the sound unit as commands (R230, R236, R247, R248, R255 to R291; O25, O26). -/
namespace Sys2Proof.Machine
open Sys2Proof

@[simp] theorem Operator.reg_setReg_same (o : Operator) (off : Nat) (v : Word) : (o.setReg off v).reg off = v := Sparse.get_set_same ..
theorem bits_putBits_low (x : Word) (v : Nat) : bits (putBits x 0 32 v) 0 32 = v % 2 ^ 32 := bits_putBits_same x v (by decide)

/-- A write of CPS_COMMIT with its request bit keeps the dot (R236). -/
theorem Ras.mem_reqs_store (r : Ras) (tm : Timing) (d v : Nat) (h : v.testBit 0 = true) : d ∈ (r.store tm d 0x10020 v).1.reqs := by
  obtain ⟨k, i, found⟩ : ∃ k i, findReg (rasterMap ++ compositorMap) 0x10020 = some (k, i) := ⟨_, _, rfl⟩
  simp only [store, found, h, and_self, if_true, request]
  exact List.mem_append_right _ (List.mem_singleton_self d)

theorem Lane.storeRas_compositor (L : Lane) (e : BeamEntry) (d : Nat) (he : 0x210 ≤ e.off) :
    (L.storeRas e d).mem = L.mem ∧ (L.storeRas e d).th = L.th ∧ (L.storeRas e d).unit.ras = (L.unit.ras.store L.tm d e.off e.data).1 := by
  have outside : ¬ (0x200 ≤ e.off ∧ e.off < 0x210) := by omega
  simp only [storeRas, if_neg outside]
  split
  · exact ⟨rfl, rfl, rfl⟩
  · split
    · exact ⟨rfl, rfl, rfl⟩
    · exact ⟨rfl, rfl, rfl⟩

/-- The operator's side once a recorded frame is closed (R247). -/
def Operator.closeTap (o : Operator) (t : TapFrame) : Operator :=
  let o := ((o.tapWrite (t.slot + 0x100) (tapAudio t.audio)).tapWrite (t.slot + 8) t.header).tapWrite t.slot (leBytes 8 t.frame)
  { o.setReg 0x18808 (putBits (o.reg 0x18808) 0 32 (bits (o.reg 0x18808) 0 32 + 1)) with tapDone := none, tapCount := o.tapCount + 1 }

theorem Operator.count_closeTap (o : Operator) (t : TapFrame) :
    bits ((o.closeTap t).reg 0x18808) 0 32 = (bits (o.reg 0x18808) 0 32 + 1) % 2 ^ 32 := by
  have written : (o.closeTap t).reg 0x18808 = putBits (o.reg 0x18808) 0 32 (bits (o.reg 0x18808) 0 32 + 1) := by
    simp only [closeTap, tapWrite, setReg, reg, Sparse.get_set_same]
  rw [written, bits_putBits_low]

/-- Settles O25: the tap's frame is counted, the overlay copied, the commit request held, and RD stored. -/
theorem operatorSide : Obligations.OperatorSide := by
  refine ⟨fun l t s hl done => ?tap, fun l s hl copying => ?copy, fun l v vt s hl on empty => ?commit, fun l v s hl on => ?index⟩
  case tap =>
    refine ⟨{ s.lane l with op := (s.lane l).op.closeTap t }, ?_, rfl, ?_, rfl, rfl, rfl⟩
    · change execTapFrameEnd l s = _
      unfold execTapFrameEnd
      refine State.onLane_next hl ?_
      simp only [done]
      rfl
    · exact (s.lane l).op.count_closeTap t
  case copy =>
    change execOverlayCopy l s = _
    unfold execOverlayCopy
    refine State.onLane_next hl ?_
    rw [if_pos copying]
  case commit =>
    obtain ⟨mem, th, ras⟩ := (s.lane l).storeRas_compositor
      { thread := 0, stamp := vt, off := 0x10020, width := 4, data := v.toNat, read := false, applied := false } vt (show 0x210 ≤ 0x10020 by decide)
    refine ⟨_, (State.onLane_next hl (Lane.viaQueue_plain on empty _ _) : execCpsCommitReq l v vt s = _), rfl, fun asked => ?_, mem, th⟩
    rw [ras]
    exact Ras.mem_reqs_store _ _ _ _ asked
  case index =>
    refine ⟨_, (State.onLane_next hl (if_neg on) : execCpsTapIdxWrite l v s = _), ?_, ?_, rfl, rfl⟩
    · rw [Operator.reg_setReg_same, bits_putBits_same _ _ (by decide)]
      exact Nat.mod_eq_of_lt (Nat.mod_lt _ (by decide))
    · rw [Operator.reg_setReg_same, bits_putBits_other _ _ (by decide) (.inl (by decide))]

/-! What the writes of a blitter operation leave of its lane. -/

/-- The blitter and the threads. -/
def Lane.bltFrame (L : Lane) : Option BltOp × Sparse Thread := (L.unit.blt, L.th)
theorem Lane.bltFrame_trimPages (L : Lane) : L.trimPages.bltFrame = L.bltFrame := by
  unfold trimPages
  split <;> rfl
theorem Lane.bltFrame_copyPage (L : Lane) (f p : Nat) : (L.copyPage f p).1.bltFrame = L.bltFrame := by
  unfold copyPage
  dsimp only
  split
  · rfl
  · split
    · rfl
    · split
      · rfl
      · split
        · exact bltFrame_trimPages _
        · exact bltFrame_trimPages _
theorem Lane.bltFrame_copyOnWrite (L : Lane) (s a n : Nat) : (L.copyOnWrite s a n).1.bltFrame = L.bltFrame := by
  refine foldl_keeps (fun r : Lane × Nat => r.1.bltFrame) (fun r p => ?_) (pagesOf a n) (L, 0)
  exact r.1.bltFrame_copyPage _ p
theorem Lane.bltFrame_land (L : Lane) (e : LogStore) : (L.land e).1.bltFrame = L.bltFrame := by
  unfold land
  split
  · rfl
  · dsimp only
    refine Eq.trans ?_ (L.bltFrame_copyOnWrite e.stamp e.addr e.data.length)
    split <;> rfl
theorem Lane.bltFrame_landAll (L : Lane) (ws : List LogStore) : (L.landAll ws).1.bltFrame = L.bltFrame :=
  foldl_keeps (f := fun (a : Lane × Nat) e => ((a.1.land e).1, a.2 + (a.1.land e).2)) (fun r : Lane × Nat => r.1.bltFrame)
    (fun r e => r.1.bltFrame_land e) ws (L, 0)
theorem Lane.bltFrame_bltEnd (L : Lane) (o : BltOp) : (L.bltEnd o).1.bltFrame = (none, L.th) := by
  refine (bltFrame_landAll _ _).trans ?_
  cases L.det <;> rfl

theorem sndRow_plain {s : State} {l off v : Nat} (hl : l < 256) (on : (s.lane l).phase ≠ .stopped) (empty : (s.lane l).queue = []) :
    sndRow off v l s = .next (s.putLane l ((s.lane l).store
      { thread := 0, stamp := (s.lane l).bvt, off := off, width := 8, data := v, read := false, applied := false } (s.lane l).bvt)) :=
  State.onLane_next hl (Lane.viaQueue_plain on empty _ _)

/-- Settles O26: a START acts as its register does, groups and ends go their way, and the sound unit fetches, ticks and is written. -/
theorem blitterAndSound : Obligations.BlitterAndSound := by
  refine ⟨fun l v vt s hl on empty starts => ?start, fun l o s hl running can => ?group, fun l o s hl running done => ?finish,
    fun l s hl can => ?fetch, fun l f s hl line can => ?tick, fun l v s hl on empty => ?writes⟩
  case start =>
    change execBltStart l v vt s = _
    unfold execBltStart
    refine State.onLane_next hl ?_
    rw [starts]
    exact (if_neg Bool.false_ne_true).trans (Lane.viaQueue_plain on empty _ _)
  case group =>
    change execBltGroup l s = _
    unfold execBltGroup
    simp only [running]
    rw [if_pos can]
    exact State.onLane_eq hl rfl
  case finish =>
    have frame := (s.lane l).bltFrame_bltEnd o
    simp only [Lane.bltFrame, Prod.mk.injEq] at frame
    refine ⟨?_, frame⟩
    change execBltEnd l s = _
    unfold execBltEnd
    refine State.onLane_eq hl ?_
    simp only [running, done, if_true]
  case fetch =>
    change execSoundFetchStart l s = _
    unfold execSoundFetchStart
    refine State.onLane_next hl ?_
    rw [if_pos can]
  case tick =>
    change execSoundTick l s = _
    unfold execSoundTick
    simp only [line, can, Bool.not_true, Bool.false_eq_true, if_false]
    exact State.onLane_eq hl rfl
  case writes =>
    exact ⟨sndRow_plain hl on empty, sndRow_plain hl on empty, sndRow_plain hl on empty, sndRow_plain hl on empty⟩

end Sys2Proof.Machine
end

section
/-! PROOFS. Audio and the inputs of a lane (R48, R271, R296 to R311, R343, R363, R378 to R381, R436, R439; O27, O28). -/
namespace Sys2Proof.Machine
open Sys2Proof

/-- The viewers of a lane are those of the half's network. -/
theorem Half.viewersOf_net {H K : Half} (l : Nat) (h : H.net = K.net) : H.viewersOf l = K.viewersOf l := by
  unfold viewersOf
  rw [h]

/-- Settles O27: a weir is fed, a sample is mixed, a node falls back, a frame is coded and sent, and an announcement is read. -/
theorem audioRuns : Obligations.AudioRuns := by
  refine ⟨fun l x rest s hl on started first => ?sound, fun l p s hl hp on started => ?voice, fun l s hl on started waits room => ?sample,
    fun l o k s hl ho hk waited => ?timeout, fun l o s hl ho full => ?encode, fun l o tm f s hl ho ready => ?send,
    fun l wr data s hl on runs => ?announce⟩
  case sound =>
    change execWeirInput l 0 s = _
    rw [execWeirInput, if_neg (by decide)]
    refine State.onLane_next hl ?_
    rw [if_neg (by simp [on, started]), if_pos rfl, first]
  case voice =>
    change execWeirInput l (p + 1) s = _
    rw [execWeirInput, if_neg (by omega)]
    refine State.onLane_next hl ?_
    rw [if_neg (by simp [on, started]), if_neg (by omega), Nat.add_sub_cancel]
  case sample =>
    have noWait : (List.range 48).any (fun k => (Sparse.get nodeReset (s.lane l).audio.nodes k).timedOut) = false :=
      List.any_eq_false.2 fun k hk => by simp [waits k (List.mem_range.1 hk)]
    have notFull : (List.range 5).any (fun o => decide (1024 ≤ (Sparse.get asmReset (s.lane l).audio.asm o).length)) = false :=
      List.any_eq_false.2 fun o ho => by simpa using room o (List.mem_range.1 ho)
    change execStreamSample l s = _
    unfold execStreamSample
    refine State.onLane_next hl ?_
    exact if_neg (by simp only [on, started, noWait, notFull, Bool.false_eq_true, or_self, not_false_iff])
  case timeout =>
    refine ⟨{ s.lane l with audio := { (s.lane l).audio with
        nodes := Sparse.set nodeReset (s.lane l).audio.nodes (8 * o + k) (Sparse.get nodeReset (s.lane l).audio.nodes (8 * o + k)).fallBack,
        timeouts := satBits 16 ((s.lane l).audio.timeouts + 1) } }, ?_, rfl, Sparse.get_set_same .., fun j hj => Sparse.get_set_other _ _ _ _ _ hj⟩
    change execNodeTimeout l o k s = _
    rw [execNodeTimeout, if_neg (by omega)]
    exact State.onLane_next hl (if_pos waited)
  case encode =>
    change execOpusFrameEncode l o s = _
    rw [execOpusFrameEncode, if_neg (by omega)]
    exact State.onLane_next hl (if_pos full)
  case send =>
    have same (L : Lane) : (((s.at tm).putLane l L).half (halfOf l)).viewersOf l = (s.half (halfOf l)).viewersOf l :=
      Half.viewersOf_net l (by rw [State.net_putLane, State.half_at])
    change execAudioSend l o tm s = _
    rw [execAudioSend, if_neg (by omega)]
    simp only [State.lane_at, ready, same]
  case announce =>
    intro a n
    refine ⟨(s.putLane l { s.lane l with audio := { (s.lane l).audio with ann := { a with
        rd := (a.rd + n) % 2 ^ 32, queue := a.queue ++ (List.range (n / 4)).map
          (fun i => (signed 16 (leAt data (4 * i) 2), signed 16 (leAt data (4 * i + 2) 2))) } } }).emit
        (.hostWrite (halfOf l) (a.addr + 4) (leBytes 4 ((a.rd + n) % 2 ^ 32))), ?_, ?_, ?_, ?_⟩
    · change execAnnounceRead l wr data s = _
      rw [execAnnounceRead, if_neg (by omega)]
      exact if_neg (by simp [on, runs])
    · exact congrArg (fun L : Lane => L.audio.ann.rd) (State.lane_putLane s l _)
    · refine (congrArg (fun L : Lane => L.audio.ann.queue.length) (State.lane_putLane s l _)).trans ?_
      simp [a]
    · exact congrArg (_ :: ·) (State.putLane_out s l _)

/-! Inputs. -/

theorem inputRow_eq {s : State} {l kind : Nat} {i : LaneInput} {f : Lane → LaneInput → Lane} (hl : l < 256)
    (next : (s.lane l).nextInput kind = some i) (can : (s.lane l).canInput i = true) :
    inputRow kind f l s = .next (s.putLane l (f ((s.lane l).tookInput i) i)) := by
  unfold inputRow
  refine State.onLane_next hl ?_
  simp only [next, can, if_true]

@[simp] theorem LaneUnit.reg_setReg (u : LaneUnit) (o off : Nat) (v : Word) : (u.setReg o v).reg off = if off = o then v else u.reg off :=
  Sparse.get_set ..

/-- The lane unit after a pad input (R380, R381). -/
theorem Lane.regs_applyPad (L : Lane) (i : LaneInput) :
    (L.applyPad i).unit.regs = ((((L.unit.setReg (0x32000 + 0x20 * i.slot) (w64 (leAt i.data 0 3))).setReg
      (0x32000 + 0x20 * i.slot + 4) (w64 (leAt i.data 12 4))).setReg (0x32000 + 0x20 * i.slot + 8) (w64 (leAt i.data 4 8))).setReg
      (0x32000 + 0x20 * i.slot + 0x10) 1).regs := by
  simp only [applyPad, raiseAt, setReg]
theorem Lane.reg_applyPad (L : Lane) (i : LaneInput) (off : Nat) :
    (L.applyPad i).unit.reg off =
      if off = 0x32000 + 0x20 * i.slot + 0x10 then 1
      else if off = 0x32000 + 0x20 * i.slot + 8 then w64 (leAt i.data 4 8)
      else if off = 0x32000 + 0x20 * i.slot + 4 then w64 (leAt i.data 12 4)
      else if off = 0x32000 + 0x20 * i.slot then w64 (leAt i.data 0 3) else L.unit.reg off := by
  rw [LaneUnit.reg, regs_applyPad, ← LaneUnit.reg]
  simp only [LaneUnit.reg_setReg]
theorem Lane.frame_applyPad (L : Lane) (i : LaneInput) :
    (L.applyPad i).mem = L.mem ∧ (L.applyPad i).th = L.th ∧ (L.applyPad i).unit.ras = L.unit.ras := by
  simp only [applyPad, raiseAt, setReg, LaneUnit.setReg, and_self]

/-- Settles O28: the next input of a kind takes effect, and a pad input fills its registers. -/
theorem laneInputs : Obligations.LaneInputs := by
  refine ⟨fun l i s hl can => ⟨fun next => inputRow_eq hl next can, fun next => inputRow_eq hl next can, fun next => inputRow_eq hl next can,
    fun next => inputRow_eq hl next can⟩, fun L i hi => ?pad⟩
  case pad =>
    refine ⟨?_, ?_, ?_, ?_, L.frame_applyPad i⟩
    · rw [L.reg_applyPad, if_neg (by omega), if_neg (by omega), if_neg (by omega), if_pos rfl]
    · rw [L.reg_applyPad, if_neg (by omega), if_neg (by omega), if_pos rfl]
    · rw [L.reg_applyPad, if_neg (by omega), if_pos rfl]
    · rw [L.reg_applyPad, if_pos rfl]

end Sys2Proof.Machine
end

section
/-! PROOFS. Checkpoints and restore (R394 to R399, R403; O29). -/
namespace Sys2Proof.Machine
open Sys2Proof

@[simp] theorem Lane.lastCkpt_setCkpt (L : Lane) (c : Checkpoint) : (L.setCkpt c).lastCkpt = some c := List.getLast?_concat

/-- What bringing the newest checkpoint on leaves of the lane (R395). -/
theorem Lane.sealCkpt_keeps (L : Lane) (time : Nat) :
    (L.sealCkpt time).mem = L.mem ∧ (L.sealCkpt time).th = L.th ∧ (L.sealCkpt time).near = L.near ∧ (L.sealCkpt time).nearAt = L.nearAt ∧
      (L.sealCkpt time).phase = L.phase := by
  unfold sealCkpt
  split
  · exact ⟨rfl, rfl, rfl, rfl, rfl⟩
  · exact ⟨rfl, rfl, rfl, rfl, rfl⟩
/-- The newest checkpoint stays that of its boundary, recorded or not. -/
theorem Lane.lastCkpt_sealCkpt {L : Lane} {c : Checkpoint} (time : Nat) (h : L.lastCkpt = some c) :
    ∃ d, (L.sealCkpt time).lastCkpt = some d ∧ d.recorded = c.recorded ∧ d.vt = c.vt := by
  unfold sealCkpt
  rw [h]
  refine ⟨_, lastCkpt_setCkpt _ _, ?_⟩
  by_cases settled : (c.mem.isNone && L.knownBelow c.vt) = true
  · simp only [if_pos settled]
    split
    · exact ⟨rfl, rfl⟩
    · exact ⟨rfl, rfl⟩
  · simp only [if_neg settled]
    split
    · exact ⟨rfl, rfl⟩
    · exact ⟨rfl, rfl⟩

theorem State.drain_dropAllLines (s : State) (l : Nat) (h : HalfId) : ((s.dropAllLines l).half h).drain = (s.half h).drain := by
  unfold dropAllLines
  by_cases same : h = halfOf l
  · rw [same, State.half_putHalf]
  · rw [State.half_putHalf_other _ _ _ _ same]

/-- The threads that a restore puts back (R403). -/
theorem Sparse.get_foldl_set {V : Type} [DecidableEq V] (d : Nat → V) (f : Nat → V) {l : List Nat} {t : Nat} (h : t ∈ l) (m : Sparse V) :
    Sparse.get d (l.foldl (fun m t => Sparse.set d m t (f t)) m) t = f t := by
  refine foldl_reaches (fun _ => ()) (fun _ _ => rfl) (Q := fun m : Sparse V => Sparse.get d m t = f t) (fun m k hm => ?_) h fun m _ => ?_
  · rw [Sparse.get_set]
    split
    · next same => rw [same]
    · exact hm
  · exact Sparse.get_set_same ..
theorem Lane.thread_restore (L : Lane) (c : Checkpoint) (r : Rollback) {t : Nat} (ht : t < 4) :
    (L.restore c r).thread t =
      { Sparse.get threadInit c.threads t with admitted := (L.thread t).admitted, slots := (L.thread t).slots } :=
  Sparse.get_foldl_set threadInit (fun t => { Sparse.get threadInit c.threads t with
    admitted := (L.thread t).admitted, slots := (L.thread t).slots }) (List.mem_range.2 ht) []

/-- Settles O29: captures and copies advance the newest checkpoint, it becomes good in time, and a restore brings its lane back. -/
theorem checkpointsAndRestore : Obligations.CheckpointsAndRestore := by
  refine ⟨fun l t f s hl ht due on rolls => ?capture, fun l f s hl next on => ?near, fun l c s hl last open' on => ?record,
    fun l tm c t s hl last complete up later young settled on quiet => ?good, fun l tm r c s hl rolled target rolling waits up => ?restore,
    fun L c r => ?restored⟩
  case capture =>
    change execContextCapture l t s = _
    rw [execContextCapture, if_neg (by omega)]
    refine State.onLane_next hl ?_
    simp only [due]
    exact if_neg (by simp [on, rolls])
  case near =>
    obtain ⟨mem, th, near, nearAt, _⟩ := Lane.sealCkpt_keeps
      { s.lane l with near := if (s.lane l).near < 64 then (s.lane l).near + 1 else 1, nearAt := f + 1 } s.time
    refine ⟨_, ?_, near, nearAt, mem, th⟩
    change execNearSramPageCopy l s = _
    unfold execNearSramPageCopy
    refine State.onLane_next hl ?_
    simp only [next]
    exact if_pos on
  case record =>
    obtain ⟨mem, th, _⟩ := Lane.sealCkpt_keeps ((s.lane l).setCkpt { c with recorded := true }) s.time
    obtain ⟨d, newest, recorded, vt⟩ := Lane.lastCkpt_sealCkpt s.time ((s.lane l).lastCkpt_setCkpt { c with recorded := true })
    refine ⟨_, d, ?_, newest, recorded, vt, mem, th⟩
    change execLaneUnitStateRecord l s = _
    unfold execLaneUnitStateRecord
    refine State.onLane_next hl ?_
    simp only [last]
    exact if_neg (by simp [open', on])
  case good =>
    have phase : ((s.lane l).sealCkpt (s.at tm).time).captures = true := by
      rw [Lane.captures, ((s.lane l).sealCkpt_keeps (s.at tm).time).2.2.2.2]
      exact on
    have ripe : (s.at tm).ripe l c = true := by
      simp only [State.ripe, complete, State.half_at, up, later, settled, quiet, Bool.not_false, decide_true, Bool.and_self]
    refine ⟨((s.lane l).sealCkpt (s.at tm).time).setCkpt { c with good := true }, { c with good := true }, ?_, Lane.lastCkpt_setCkpt _ _, rfl, rfl⟩
    change execCheckpointGood l tm s = _
    unfold execCheckpointGood
    refine State.onLane_next hl ?_
    rw [State.lane_at]
    simp only [last]
    exact if_pos (by simp [phase, young, ripe])
  case restore =>
    have drain : (((s.at tm).dropAllLines l).half (halfOf l)).drain = (s.half (halfOf l)).drain := by
      rw [State.drain_dropAllLines, State.half_at]
    rw [← drain]
    intro u w d A B x
    change execRestoreComplete l tm s = _
    rw [execRestoreComplete, if_neg (by omega)]
    simp only [State.lane_at, rolled, target, rolling, waits, State.half_at, up, and_self, if_true]
    rfl
  case restored =>
    intro A
    refine ⟨rfl, rfl, rfl, rfl, rfl, rfl, rfl, rfl, rfl, rfl, fun t ht => ?_⟩
    intro x
    rw [L.thread_restore c r ht]
    exact ⟨rfl, rfl, rfl, rfl, rfl, rfl, rfl, rfl, rfl, rfl⟩

end Sys2Proof.Machine
end

section
/-! PROOFS. Transmission to viewers (R319, R344 to R346, R371; O30). -/
namespace Sys2Proof.Machine
open Sys2Proof

/-- Messages of a viewer that leave nothing to be sent, and do not take it out of the lane: the viewer is replaced. -/
theorem State.sentBy_quiet {s : State} {h : HalfId} {v : Nat} {x y : Viewer} (hx : (s.half h).viewer v = some x)
    (stays : y.state = 3 → x.state = 3) : s.sentBy h v { view := y, outs := [], high := none } = s.putHalf h ((s.half h).putViewer v (some y)) := by
  have left : (decide (y.state = 3) && decide (x.state ≠ 3)) = false := by
    by_cases leaves : y.state = 3
    · simp [leaves, stays leaves]
    · simp [leaves]
  unfold sentBy
  rw [hx]
  simp only [left, Bool.false_eq_true, if_false]
  rfl

/-- The send bucket (R371). -/
theorem Viewer.pays_of_held {x : Viewer} {tm n : Nat} (paced : x.pace ≠ 0) (held : x.flow.frameBytes n * 8000 ≤ x.bucketNow tm) :
    x.pays tm n = some { x with bucket := x.bucketNow tm - x.flow.frameBytes n * 8000, bucketAt := tm } := by
  unfold pays
  rw [if_neg paced]
  exact if_neg (by omega)
theorem Viewer.pays_of_short {x : Viewer} {tm n : Nat} (paced : x.pace ≠ 0) (short : x.bucketNow tm < x.flow.frameBytes n * 8000) :
    x.pays tm n = none := by
  unfold pays
  rw [if_neg paced]
  exact if_pos short

/-- The count of datagrams discarded (R371). -/
def State.lateTxCounted (s : State) (h : HalfId) : State :=
  s.putHalf h { s.half h with net := { (s.half h).net with lateTx := min ((s.half h).net.lateTx + 1) (2 ^ 32 - 1) } }
theorem State.viewer_lateTxCounted (s : State) (h : HalfId) (v : Nat) : ((s.lateTxCounted h).half h).viewer v = (s.half h).viewer v := by
  rw [lateTxCounted, State.half_putHalf]
  rfl
theorem exec_lateTxDiscard {h : HalfId} {v tm : Nat} {x : Viewer} {i : TxItem} {rest : List TxItem} {s : State} (hv : v < 2048)
    (hx : (s.half h).viewer v = some x) (items : x.items = i :: rest) (paced : x.pace ≠ 0) (late : i.stale (s.lane x.lane) (s.at tm).time = true) :
    exec (.lateTxDiscard h v tm) s =
      .next (((s.at tm).lateTxCounted h).leftBy h v { view := { x with items := rest }, outs := [], high := none }) := by
  change execLateTxDiscard h v tm s = _
  rw [execLateTxDiscard, if_neg (by omega)]
  simp only [State.half_at, State.lane_at, hx, items]
  exact if_pos ⟨paced, late⟩

/-- Settles O30: what is due goes out or is discarded, and the repeats follow their times. -/
theorem transmission : Obligations.Transmission := by
  refine ⟨fun h v tm x y i rest s hv hx items => ?transmit, fun h v tm x i rest s hv hx items => ?exhausted, fun x tm n paced => ?bucket,
    fun h v tm x i rest s hv hx items paced late plain => ?discard, fun h v tm x i rest r n a s hv hx items paced late leaving => ?last,
    fun h v tm x s hv hx joined => ?timing, fun h v tm x p last s hv hx joined moving due => ?move,
    fun h v tm x r last s hv hx leaving due => ?leave⟩
  case transmit =>
    intro u fresh going pays
    have onTime : ¬ (x.pace ≠ 0 ∧ i.stale (s.lane x.lane) (s.at tm).time = true) := by
      rintro ⟨paced, stale⟩
      exact fresh.elim (fun free => paced free) (fun ok => Bool.false_ne_true (ok.symm.trans stale))
    have goes : ¬ (x.exhausted = true ∧ x.state ≠ 3) := by
      rintro ⟨used, on⟩
      exact going.elim (fun ok => Bool.false_ne_true (ok.symm.trans used)) (fun left => on left)
    change execDatagramTransmit h v tm s = _
    rw [execDatagramTransmit, if_neg (by omega)]
    simp only [State.half_at, State.lane_at, hx, items]
    rw [if_neg onTime, if_neg goes, pays]
  case exhausted =>
    intro u fresh used on
    have onTime : ¬ (x.pace ≠ 0 ∧ i.stale (s.lane x.lane) (s.at tm).time = true) := by
      rintro ⟨paced, stale⟩
      exact fresh.elim (fun free => paced free) (fun ok => Bool.false_ne_true (ok.symm.trans stale))
    change execDatagramTransmit h v tm s = _
    rw [execDatagramTransmit, if_neg (by omega)]
    simp only [State.half_at, State.lane_at, hx, items]
    rw [if_neg onTime, if_pos ⟨used, on⟩]
  case bucket =>
    exact ⟨fun held => ⟨_, Viewer.pays_of_held paced held, Nat.sub_add_cancel held, rfl, rfl⟩, fun short => Viewer.pays_of_short paced short⟩
  case discard =>
    have quiet : ((s.at tm).lateTxCounted h).leftBy h v { view := { x with items := rest }, outs := [], high := none } =
        ((s.at tm).lateTxCounted h).putHalf h ((((s.at tm).lateTxCounted h).half h).putViewer v (some { x with items := rest })) := by
      refine Eq.trans ?_ (State.sentBy_quiet (x := x) ((State.viewer_lateTxCounted _ h v).trans (by rw [State.half_at]; exact hx)) id)
      unfold State.leftBy
      dsimp only
      split
      · next is => exact absurd is (plain _ _ _)
      · rfl
      · rfl
    refine ⟨_, (exec_lateTxDiscard hv hx items paced late).trans (congrArg Host.Outcome.next quiet), ?_, ?_, ?_, ?_⟩
    · rw [State.half_putHalf, Half.viewer_putViewer]
    · rw [State.half_putHalf, State.lateTxCounted, State.half_putHalf, State.half_at]
      rfl
    · rw [State.half_peer_putHalf, State.lateTxCounted, State.half_peer_putHalf, State.half_at]
    · rw [State.putHalf_out, State.lateTxCounted, State.putHalf_out]
      rfl
  case last =>
    intro H u
    have counted : (s.at tm).lateTxCounted h = u := by
      rw [State.lateTxCounted, State.half_at]
    have there : (u.half h).viewer v = some x := by
      rw [← counted, State.viewer_lateTxCounted, State.half_at]
      exact hx
    rw [exec_lateTxDiscard hv hx items paced late, counted]
    simp only [State.leftBy, leaving]
    by_cases first : n = 0
    · rw [if_pos first, if_pos first]
      exact congrArg (fun t : State => Host.Outcome.next (t.endFlow h v)) (by rw [← leaving]; exact State.sentBy_quiet there id)
    · rw [if_neg first, if_neg first]
      exact congrArg Host.Outcome.next (State.sentBy_quiet there id)
  case timing =>
    refine ⟨(s.at tm).reportTiming h v x, { x.build (s.at tm).time 4 0 ((s.at tm).lane x.lane).frameNow 0xFFFF
      ((s.at tm).timingPayload x.lane 0 0 0 0) with timingAt := (s.at tm).time }, _, ?_, ?_, rfl, rfl, rfl, rfl, rfl, ?_, ?_⟩
    · change execTimingReport h v tm s = _
      rw [execTimingReport, if_neg (by omega)]
      simp only [State.half_at, hx]
      rw [if_pos joined]
    · rw [State.reportTiming, State.half_putHalf, Half.viewer_putViewer]
    · rw [State.reportTiming, State.half_peer_putHalf, State.half_at]
    · rw [State.reportTiming, State.putHalf_out]
      rfl
  case move =>
    intro now
    change execMoveRepeat h v tm s = _
    rw [execMoveRepeat, if_neg (by omega)]
    simp only [State.half_at, State.lane_at, hx, moving]
    exact if_pos ⟨due, joined⟩
  case leave =>
    intro u now
    have sent : exec (.leaveRepeat h v tm) s =
        if x.exhausted ∧ r ≠ 3 then .next (u.sentBy h v ({ x with state := 0 }.leave h u.time now 3))
        else match x.pays u.time 4 with
          | some y => .next ((u.sentBy h v (y.push h 6 0 now 0xFFFF (leavePayload r))).endFlow h v)
          | none => .next (u.putHalf h ((u.half h).putViewer v
              (some ({ x with rep := .leave r 0 last }.build u.time 6 0 now 0xFFFF (leavePayload r))))) := by
      change execLeaveRepeat h v tm s = _
      rw [execLeaveRepeat, if_neg (by omega)]
      simp only [State.half_at, State.lane_at, hx, leaving]
      exact if_pos ⟨due, trivial⟩
    have goes (h : x.exhausted = false ∨ r = 3) : ¬ (x.exhausted = true ∧ r ≠ 3) := by
      rintro ⟨used, other⟩
      exact h.elim (fun ok => Bool.false_ne_true (ok.symm.trans used)) (fun three => other three)
    refine ⟨fun used other => ?_, fun y going pays => ?_, fun going short => ?_⟩
    · rw [sent, if_pos ⟨used, other⟩]
    · rw [sent, if_neg (goes going), pays]
      rfl
    · rw [sent, if_neg (goes going), short]
      rfl

end Sys2Proof.Machine
end

section
/-! PROOFS. Messages of clients (R307 to R309, R321, R338, R350, R351, R361, R366, R378; O31). -/
namespace Sys2Proof.Machine
open Sys2Proof

/-! What an event leaves of a half: everything but its control flow and its event ring. -/

theorem Half.controlSend_only (H : Half) (h : HalfId) (p : Bytes) :
    ∃ c, (H.controlSend h p).1 = { H with net := { H.net with control := c } } := by
  unfold controlSend
  split
  · split
    · exact ⟨H.net.control, rfl⟩
    · split
      · exact ⟨none, rfl⟩
      · exact ⟨_, rfl⟩
  · exact ⟨H.net.control, rfl⟩
theorem Half.noteEvent_only (H : Half) (h : HalfId) (code lane frame time data : Nat) :
    ∃ c e, (H.noteEvent h code lane frame time data).1 = { H with net := { H.net with control := c }, ev := e } := by
  unfold noteEvent
  dsimp only
  split
  · split
    · obtain ⟨c, sent⟩ := controlSend_only { H with ev := _ } h (replyBytes 0 0xFFFF 32 0 0 0 0 ++ Event.bytes _ false)
      exact ⟨c, _, sent⟩
    · exact ⟨H.net.control, _, rfl⟩
  · exact ⟨H.net.control, _, rfl⟩
theorem Half.event_only (H : Half) (h : HalfId) (code lane frame time data : Nat) :
    ∃ c e, (H.event h code lane frame time data).1 = { H with net := { H.net with control := c }, ev := e } := by
  obtain ⟨c, e, noted⟩ := H.noteEvent_only h code lane frame time data
  unfold event seqHigh
  split
  · exact ⟨c, e, noted⟩
  · next d _ =>
    obtain ⟨c', e', high⟩ := (H.noteEvent h code lane frame time data).1.noteEvent_only h 0x0004 0xFFFF 0 time d
    exact ⟨c', e', by rw [high, noted]⟩

/-- That a half differs from another in its control flow and its event ring alone. -/
def Half.sameButEvents (H K : Half) : Prop := ∃ c e, K = { H with net := { H.net with control := c }, ev := e }
theorem Half.sameButEvents.refl (H : Half) : H.sameButEvents H := ⟨H.net.control, H.ev, rfl⟩
theorem Half.sameButEvents.trans {H K M : Half} (a : H.sameButEvents K) (b : K.sameButEvents M) : H.sameButEvents M := by
  obtain ⟨_, _, rfl⟩ := a
  obtain ⟨c, e, rfl⟩ := b
  exact ⟨c, e, rfl⟩
theorem Half.sameButEvents.viewer {H K : Half} (a : H.sameButEvents K) (v : Nat) : K.viewer v = H.viewer v := by
  obtain ⟨_, _, rfl⟩ := a
  rfl
theorem Half.sameButEvents.lanes {H K : Half} (a : H.sameButEvents K) : K.lanes = H.lanes := by
  obtain ⟨_, _, rfl⟩ := a
  rfl

theorem State.event_half (s : State) (h k : HalfId) (code lane frame data : Nat) :
    (s.half k).sameButEvents ((s.event h code lane frame data).half k) := by
  obtain ⟨c, e, only⟩ := (s.half h).event_only h code lane frame s.time data
  rw [State.half_event]
  by_cases own : k = h
  · rw [own, State.half_putHalf]
    exact ⟨c, e, only⟩
  · rw [State.half_putHalf_other _ _ _ _ own]
    exact .refl _
theorem State.ckptLost_half (s : State) (l n : Nat) (k : HalfId) : (s.half k).sameButEvents ((s.ckptLost l n).half k) := by
  induction n generalizing s with
  | zero => exact .refl _
  | succ n ih => exact (s.event_half ..).trans (ih _)

/-! The receipt of a message. -/

theorem State.client_noted {s : State} {h o : HalfId} {rx : Rx} {tm type v : Nat} {x : Viewer} {fl : Flow} {p : Bytes}
    {f : State → HalfId → Nat → Viewer → Bytes → State} (hears : (s.at tm).hears h rx type o v x fl p) (other : type ≠ 0x86) :
    s.client h rx tm type f = .next (f ((s.at tm).noted o v x fl) o v (x.noted fl (s.at tm).time) p) := by
  obtain ⟨hd, received, rfl, on, bound⟩ := hears
  have stays : (decide (x.state = 3) || (decide (hd.type ≠ 0x86) && !fl.boundTo rx)) = false := by
    simp [on, bound other]
  simp only [client, received, ne_eq, not_true_eq_false, if_false]
  rw [if_neg (by rw [stays]; exact Bool.false_ne_true), if_neg other]
  simp only [State.noted, Viewer.noted, State.half_putHalf, State.putHalf_putHalf, State.putHalf_time]
theorem State.client_join {s : State} {h o : HalfId} {rx : Rx} {tm v : Nat} {x : Viewer} {fl : Flow} {p : Bytes}
    {f : State → HalfId → Nat → Viewer → Bytes → State} (hears : (s.at tm).hears h rx 0x86 o v x fl p) :
    s.client h rx tm 0x86 f =
      .next (f ((s.at tm).putHalf o (((s.at tm).half o).putViewer v (some { x with flow := fl }))) o v { x with flow := fl } p) := by
  obtain ⟨hd, received, type, on, _⟩ := hears
  simp only [client, received, type, ne_eq, not_true_eq_false, if_false, decide_false, Bool.false_and, Bool.or_false, on, Bool.false_eq_true,
    if_true]

/-- What the note of a receipt changes: one viewer. -/
theorem State.half_noted (s : State) (o : HalfId) (v : Nat) (x : Viewer) (fl : Flow) :
    s.noted o v x fl = s.putHalf o (((s.half o).putViewer v (some { x with flow := fl })).putViewer v (some (x.noted fl s.time))) := by
  simp only [noted, State.half_putHalf, State.putHalf_putHalf]
theorem State.lane_putHalf {s : State} {h : HalfId} {H : Half} (same : H.lanes = (s.half h).lanes) (l : Nat) :
    (s.putHalf h H).lane l = s.lane l := by
  simp only [State.lane, Half.lane, State.lanes_putHalf s h _ H same]
@[simp] theorem State.lane_noted (s : State) (o : HalfId) (v : Nat) (x : Viewer) (fl : Flow) (l : Nat) : (s.noted o v x fl).lane l = s.lane l := by
  rw [half_noted]
  exact lane_putHalf (by rfl) l
@[simp] theorem State.time_noted (s : State) (o : HalfId) (v : Nat) (x : Viewer) (fl : Flow) : (s.noted o v x fl).time = s.time := by
  rw [half_noted, State.putHalf_time]

/-! An input that enters the log of its lane. -/

theorem mem_insertInput (i : LaneInput) (l : List LaneInput) : i ∈ insertInput i l := by
  induction l with
  | nil => exact List.mem_singleton_self i
  | cons j t ih =>
    unfold insertInput
    split
    · exact List.mem_cons_of_mem _ ih
    · exact List.mem_cons_self
/-- What making room leaves of a lane. -/
def Lane.roomFrame (L : Lane) : Mem × Sparse Thread × List BeamEntry × Sparse Bytes × Sparse Bytes :=
  (L.mem, L.th, L.queue, L.lastPads, L.lastAcc)
theorem Lane.roomFrame_trimPages (L : Lane) : L.trimPages.roomFrame = L.roomFrame := by
  unfold trimPages
  split <;> rfl
theorem Lane.roomFrame_trimLog (L : Lane) : L.trimLog.roomFrame = L.roomFrame := rfl
theorem Lane.roomFrame_lost (L : Lane) :
    ({ L with ckpts := [], pages := [], lostCkpts := satBits 32 (L.lostCkpts + 1) } : Lane).roomFrame = L.roomFrame := rfl
theorem Lane.roomFrame_makeRoom (L : Lane) : L.makeRoom.1.roomFrame = L.roomFrame := by
  unfold makeRoom
  dsimp only
  split
  · rfl
  · split
    · exact (roomFrame_trimLog _).trans (roomFrame_trimPages _)
    · exact (roomFrame_trimLog _).trans ((roomFrame_lost _).trans ((roomFrame_trimLog _).trans (roomFrame_trimPages _)))
/-- The input is in the log of the lane, whose memory, threads and queue stay. -/
theorem State.logInput_lane (s : State) (l : Nat) (L : Lane) (vt kind slot : Nat) (data : Bytes) (cmd : Option Nat) :
    ∃ i ∈ ((s.logInput l L vt kind slot data cmd).lane l).inputs, i.kind = kind ∧ i.slot = slot ∧ i.vt = vt ∧ i.data = data ∧ i.applied = false ∧
      ((s.logInput l L vt kind slot data cmd).lane l).roomFrame = L.roomFrame := by
  have lane : (s.logInput l L vt kind slot data cmd).lane l = L.makeRoom.1.addInput vt kind slot data cmd := by
    rw [logInput, State.lane_ckptLost, State.lane_putLane]
  rw [lane]
  exact ⟨_, mem_insertInput _ _, rfl, rfl, rfl, rfl, rfl, L.roomFrame_makeRoom⟩
theorem State.viewer_logInput (s : State) (l : Nat) (L : Lane) (vt kind slot : Nat) (data : Bytes) (cmd : Option Nat) (h : HalfId) (v : Nat) :
    ((s.logInput l L vt kind slot data cmd).half h).viewer v = (s.half h).viewer v := by
  rw [logInput, (State.ckptLost_half _ _ _ h).viewer]
  exact congrArg (fun n : Net => Sparse.get noViewer n.viewers v) (State.net_putLane ..)
theorem Lane.roomFrame_edge (L : Lane) (pad acc net : Bool) : (L.edge pad acc net).roomFrame = L.roomFrame := by
  unfold edge
  dsimp only
  split <;> rfl

/-- Settles O31: the round trip and the blocks follow an ACK, and a new pad or accessory state enters the log. -/
theorem clientMessages : Obligations.ClientMessages := by
  refine ⟨fun h rx tm o v x fl p s hears => ?ack, fun h rx tm o v x fl p s hears may new => ?input,
    fun h rx tm o v x fl p s hears may same => ?same, fun h rx tm o v x fl p s hears may new => ?accessory⟩
  case ack =>
    refine ⟨_, (State.client_noted hears (by decide) : execAck h rx tm s = _), ?_, fun w hw => ?_, ?_, ?_, ?_⟩
    · rw [State.half_putHalf, Half.viewer_putViewer, State.lane_noted, State.lane_at, State.time_noted]
      rfl
    · rw [State.half_putHalf, Half.viewer_putViewer_other _ _ hw, State.half_noted, State.half_putHalf, Half.viewer_putViewer_other _ _ hw,
        Half.viewer_putViewer_other _ _ hw, State.half_at]
    · rw [State.half_putHalf, State.half_noted, State.half_putHalf, State.half_at]
      rfl
    · rw [State.half_peer_putHalf, State.half_noted, State.half_peer_putHalf, State.half_at]
    · rw [State.putHalf_out, State.half_noted, State.putHalf_out]
      rfl
  case input =>
    obtain ⟨i, logged, kind, slot, vt, bytes, waits, frame⟩ := (((s.at tm).noted o v x fl).putHalf o
      ((((s.at tm).noted o v x fl).half o).putViewer v (some { x.noted fl (s.at tm).time with shown := leAt p 16 4 }))).logInput_lane x.lane
      (Lane.edge { s.lane x.lane with lastPads := Sparse.set padZero (s.lane x.lane).lastPads x.slot (padState p) } true false true)
      (s.lane x.lane).inputVt 1 x.slot (padState p) none
    rw [Lane.roomFrame_edge] at frame
    simp only [Lane.roomFrame, Prod.mk.injEq] at frame
    obtain ⟨mem, th, queue, pads, _⟩ := frame
    refine ⟨_, i, ?_, logged, kind, slot, vt, bytes, waits, ?_, mem, th, queue⟩
    · refine (State.client_noted hears (by decide) : execInput h rx tm s = _).trans (congrArg Host.Outcome.next ?_)
      have mayNoted : (x.noted fl (s.at tm).time).mayInput = true := may
      have lane : (((s.at tm).noted o v x fl).putHalf o ((((s.at tm).noted o v x fl).half o).putViewer v
          (some { x.noted fl (s.at tm).time with shown := leAt p 16 4 }))).lane (x.noted fl (s.at tm).time).lane = s.lane x.lane := by
        rw [State.lane_putHalf (by rfl), State.lane_noted, State.lane_at]
        rfl
      simp only [mayNoted, Bool.not_true, Bool.false_eq_true, if_false, lane]
      exact if_neg new
    · rw [pads]
      exact Sparse.get_set_same ..
  case same =>
    refine ⟨((s.at tm).noted o v x fl).putHalf o
      ((((s.at tm).noted o v x fl).half o).putViewer v (some { x.noted fl (s.at tm).time with shown := leAt p 16 4 })),
      { x.noted fl (s.at tm).time with shown := leAt p 16 4 }, ?_, ?_, rfl, rfl, ?_, ?_, ?_⟩
    · refine (State.client_noted hears (by decide) : execInput h rx tm s = _).trans (congrArg Host.Outcome.next ?_)
      have mayNoted : (x.noted fl (s.at tm).time).mayInput = true := may
      have lane : (((s.at tm).noted o v x fl).putHalf o ((((s.at tm).noted o v x fl).half o).putViewer v
          (some { x.noted fl (s.at tm).time with shown := leAt p 16 4 }))).lane (x.noted fl (s.at tm).time).lane = s.lane x.lane := by
        rw [State.lane_putHalf (by rfl), State.lane_noted, State.lane_at]
        rfl
      simp only [mayNoted, Bool.not_true, Bool.false_eq_true, if_false, lane]
      exact if_pos same
    · rw [State.half_putHalf, Half.viewer_putViewer]
    · rw [State.half_putHalf, State.half_noted, State.half_putHalf, State.half_at]
      rfl
    · rw [State.half_peer_putHalf, State.half_noted, State.half_peer_putHalf, State.half_at]
    · rw [State.putHalf_out, State.half_noted, State.putHalf_out]
      rfl
  case accessory =>
    obtain ⟨i, logged, kind, slot, vt, bytes, waits, frame⟩ := ((s.at tm).noted o v x fl).logInput_lane x.lane
      (Lane.edge { s.lane x.lane with
        lastAcc := Sparse.set accZero (s.lane x.lane).lastAcc v p,
        audio := (s.lane x.lane).audio.setMute x.slot (accMute ((s.lane x.lane).audio.muted.getD x.slot true)
          (Sparse.get accZero (s.lane x.lane).lastAcc v) p) (fun o => (s.lane x.lane).unit.reg (0x38000 + 8 * o)) } false true false)
      (s.lane x.lane).inputVt 2 x.slot (p ++ Sparse.get accZero (s.lane x.lane).lastAcc v) none
    rw [Lane.roomFrame_edge] at frame
    simp only [Lane.roomFrame, Prod.mk.injEq] at frame
    obtain ⟨mem, th, _, _, acc⟩ := frame
    refine ⟨_, i, ?_, logged, kind, slot, vt, bytes, waits, ?_, mem, th⟩
    · refine (State.client_noted hears (by decide) : execAccessory h rx tm s = _).trans (congrArg Host.Outcome.next ?_)
      have mayNoted : (x.noted fl (s.at tm).time).mayInput = true := may
      have lane : ((s.at tm).noted o v x fl).lane (x.noted fl (s.at tm).time).lane = s.lane x.lane := by
        rw [State.lane_noted, State.lane_at]
        rfl
      simp only [mayNoted, Bool.not_true, Bool.false_eq_true, if_false, lane]
      exact if_neg new
    · rw [acc]
      exact Sparse.get_set_same ..

end Sys2Proof.Machine
end

section
/-! PROOFS. REFRESH, VOICE, JOIN, PROBE and COMMAND (R309, R310, R321, R353, R354, R356, R372 to R375, R419; O32, O33). -/
namespace Sys2Proof.Machine
open Sys2Proof

/-! The refresh lock (R374, R375). -/

/-- A lock that stays as it was: the period of the display differs by too much. -/
theorem Lock.step_apart {k : Lock} {L : Lane} {lead delta : Int} {rp time : Nat} (off : k.lock = 0) (far : 5000 < ratAbs (L.entryI0 rp)) :
    k.step L lead delta rp time = { k with rper := some rp, lastAt := time } := by
  unfold step
  exact if_pos ⟨off, far⟩
/-- The counts judged: LOCK 2 after 60 good entries, LOCK 1 after 8 bad ones (R375). -/
def Lock.judged (k : Lock) : Lock :=
  if k.lock = 1 ∧ 60 ≤ k.good then { k with lock := 2, good := 0, bad := 0 }
  else if k.lock = 2 ∧ 8 ≤ k.bad then { k with lock := 1, good := 0, bad := 0 } else k
/-- An entry of any other period is counted, an unlocked lane at LOCK 1 first, and the counts are judged. -/
theorem Lock.step_near {k : Lock} {L : Lane} {lead delta : Int} {rp time : Nat} (near : ¬ (k.lock = 0 ∧ 5000 < ratAbs (L.entryI0 rp))) :
    ∃ j : Lock, k.step L lead delta rp time = j.judged ∧ j.lock = (if k.lock = 0 then 1 else k.lock) ∧
      j.good = (if ratAbs (halfPeriod (((delta - 1000 * lead : Int) : Rat) / L.period)) < 1 / 100
        then (if k.lock = 0 then 0 else k.good) + 1 else 0) ∧
      j.bad = (if 1 / 20 ≤ ratAbs (halfPeriod (((delta - 1000 * lead : Int) : Rat) / L.period))
        then (if k.lock = 0 then 0 else k.bad) + 1 else 0) := by
  unfold step
  rw [if_neg near]
  refine ⟨_, rfl, ?_, ?_, ?_⟩
  · by_cases off : k.lock = 0
    · simp only [off, if_true]
    · simp only [off, if_false]
  · by_cases off : k.lock = 0
    · simp only [off, if_true]
    · simp only [off, if_false]
  · by_cases off : k.lock = 0
    · simp only [off, if_true]
    · simp only [off, if_false]

theorem Lock.judged_one {j : Lock} (h : j.lock = 1) : j.judged.lock = (if 60 ≤ j.good then 2 else 1) ∧ (j.good = 0 → j.judged.good = 0) := by
  unfold judged
  by_cases many : 60 ≤ j.good
  · rw [if_pos ⟨h, many⟩, if_pos many]
    exact ⟨rfl, fun _ => rfl⟩
  · rw [if_neg (fun c => many c.2), if_neg (fun c => by omega), if_neg many]
    exact ⟨h, id⟩
theorem Lock.judged_two {j : Lock} (h : j.lock = 2) : j.judged.lock = (if 8 ≤ j.bad then 1 else 2) ∧ (j.bad = 0 → j.judged.bad = 0) := by
  unfold judged
  rw [if_neg (fun c => by omega)]
  by_cases many : 8 ≤ j.bad
  · rw [if_pos ⟨h, many⟩, if_pos many]
    exact ⟨rfl, fun _ => rfl⟩
  · rw [if_neg (fun c => many c.2), if_neg many]
    exact ⟨h, id⟩

@[simp] theorem State.netLane_at (s : State) (tm l : Nat) : (s.at tm).netLane l = s.netLane l := by rw [netLane, half_at, netLane]
@[simp] theorem State.netLane_noted (s : State) (o : HalfId) (v : Nat) (x : Viewer) (fl : Flow) (l : Nat) :
    (s.noted o v x fl).netLane l = s.netLane l := by
  rw [half_noted, netLane, netLane]
  by_cases same : halfOf l = o
  · rw [same, State.half_putHalf]
    rfl
  · rw [State.half_putHalf_other _ _ _ _ same]

theorem VoiceDec.receive_new {d : VoiceDec} {p : VoicePkt} (newer : ∀ q, d.lastSeq = some q → q < p.seq) (other : ∀ q ∈ d.store, q.seq ≠ p.seq) :
    d.receive p = { d with store := trimVoice (d.store ++ [p]) } := by
  have late : (match d.lastSeq with | some q => decide (p.seq ≤ q) | none => false) = false := by
    cases e : d.lastSeq with
    | none => rfl
    | some q => exact decide_eq_false (Int.not_le.mpr (newer q e))
  have held : d.store.any (fun q => decide (q.seq = p.seq)) = false :=
    List.any_eq_false.2 fun q hq => by simpa using other q hq
  unfold receive
  exact if_neg (by rw [held, Bool.or_false]; exact fun h => Bool.false_ne_true (late.symm.trans h))

/-- Settles O32: the pacing viewer's REFRESH steers its lane, a new VOICE packet is stored, and the lock counts good and bad entries. -/
theorem refreshAndVoice : Obligations.RefreshAndVoice := by
  refine ⟨fun h rx tm o v x fl p s hears => ?refresh, fun h rx tm o v x fl p s hears may => ?voice, fun k L lead delta rp time => ?lock⟩
  case refresh =>
    intro w n
    refine (State.client_noted hears (by decide) : execRefresh h rx tm s = _).trans (congrArg Host.Outcome.next ?_)
    have lane : (x.noted fl (s.at tm).time).lane = x.lane := rfl
    have state : (x.noted fl (s.at tm).time).state = x.state := rfl
    simp only [lane, state, State.netLane_noted, State.netLane_at, Bool.and_eq_true, decide_eq_true_eq, and_assoc]
    rfl
  case voice =>
    intro d q seq open' newer other
    have mayNoted : (x.noted fl (s.at tm).time).mayInput = true := may
    have lane : ((s.at tm).noted o v x fl).lane (x.noted fl (s.at tm).time).lane = s.lane x.lane := by
      rw [State.lane_noted, State.lane_at]
      rfl
    have stored := VoiceDec.receive_new (d := d) (p := { seq := seq, hi := decide (leAt p 0 1 = 1), data := slice p 4 (leAt p 2 2) }) newer other
    refine ⟨((s.at tm).noted o v x fl).putLane x.lane ((s.lane x.lane).mapVoice x.slot
      (·.receive { seq := seq, hi := decide (leAt p 0 1 = 1), data := slice p 4 (leAt p 2 2) })),
      { seq := seq, hi := decide (leAt p 0 1 = 1), data := slice p 4 (leAt p 2 2) }, ?_, ?_, rfl, rfl, ?_, ?_⟩
    · change execVoice h rx tm s = _
      unfold execVoice
      refine (State.client_noted hears (by decide)).trans (congrArg Host.Outcome.next ?_)
      simp only [mayNoted, Bool.not_true, Bool.false_eq_true, if_false, lane]
      exact if_neg (by rw [show (x.noted fl (s.at tm).time).slot = x.slot from rfl, open']; exact Bool.false_ne_true)
    · rw [State.lane_putLane]
      exact (congrArg VoiceDec.store (Sparse.get_set_same ..)).trans (congrArg VoiceDec.store stored)
    · rw [State.lane_putLane]
      rfl
    · rw [State.lane_putLane]
      rfl
  case lock =>
    intro n e
    refine ⟨fun off far => ?_, fun off close => ?_, fun one small => ?_, fun one large => ?_, fun two large => ?_, fun two small => ?_⟩
    · rw [show n = _ from Lock.step_apart off far]
      exact ⟨off, rfl⟩
    · obtain ⟨j, step, lock, good, _⟩ := Lock.step_near (k := k) (L := L) (lead := lead) (delta := delta) (rp := rp) (time := time)
        (fun c => absurd c.2 (Rat.not_lt.mpr close))
      rw [if_pos off] at lock
      have few : ¬ 60 ≤ j.good := by
        rw [good, if_pos off]
        split <;> omega
      rw [show n = j.judged from step, (Lock.judged_one lock).1, if_neg few]
    · obtain ⟨j, step, lock, good, _⟩ := Lock.step_near (k := k) (L := L) (lead := lead) (delta := delta) (rp := rp) (time := time)
        (fun c => by omega)
      rw [if_neg (by omega), one] at lock
      rw [if_pos small, if_neg (by omega)] at good
      rw [show n = j.judged from step, (Lock.judged_one lock).1, good]
      exact ite_congr (propext (by omega)) (fun _ => rfl) (fun _ => rfl)
    · obtain ⟨j, step, lock, good, _⟩ := Lock.step_near (k := k) (L := L) (lead := lead) (delta := delta) (rp := rp) (time := time)
        (fun c => by omega)
      rw [if_neg (by omega), one] at lock
      rw [if_neg (Rat.not_lt.mpr large)] at good
      rw [show n = j.judged from step, (Lock.judged_one lock).1, good]
      exact ⟨if_neg (by omega), (Lock.judged_one lock).2 good⟩
    · obtain ⟨j, step, lock, _, bad⟩ := Lock.step_near (k := k) (L := L) (lead := lead) (delta := delta) (rp := rp) (time := time)
        (fun c => by omega)
      rw [if_neg (by omega), two] at lock
      rw [if_pos large, if_neg (by omega)] at bad
      rw [show n = j.judged from step, (Lock.judged_two lock).1, bad]
      exact ite_congr (propext (by omega)) (fun _ => rfl) (fun _ => rfl)
    · obtain ⟨j, step, lock, _, bad⟩ := Lock.step_near (k := k) (L := L) (lead := lead) (delta := delta) (rp := rp) (time := time)
        (fun c => by omega)
      rw [if_neg (by omega), two] at lock
      rw [if_neg (Rat.not_le.mpr small)] at bad
      rw [show n = j.judged from step, (Lock.judged_two lock).1, bad]
      exact ⟨if_neg (by omega), (Lock.judged_two lock).2 bad⟩

/-! JOIN, PROBE and COMMAND. -/

theorem State.viewer_viewerChange (s : State) (l : Nat) (cleared : Option Nat) (h : HalfId) (v : Nat) :
    ((s.viewerChange l cleared).half h).viewer v = (s.half h).viewer v := by
  unfold viewerChange
  dsimp only
  split
  · rfl
  · exact State.viewer_logInput ..
theorem State.viewer_reportTiming (s : State) (h : HalfId) (v : Nat) (x : Viewer) :
    ∃ z, ((s.reportTiming h v x).half h).viewer v = some z ∧ z.state = x.state ∧ z.flow = x.flow ∧ z.joinAt = x.joinAt ∧
      z.lastRx = x.lastRx ∧ z.keyDue = x.keyDue ∧ z.lane = x.lane := by
  refine ⟨{ x.build s.time 4 0 (s.lane x.lane).frameNow 0xFFFF (s.timingPayload x.lane 0 0 0 0) with timingAt := s.time }, ?_,
    rfl, rfl, rfl, rfl, rfl, rfl⟩
  rw [reportTiming, State.half_putHalf, Half.viewer_putViewer]
theorem State.timingPayload_noted (s : State) (o : HalfId) (v : Nat) (x : Viewer) (fl : Flow) (l kind token ctime rx : Nat) :
    (s.noted o v x fl).timingPayload l kind token ctime rx = s.timingPayload l kind token ctime rx := by
  simp only [timingPayload, State.lane_noted, State.netLane_noted]

/-- The viewer as a valid JOIN leaves it (R321, R353, R361). -/
def Viewer.joins (x : Viewer) (rx : Rx) (pm time : Nat) : Viewer :=
  Viewer.recut { x with
    flow := { x.flow with bound := some (rx.src, rx.sport), pmax := if pm = 0 then x.flow.pmaxCmd else max 1024 (min x.flow.pmaxCmd pm) },
    state := 1, joinAt := some time, lastRx := time, keyDue := x.keyDue ++ [0], slotJoined := x.player || x.slotJoined,
    selects := if x.state = 1 then x.selects else true }

/-- The state once viewer `v` of half `o` has joined from `rx`. -/
def State.joined (s : State) (o : HalfId) (v : Nat) (x : Viewer) (rx : Rx) (p : Bytes) : State :=
  let u := s.putHalf o ((s.half o).putViewer v (some x))
  let y := x.joins rx (leAt p 2 2) s.time
  let w := (u.putHalf o ((u.half o).putViewer v (some y))).reportTiming o v y
  if (if x.player then !x.slotJoined else decide (x.state ≠ 1)) then w.viewerChange x.lane none else w
theorem State.viewer_joined (s : State) (o : HalfId) (v : Nat) (x : Viewer) (rx : Rx) (p : Bytes) :
    ∃ z, ((s.joined o v x rx p).half o).viewer v = some z ∧ z.state = 1 ∧
      z.flow = { x.flow with bound := some (rx.src, rx.sport),
                             pmax := if leAt p 2 2 = 0 then x.flow.pmaxCmd else max 1024 (min x.flow.pmaxCmd (leAt p 2 2)) } ∧
      z.joinAt = some s.time ∧ z.lastRx = s.time ∧ z.keyDue = x.keyDue ++ [0] ∧ z.lane = x.lane := by
  have joins : (x.joins rx (leAt p 2 2) s.time).state = 1 ∧ (x.joins rx (leAt p 2 2) s.time).joinAt = some s.time ∧
      (x.joins rx (leAt p 2 2) s.time).lastRx = s.time ∧ (x.joins rx (leAt p 2 2) s.time).keyDue = x.keyDue ++ [0] ∧
      (x.joins rx (leAt p 2 2) s.time).lane = x.lane := ⟨rfl, rfl, rfl, rfl, rfl⟩
  have bound : (x.joins rx (leAt p 2 2) s.time).flow = { x.flow with
      bound := some (rx.src, rx.sport),
      pmax := if leAt p 2 2 = 0 then x.flow.pmaxCmd else max 1024 (min x.flow.pmaxCmd (leAt p 2 2)) } := rfl
  unfold joined
  generalize x.joins rx (leAt p 2 2) s.time = y at joins bound ⊢
  obtain ⟨yState, yJoin, yRx, yKey, yLane⟩ := joins
  dsimp only
  generalize s.putHalf o ((s.half o).putViewer v (some x)) = u
  obtain ⟨z, viewer, state, flow, joinAt, lastRx, keyDue, lane⟩ := (u.putHalf o ((u.half o).putViewer v (some y))).viewer_reportTiming o v y
  refine ⟨z, ?_, state.trans yState, flow.trans bound, joinAt.trans yJoin, lastRx.trans yRx, keyDue.trans yKey, lane.trans yLane⟩
  by_cases fresh : (if x.player then !x.slotJoined else decide (x.state ≠ 1)) = true
  · rw [if_pos fresh, State.viewer_viewerChange, viewer]
  · rw [if_neg fresh, viewer]

/-- The viewer once its PROBE is answered (R354). -/
def State.probed (s : State) (x : Viewer) (p : Bytes) : Viewer :=
  x.build s.time 4 0 (s.lane x.lane).frameNow 0xFFFF (s.timingPayload x.lane 1 (leAt p 0 4) (leAt p 4 8) s.time)

/-- A packet that is not known yet from a control flow with room enters flight (R419). -/
theorem State.controlPacket_accepts {s : State} {o : HalfId} {c : Control} {p : Bytes} (new : ∀ k ∈ c.kept, k.1 ≠ p.take 32)
    (other : ∀ d ∈ s.cmds, d.src = .control o → d.header ≠ p.take 32) (room : s.cmds.length < 1024) (few : s.inFlight (.control o) < 256) :
    s.controlPacket o c p = s.accept (.control o) (p.take 32) (p.drop 32) := by
  have unknown : c.kept.find? (fun k => decide (k.1 = p.take 32) && decide (s.time ≤ k.2.2 + 10000000000)) = none :=
    List.find?_eq_none.2 fun k hk => by simp [new k hk]
  have once : s.cmds.any (fun d => decide (d.src = .control o) && decide (d.header = p.take 32)) = false :=
    List.any_eq_false.2 fun d hd => by
      rw [Bool.and_eq_true, decide_eq_true_eq, decide_eq_true_eq]
      exact fun h => other d hd h.1 h.2
  simp only [controlPacket, unknown, once, Bool.false_eq_true, if_false]
  exact if_neg (by omega)

/-- Settles O33: JOIN binds and joins, PROBE is answered, and a new COMMAND packet enters flight. -/
theorem joinProbeCommand : Obligations.JoinProbeCommand := by
  refine ⟨fun h rx tm o v x fl p s hears rested => ?join, fun h rx tm o v x fl p s hears soon => ?again,
    fun h rx tm o v x fl p s hears joined => ?probe, fun h rx tm o c hd fl p s received serves new other room few => ?command⟩
  case join =>
    have late : (match x.joinAt with | some t => decide ((s.at tm).time < t + 250000000) | none => false) = false := by
      cases e : x.joinAt with
      | none => rfl
      | some t => exact decide_eq_false (Nat.not_lt.mpr (rested t e))
    obtain ⟨z, viewer, state, flow, joinAt, lastRx, keyDue, lane⟩ := (s.at tm).viewer_joined o v { x with flow := fl } rx p
    refine ⟨_, z, ?_, viewer, state, by rw [flow], by rw [flow], joinAt, lastRx, keyDue, lane⟩
    refine (State.client_join hears : execJoin h rx tm s = _).trans (congrArg Host.Outcome.next ?_)
    exact (if_neg (by rw [State.putHalf_time]; exact fun c => Bool.false_ne_true (late.symm.trans c))).trans (by rw [State.putHalf_time]; rfl)
  case again =>
    obtain ⟨t, joinAt, early⟩ := soon
    refine ⟨(s.at tm).putHalf o (((s.at tm).half o).putViewer v (some { x with flow := fl })), ?_, ?_, ?_, ?_⟩
    · refine (State.client_join hears : execJoin h rx tm s = _).trans (congrArg Host.Outcome.next ?_)
      exact if_pos (by simp [joinAt, early])
    · rw [State.half_putHalf, Half.viewer_putViewer]
    · rw [State.putHalf_out]
      rfl
    · rw [State.half_putHalf, State.half_at]
      rfl
  case probe =>
    refine ⟨((s.at tm).noted o v x fl).putHalf o ((((s.at tm).noted o v x fl).half o).putViewer v
      (some (((s.at tm).noted o v x fl).probed (x.noted fl (s.at tm).time) p))), ((s.at tm).noted o v x fl).probed (x.noted fl (s.at tm).time) p,
      _, ?_, ?_, rfl, rfl, ?_, rfl, ?_, ?_⟩
    · refine (State.client_noted hears (by decide) : execProbe h rx tm s = _).trans (congrArg Host.Outcome.next ?_)
      exact if_neg (fun c => c joined)
    · rw [State.half_putHalf, Half.viewer_putViewer]
    · refine (State.timingPayload_noted ..).trans ?_
      rw [State.time_noted]
      rfl
    · rw [State.half_putHalf, State.half_noted, State.half_putHalf, State.half_at]
      rfl
    · rw [State.putHalf_out, State.half_noted, State.putHalf_out]
      rfl
  case command =>
    refine ⟨_, rfl, _, rfl, ?_⟩
    change execCommand h rx tm s = _
    unfold execCommand
    simp only [received, State.half_at, serves, Bool.not_true, Bool.false_eq_true, if_false]
    refine congrArg Host.Outcome.next (State.controlPacket_accepts new ?_ ?_ ?_)
    · rw [State.putHalf_cmds]
      exact other
    · rw [State.putHalf_cmds]
      exact room
    · rw [State.inFlight, State.putHalf_cmds]
      exact few

end Sys2Proof.Machine
end

section
/-! PROOFS. Sub-ports, discards and silence (R316, R358, R361, R375, R382, R383, R385; O34). -/
namespace Sys2Proof.Machine
open Sys2Proof

@[simp] theorem Half.sub_putSub (H : Half) (k : Nat) (p : SubPort) : (H.putSub k p).sub k = p := Sparse.get_set_same ..
theorem Half.sameButEvents.sub {H K : Half} (a : H.sameButEvents K) (k : Nat) : K.sub k = H.sub k := by
  obtain ⟨_, _, rfl⟩ := a
  rfl

theorem HalfId.ne_peer (h : HalfId) : h ≠ HalfId.peer h := by cases h <;> decide
@[simp] theorem HalfId.peer_peer (h : HalfId) : HalfId.peer (HalfId.peer h) = h := by cases h <;> rfl
/-- The half beside the one that is replaced. -/
theorem State.half_putHalf_peer (s : State) (h : HalfId) (H : Half) : (s.putHalf (HalfId.peer h) H).half h = s.half h :=
  State.half_putHalf_other _ _ _ _ (HalfId.ne_peer h)

/-! A sub-port that begins or ceases to carry the other's (R383, R385). -/

/-- The sub-port once that is settled. -/
def SubPort.settled (q : SubPort) (on : Bool) : SubPort :=
  if on = q.carry then q else { q with carry := on, announce := if on then 3 else 0 }
theorem SubPort.settled_keeps (q : SubPort) (on : Bool) :
    (q.settled on).failed = q.failed ∧ (q.settled on).up = q.up ∧ (q.settled on).upSince = q.upSince ∧ (q.settled on).back = q.back ∧
      (q.settled on).carry = on := by
  unfold settled
  split
  · next same => exact ⟨rfl, rfl, rfl, rfl, same.symm⟩
  · exact ⟨rfl, rfl, rfl, rfl, rfl⟩


theorem State.settleSub_same {s : State} {g : HalfId} {k : Nat} (same : s.mayCarry g k = ((s.half g).sub k).carry) : s.settleSub g k = s := by
  unfold settleSub
  exact if_pos same
/-- The sub-port itself, its half's lanes and the port's settings. -/
theorem State.half_settleSub (s : State) (g : HalfId) (k : Nat) :
    ((s.settleSub g k).half g).sub k = ((s.half g).sub k).settled (s.mayCarry g k) ∧ ((s.settleSub g k).half g).lanes = (s.half g).lanes ∧
      ((s.settleSub g k).half g).net.mode = (s.half g).net.mode ∧ ((s.settleSub g k).half g).net.foEn = (s.half g).net.foEn := by
  unfold settleSub
  by_cases same : s.mayCarry g k = ((s.half g).sub k).carry
  · rw [SubPort.settled, if_pos same, if_pos same]
    exact ⟨rfl, rfl, rfl, rfl⟩
  · rw [SubPort.settled, if_neg same]
    dsimp only
    rw [if_neg same]
    cases on : s.mayCarry g k with
    | true =>
      obtain ⟨c, e, event⟩ := State.event_half (s.putHalf g ((s.half g).putSub k { (s.half g).sub k with carry := true, announce := 3 }))
        (HalfId.peer g) g 0x000D 0xFFFF 0 (k + 256)
      simp only [if_true]
      rw [event, State.half_putHalf]
      exact ⟨Half.sub_putSub .., rfl, rfl, rfl⟩
    | false =>
      simp only [Bool.false_eq_true, if_false]
      rw [State.half_putHalf, Half.sub_putSub]
      exact ⟨rfl, rfl, rfl, rfl⟩
/-- The other half, but for an event. -/
theorem State.peer_settleSub (s : State) (g : HalfId) (k : Nat) :
    (s.half (HalfId.peer g)).sameButEvents ((s.settleSub g k).half (HalfId.peer g)) := by
  unfold settleSub
  dsimp only
  split
  · exact .refl _
  · have put (p : SubPort) : (s.half (HalfId.peer g)).sameButEvents ((s.putHalf g ((s.half g).putSub k p)).half (HalfId.peer g)) := by
      rw [State.half_peer_putHalf]
      exact .refl _
    split
    · exact (put _).trans (State.event_half ..)
    · exact put _
/-- With no work taken over there is no event. -/
theorem State.settleSub_off {s : State} {g : HalfId} {k : Nat} (off : s.mayCarry g k = false) :
    s.settleSub g k = s.putHalf g ((s.half g).putSub k (((s.half g).sub k).settled false)) ∨ s.settleSub g k = s ∧ ((s.half g).sub k).carry = false := by
  unfold settleSub SubPort.settled
  rw [off]
  by_cases same : false = ((s.half g).sub k).carry
  · rw [if_pos same]
    exact .inr ⟨rfl, same.symm⟩
  · rw [if_neg same, if_neg same]
    exact .inl rfl
theorem State.peer_settleSub_off {s : State} {g : HalfId} {k : Nat} (off : s.mayCarry g k = false) :
    (s.settleSub g k).half (HalfId.peer g) = s.half (HalfId.peer g) ∧ (s.settleSub g k).out = s.out := by
  obtain put | ⟨same, _⟩ := State.settleSub_off off
  · rw [put, State.half_peer_putHalf, State.putHalf_out]
    exact ⟨rfl, rfl⟩
  · rw [same]
    exact ⟨rfl, rfl⟩

/-- What decides it reads nothing of an event. -/
theorem State.mayCarry_congr {s t : State} {g : HalfId} (k : Nat) (own : (s.half g).sameButEvents (t.half g))
    (peer : (s.half (HalfId.peer g)).sameButEvents (t.half (HalfId.peer g))) : t.mayCarry g k = s.mayCarry g k := by
  obtain ⟨_, _, own⟩ := own
  obtain ⟨_, _, peer⟩ := peer
  simp only [mayCarry, own, peer]
  rfl
theorem State.mayCarry_of_failed {s : State} {g : HalfId} {k : Nat} (h : ((s.half g).sub k).failed = true) : s.mayCarry g k = false := by
  simp [mayCarry, h]
theorem State.mayCarry_of_peer_works {s : State} {g : HalfId} {k : Nat} (h : ((s.half (HalfId.peer g)).sub k).failed = false) :
    s.mayCarry g k = false := by
  simp [mayCarry, h]

/-! A sub-port that fails (R382, R383). -/

/-- The state in which the sub-port has failed and its carrying is to be settled. -/
def State.failing (s : State) (h : HalfId) (k : Nat) : State :=
  ({ s with freeCtr := s.freeCtr + 1 } : State).putHalf h ((s.half h).putSub k
    { (s.half h).sub k with up := ((s.half h).sub k).up && Config.freeBool s.draw, failed := true, back := 0, upSince := s.time })
theorem State.failSub_eq (s : State) (h : HalfId) (k : Nat) : s.failSub h k = ((s.failing h k).settleSub h k).settleSub (HalfId.peer h) k := rfl

theorem State.failing_own (s : State) (h : HalfId) (k : Nat) :
    (((s.failing h k).settleSub h k).half h).sub k = ({ (s.half h).sub k with
      up := ((s.half h).sub k).up && Config.freeBool s.draw, failed := true, back := 0, upSince := s.time } : SubPort).settled false := by
  have own : ((s.failing h k).half h).sub k = { (s.half h).sub k with
      up := ((s.half h).sub k).up && Config.freeBool s.draw, failed := true, back := 0, upSince := s.time } := by
    rw [failing, State.half_putHalf, Half.sub_putSub]
  have off : (s.failing h k).mayCarry h k = false := State.mayCarry_of_failed (by rw [own])
  rw [((s.failing h k).half_settleSub h k).1, own, off]
theorem State.failing_peer (s : State) (h : HalfId) (k : Nat) :
    ((s.failing h k).settleSub h k).half (HalfId.peer h) = s.half (HalfId.peer h) ∧ ((s.failing h k).settleSub h k).out = s.out := by
  have off : (s.failing h k).mayCarry h k = false := State.mayCarry_of_failed (by rw [failing, State.half_putHalf, Half.sub_putSub])
  obtain ⟨peer, out⟩ := State.peer_settleSub_off off
  rw [peer, out, failing, State.half_peer_putHalf, State.putHalf_out]
  exact ⟨by cases h <;> rfl, rfl⟩
/-- Whether the other port takes its work over. -/
theorem State.failing_mayCarry (s : State) (h : HalfId) (k : Nat) :
    ((s.failing h k).settleSub h k).mayCarry (HalfId.peer h) k = true ↔
      subPorts (s.half h).net.mode = subPorts (s.half (HalfId.peer h)).net.mode ∧ (s.half h).net.foEn = true ∧
        (s.half (HalfId.peer h)).net.foEn = true ∧ k < subPorts (s.half h).net.mode ∧ ((s.half (HalfId.peer h)).sub k).failed = false := by
  obtain ⟨_, _, mode, foEn⟩ := (s.failing h k).half_settleSub h k
  have failed : ((((s.failing h k).settleSub h k).half h).sub k).failed = true := by
    rw [State.failing_own]
    exact (SubPort.settled_keeps _ _).1
  have netKept : (((s.failing h k).half h).net.mode = (s.half h).net.mode) ∧ (((s.failing h k).half h).net.foEn = (s.half h).net.foEn) := by
    rw [failing, State.half_putHalf]
    exact ⟨rfl, rfl⟩
  rw [netKept.1] at mode
  rw [netKept.2] at foEn
  simp only [mayCarry, HalfId.peer_peer, (State.failing_peer s h k).1, mode, foEn, failed, Bool.and_eq_true, decide_eq_true_eq, Bool.not_eq_true']
  constructor
  · rintro ⟨⟨⟨⟨⟨modes, fo'⟩, fo⟩, below⟩, _⟩, works⟩
    exact ⟨modes.symm, fo, fo', modes ▸ below, works⟩
  · rintro ⟨modes, fo, fo', below, works⟩
    exact ⟨⟨⟨⟨⟨modes.symm, fo'⟩, fo⟩, modes ▸ below⟩, trivial⟩, works⟩

/-! Announcements, discards and silence. -/

theorem State.out_announces (h : HalfId) (k : Nat) (l : List Bytes) (s : State) :
    (l.foldl (fun s a => s.emit (.announce h k a)) s).out = (l.map (fun a => Out.announce h k a)).reverse ++ s.out ∧
      ∀ g, (l.foldl (fun s a => s.emit (.announce h k a)) s).half g = s.half g := by
  induction l generalizing s with
  | nil => exact ⟨rfl, fun _ => rfl⟩
  | cons a l ih =>
    obtain ⟨out, half⟩ := ih (s.emit (.announce h k a))
    refine ⟨?_, fun g => (half g).trans (s.half_emit _ g)⟩
    rw [List.foldl_cons, out, List.map_cons, List.reverse_cons, List.append_assoc]
    rfl

/-- TIMING to the viewers leaves what the engine keeps for a lane, and the lanes. -/
theorem State.tellLock_keeps (s : State) (l old m : Nat) : (s.tellLock l old).netLane m = s.netLane m ∧ (s.tellLock l old).lane m = s.lane m := by
  have reported (s : State) (v : Nat) (x : Viewer) :
      (s.reportTiming (halfOf l) v x).netLane m = s.netLane m ∧ (s.reportTiming (halfOf l) v x).lane m = s.lane m := by
    refine ⟨?_, State.lane_putHalf (by rfl) m⟩
    unfold reportTiming netLane
    by_cases same : halfOf m = halfOf l
    · rw [same, State.half_putHalf]
      rfl
    · rw [State.half_putHalf_other _ _ _ _ same]
  unfold tellLock
  split
  · exact ⟨rfl, rfl⟩
  · refine List.foldlRecOn (motive := fun t : State => t.netLane m = s.netLane m ∧ t.lane m = s.lane m) _ _ ⟨rfl, rfl⟩ fun t kept p _ => ?_
    split
    · exact ⟨(reported t p.1 p.2).1.trans kept.1, (reported t p.1 p.2).2.trans kept.2⟩
    · exact kept
theorem State.setLock_keeps (s : State) (l : Nat) (k : Lock) : ((s.setLock l k).netLane l).lock = k ∧ (s.setLock l k).lane l = s.lane l := by
  unfold setLock
  dsimp only
  obtain ⟨net, lane⟩ := State.tellLock_keeps (s.putNetLane l { s.netLane l with lock := k }) l (s.netLane l).lock.lock l
  rw [net, lane, putNetLane, netLane, State.half_putHalf]
  exact ⟨congrArg NetLane.lock (Sparse.get_set_same ..), State.lane_putHalf (by rfl) l⟩

theorem Half.lifeAdd_net (H : Half) (off n k : Nat) : (H.lifeAdd off n k).net = H.net := rfl

/-- Settles O34: sub-ports answer, fail over and come back; a bad frame is counted; a silent viewer is idle and a silent lane unlocked. -/
theorem portsAndSilence : Obligations.PortsAndSilence := by
  refine ⟨fun h k ip mac s hk works owns => ?arpOwn, fun h k ip mac s hk carries owns => ?arpTaken, fun h k ip mac s hk works owns => ?ndOwn,
    fun h k ip mac s hk carries owns => ?ndTaken, fun h k s hk due => ?announce, fun h k tm s hk => ?fail, fun h k tm s hk failed' up rested => ?back,
    fun h k tm s runs ports boots clock on hk down => ?link, fun h rx tm k s bad runs => ?discard, fun h v tm x s hv hx moving => ?moving,
    fun h v tm x s hv hx joined still silent => ?idle, fun l tm s hl locked silent => ?lock⟩
  case arpOwn =>
    change execArpRequest h k ip mac s = _
    rw [execArpRequest, if_neg (by omega)]
    exact if_pos (by rw [Half.sub] at works owns; rw [works, owns]; rfl)
  case arpTaken =>
    change execArpRequest h k ip mac s = _
    rw [execArpRequest, if_neg (by omega)]
    exact if_pos (by rw [Half.sub] at carries owns; rw [carries, owns, Bool.or_eq_true]; exact .inr rfl)
  case ndOwn =>
    change execNeighbourSolicitation h k ip mac s = _
    rw [execNeighbourSolicitation, if_neg (by omega)]
    exact if_pos (by rw [Half.sub] at works owns; rw [works, owns]; rfl)
  case ndTaken =>
    change execNeighbourSolicitation h k ip mac s = _
    rw [execNeighbourSolicitation, if_neg (by omega)]
    exact if_pos (by rw [Half.sub] at carries owns; rw [carries, owns, Bool.or_eq_true]; exact .inr rfl)
  case announce =>
    intro p o taken own
    obtain ⟨out, half⟩ := State.out_announces h k (s.announced h k)
      (s.putHalf h ((s.half h).putSub k { p with announce := p.announce - 1, back := p.back - 1 }))
    refine ⟨_, ?_, out.trans ?_, ?_, ?_⟩
    · change execGratuitousArp h k s = _
      rw [execGratuitousArp, if_neg (by omega)]
      exact if_neg (by omega)
    · rw [State.putHalf_out]
      rfl
    · rw [half h, State.half_putHalf, Half.sub_putSub]
    · rw [half, State.half_peer_putHalf]
  case fail =>
    intro H P moves
    obtain ⟨failed, up, upSince, _, carry⟩ := SubPort.settled_keeps ({ ((s.at tm).half h).sub k with
      up := (((s.at tm).half h).sub k).up && Config.freeBool (s.at tm).draw, failed := true, back := 0, upSince := (s.at tm).time }) false
    obtain ⟨peer, out⟩ := (s.at tm).failing_peer h k
    have kept := State.peer_settleSub (((s.at tm).failing h k).settleSub h k) (HalfId.peer h) k
    rw [HalfId.peer_peer] at kept
    have own : (((s.at tm).failSub h k).half h).sub k = _ := (kept.sub k).trans ((s.at tm).failing_own h k)
    have other := (State.half_settleSub (((s.at tm).failing h k).settleSub h k) (HalfId.peer h) k).1
    rw [← State.failSub_eq, peer, State.half_at] at other
    have decides := (s.at tm).failing_mayCarry h k
    simp only [State.half_at] at decides
    refine ⟨(s.at tm).failSub h k, ?_, by rw [own, failed], by rw [own, carry], by rw [own, upSince], fun down => ?_, fun yes => ?_, fun no => ?_⟩
    · change execSubportFail h k tm s = _
      rw [execSubportFail, if_neg (by omega)]
    · rw [own, up, State.half_at]
      exact Bool.and_eq_false_imp.2 fun h => absurd (h.symm.trans down) (by decide)
    · rw [other, decides.2 yes]
      refine ⟨(SubPort.settled_keeps _ _).2.2.2.2, fun idle => ?_⟩
      rw [SubPort.settled, if_neg (by rw [idle]; decide)]
      rfl
    · have off : (((s.at tm).failing h k).settleSub h k).mayCarry (HalfId.peer h) k = false :=
        Bool.eq_false_iff.2 fun yes => no (decides.1 yes)
      rw [other, off]
      refine ⟨(SubPort.settled_keeps _ _).2.2.2.2, fun idle => ?_⟩
      have same : (s.at tm).failSub h k = ((s.at tm).failing h k).settleSub h k := by
        rw [State.failSub_eq]
        exact State.settleSub_same (by rw [off, peer, State.half_at]; exact idle.symm)
      rw [same, peer, out, State.half_at]
      exact ⟨rfl, rfl⟩
  case back =>
    obtain ⟨u, hu⟩ : ∃ u, u = (s.at tm).putHalf h ((s.half h).putSub k { (s.half h).sub k with failed := false, back := 3 }) := ⟨_, rfl⟩
    have works : (u.half h).sub k = { (s.half h).sub k with failed := false, back := 3 } := by
      rw [hu, State.half_putHalf, Half.sub_putSub]
    have off : u.mayCarry (HalfId.peer h) k = false := State.mayCarry_of_peer_works (by rw [HalfId.peer_peer, works])
    obtain ⟨peerSub, peerLanes, _⟩ := u.half_settleSub (HalfId.peer h) k
    have own := u.peer_settleSub (HalfId.peer h) k
    rw [HalfId.peer_peer] at own
    obtain ⟨w, hw⟩ : ∃ w, w = (u.settleSub (HalfId.peer h) k).event h 0x000D 0xFFFF 0 k := ⟨_, rfl⟩
    have ownEvent : (w.half h).sub k = (u.half h).sub k := by
      rw [hw]
      exact ((State.event_half ..).sub k).trans (own.sub k)
    have peerEvent : (w.half (HalfId.peer h)) = (u.settleSub (HalfId.peer h) k).half (HalfId.peer h) := by
      rw [hw, State.half_event_peer]
    have last := w.peer_settleSub h k
    obtain ⟨failed, _, _, back, _⟩ := SubPort.settled_keeps ((w.half h).sub k) (w.mayCarry h k)
    refine ⟨w.settleSub h k, ?_, ?_, ?_, ?_, ?_⟩
    · change execFailback h k tm s = _
      rw [execFailback, if_neg (by omega), hw, hu]
      simp only [State.half_at]
      exact if_pos ⟨failed', up, rested⟩
    · rw [(w.half_settleSub h k).1, failed, ownEvent, works]
    · rw [(w.half_settleSub h k).1, back, ownEvent, works]
    · rw [last.sub, peerEvent, peerSub, off]
      exact (SubPort.settled_keeps _ _).2.2.2.2
    · rw [last.lanes, peerEvent, peerLanes, hu, State.half_peer_putHalf, State.half_at]
  case link =>
    obtain ⟨H, hH⟩ : ∃ H, H = (if ((s.half h).sub k).failed then (List.range (8 / subPorts (s.half h).net.mode)).foldl (fun H j =>
      H.lifeAdd (0xD0 + 4 * (8 / subPorts (s.half h).net.mode * k + j)) 4 1) (s.half h) else s.half h) := ⟨_, rfl⟩
    have small : k < 4 := by
      have modes : subPorts (s.half h).net.mode ≤ 4 := by
        unfold subPorts
        split <;> decide
      omega
    refine ⟨(s.at tm).putHalf h (H.putSub k { H.sub k with up := true, upSince := (s.at tm).time }), ?_, ?_, ?_, ?_, ?_⟩
    · change execSubportLinkUp h k tm s = _
      rw [execSubportLinkUp, if_neg (by omega), hH]
      simp only [State.half_at]
      refine if_neg ?_
      rw [show (s.at tm).runs = true from runs, clock, ports, boots, on, down]
      simp [hk]
    · rw [State.half_putHalf, Half.sub_putSub]
    · rw [State.half_putHalf, Half.sub_putSub]
    · rw [State.half_peer_putHalf, State.half_at]
    · rw [State.putHalf_out]
      rfl
  case discard =>
    refine ⟨(s.at tm).discard h k, ?_, ?_⟩
    · change execReceivedFrameDiscard h rx tm s = _
      unfold execReceivedFrameDiscard
      simp only [bad]
    · have counted : (s.at tm).discard h k = (s.at tm).putHalf h { s.half h with net := { (s.half h).net with
          rxd := Sparse.set zeroNat (s.half h).net.rxd k (satBits 64 (Sparse.get zeroNat (s.half h).net.rxd k + 1)) } } := by
        unfold State.discard
        rw [show (s.at tm).runs = true from runs, State.half_at]
        rfl
      rw [counted, State.half_putHalf, State.half_peer_putHalf, State.half_at, State.putHalf_cmds, State.putHalf_out]
      exact ⟨fun j => Sparse.get_set .., rfl, rfl, rfl, rfl, rfl⟩
  case moving =>
    change execViewerIdle h v tm s = _
    rw [execViewerIdle, if_neg (by omega)]
    simp only [State.half_at, hx]
    exact if_neg (by simp [moving])
  case idle =>
    refine ⟨_, rfl, _, rfl, ?_⟩
    change execViewerIdle h v tm s = _
    rw [execViewerIdle, if_neg (by omega)]
    simp only [State.half_at, hx]
    exact if_pos ⟨joined, still, silent⟩
  case lock =>
    obtain ⟨lock, lane⟩ := (s.at tm).setLock_keeps l { ((s.at tm).netLane l).lock with lock := 0, good := 0, bad := 0 }
    refine ⟨(s.at tm).unlock l, ?_, rfl, ?_, ?_⟩
    · change execLockTimeout l tm s = _
      rw [execLockTimeout, if_neg (by omega)]
      simp only [State.netLane_at]
      exact if_pos ⟨locked, silent⟩
    · exact congrArg Lock.lock lock
    · exact lane.trans (State.lane_at s tm l)

end Sys2Proof.Machine
end

section
/-! PROOFS. Queue pairs and the event ring: configuration, doorbells, submission and completion. -/
namespace Sys2Proof.Machine
open Sys2Proof

@[simp] theorem Half.qp_putQp (H : Half) (q : Nat) (x : QueuePair) : (H.putQp q x).qp q = x := Sparse.get_set_same ..
theorem Half.qp_putQp_other (H : Half) {p q : Nat} (x : QueuePair) (h : p ≠ q) : (H.putQp q x).qp p = H.qp p :=
  Sparse.get_set_other _ _ _ _ _ h
@[simp] theorem State.qp_putQp (s : State) (h : HalfId) (q : Nat) (x : QueuePair) : ((s.putQp h q x).half h).qp q = x := by
  rw [State.putQp, State.half_putHalf, Half.qp_putQp]
theorem State.qp_putQp_other (s : State) (h : HalfId) {p q : Nat} (x : QueuePair) (d : p ≠ q) :
    ((s.putQp h q x).half h).qp p = (s.half h).qp p := by
  rw [State.putQp, State.half_putHalf, Half.qp_putQp_other _ _ d]
@[simp] theorem State.lanes_putQp (s : State) (h : HalfId) (q : Nat) (x : QueuePair) : ((s.putQp h q x).half h).lanes = (s.half h).lanes := by
  rw [State.putQp, State.half_putHalf]
  rfl
@[simp] theorem State.half_discardReplies (s : State) (p : Source → Bool) (h : HalfId) : (s.discardReplies p).half h = s.half h := by
  cases h <;> rfl
/-- What is left of the commands of a source whose replies are discarded has no reply, and will leave none (R416, R418). -/
theorem State.discardReplies_discarded {s : State} {p : Source → Bool} {c : Cmd} (h : c ∈ (s.discardReplies p).cmds) (of : p c.src = true) :
    c.discard = true ∧ c.reply = none := by
  obtain ⟨d, hd, rfl⟩ := List.mem_map.mp h
  cases hp : p d.src with
  | false =>
    rw [hp, if_neg Bool.false_ne_true] at of
    exact absurd of (by simp [hp])
  | true =>
    have kept := (List.mem_filter.mp hd).2
    simp only [hp, Bool.true_and, Bool.not_eq_true', Option.isSome_eq_false_iff, Option.isNone_iff_eq_none] at kept
    exact ⟨by simp, by simp [kept]⟩

/-- A queue pair that is not enabled keeps its replies, whatever is written to its configuration. -/
theorem State.writeQpCfg_idle {s : State} {h : HalfId} {q : Nat} (v : Nat) (off : ((s.half h).qp q).en = false) :
    s.writeQpCfg h q v = s.putQp h q (((s.half h).qp q).configure v) := by
  simp only [State.writeQpCfg, off, Bool.false_and, Bool.false_eq_true, if_false]
@[simp] theorem State.qp_writeQpCfg (s : State) (h : HalfId) (q v : Nat) :
    ((s.writeQpCfg h q v).half h).qp q = ((s.half h).qp q).configure v := by
  unfold State.writeQpCfg
  dsimp only
  split <;> simp
theorem QueuePair.configure_off {x : QueuePair} {v : Nat} (off : v.testBit 15 = false) : (x.configure v).en = false := by
  unfold QueuePair.configure
  cases x.en <;> simp [off]
theorem QueuePair.configure_start {x : QueuePair} {v : Nat} (idle : x.en = false) (set : v.testBit 15 = true) (least : 4 ≤ v % 16)
    (order : v % 16 ≤ v / 16 % 16) (most : v / 16 % 16 ≤ 12) :
    x.configure v = { x with vec := v / 256 % 64, ien := v.testBit 14, sqlog := v % 16, cqlog := v / 16 % 16, en := true, errCfg := false, errDma := false, sqHead := 0, tail := 0, cqHead := 0, slot := 0, phase := true } := by
  unfold QueuePair.configure
  rw [if_neg (by simp [idle])]
  dsimp only
  rw [if_neg (by simp [set]), if_neg (by omega)]
theorem QueuePair.configure_bad {x : QueuePair} {v : Nat} (idle : x.en = false) (set : v.testBit 15 = true)
    (bad : v / 16 % 16 < v % 16 ∨ v % 16 < 4 ∨ 12 < v % 16 ∨ v / 16 % 16 < 4 ∨ 12 < v / 16 % 16) :
    (x.configure v).en = false ∧ (x.configure v).errCfg = true := by
  unfold QueuePair.configure
  rw [if_neg (by simp [idle])]
  dsimp only
  rw [if_neg (by simp [set]), if_pos bad]
  exact ⟨idle, rfl⟩
theorem EventRing.configure_start {x : EventRing} {v : Nat} (idle : x.en = false) (set : v.testBit 15 = true) (least : 4 ≤ v / 16 % 16)
    (most : v / 16 % 16 ≤ 12) :
    x.configure v = { x with vec := v / 256 % 64, ien := v.testBit 14, sqlog := v % 16, cqlog := v / 16 % 16, en := true, errCfg := false, head := 0, slot := 0, phase := true } := by
  unfold EventRing.configure
  rw [if_neg (by simp [idle])]
  dsimp only
  rw [if_neg (by simp [set]), if_neg (by omega)]
theorem queueRow_next {h : HalfId} {q : Nat} {c : Bool} (f : State → State) {s : State} (hq : q < 32) (up : s.pfUp h = true) (hc : c = true) :
    queueRow h q c f s = .next (f s) := by
  rw [queueRow, if_neg (by omega), if_neg (by simp [up, hc])]
theorem eventRow_next {h : HalfId} {c : Bool} (f : EventRing → EventRing) {s : State} (up : s.pfUp h = true) (hc : c = true) :
    eventRow h c f s = .next (s.putHalf h ((s.half h).putEv (f (s.half h).ev))) := by
  rw [eventRow, if_neg (by simp [up, hc])]

@[simp] theorem State.pfUp_at (s : State) (tm : Nat) (h : HalfId) : (s.at tm).pfUp h = s.pfUp h := by cases h <;> rfl
@[simp] theorem State.completed_at (s : State) (tm : Nat) (h : HalfId) (q : Nat) : (s.at tm).completed h q = s.completed h q := rfl

/-- The completion of a queue pair without interrupts: what was written first, then the entry; the command leaves, the slot is passed. -/
theorem completion_leaves (s : State) (h : HalfId) (q id at' : Nat) (entry : Bytes) (x : QueuePair) :
    let t := ((s.dropCmd id).emit (.hostWrite h at' entry)).putQp h q x
    t.out = .hostWrite h at' entry :: s.out ∧ t.cmds = s.cmds.filter (fun d => !decide (d.id = id)) ∧ (t.half h).qp q = x ∧
      (t.half h).lanes = (s.half h).lanes := by
  intro t
  have same : ((s.dropCmd id).emit (.hostWrite h at' entry)).half h = s.half h := by cases h <;> rfl
  refine ⟨by cases h <;> rfl, by cases h <;> rfl, State.qp_putQp .., ?_⟩
  exact (State.lanes_putQp ..).trans (congrArg Half.lanes same)

/-- Settles O35: the configuration of a queue pair by the cases of `configure`, a fetch and a completion by their branches. -/
theorem queuePairs : Obligations.QueuePairs := by
  unfold Obligations.QueuePairs
  refine ⟨fun h q v s hq up idle set least order most => ?start, fun h q v s hq up idle set bad => ?bad, fun h q v s hq up clear => ?disable,
    fun h q v s hq up => ?doorbells, fun h v s up idle set least most => ?ring, fun h v s up => ?head,
    fun h q entry params tm s hq up serves ready => ?fetch, fun h q tm c r s hq up serves => ?empty, fun h q tm c r s hq up serves => ?result⟩
  case start =>
    refine ⟨s.writeQpCfg h q v.toNat, _, queueRow_next (fun s => s.writeQpCfg h q v.toNat) hq up set, rfl, ?_⟩
    rw [State.qp_writeQpCfg, QueuePair.configure_start idle set least order most, State.writeQpCfg_idle _ idle]
    exact ⟨rfl, rfl, rfl, rfl, rfl, rfl, rfl, rfl, rfl, rfl, rfl, rfl, fun p d => State.qp_putQp_other s h _ d, State.putHalf_cmds ..⟩
  case bad =>
    refine ⟨s.writeQpCfg h q v.toNat, queueRow_next (fun s => s.writeQpCfg h q v.toNat) hq up set, ?_⟩
    rw [State.qp_writeQpCfg]
    exact QueuePair.configure_bad idle set bad
  case disable =>
    refine ⟨s.writeQpCfg h q v.toNat, queueRow_next (fun s => s.writeQpCfg h q v.toNat) hq up (by simp [clear]), ?_, fun on c hc src => ?_⟩
    · rw [State.qp_writeQpCfg]
      exact QueuePair.configure_off clear
    · rw [State.writeQpCfg, if_pos (by simp [on, clear])] at hc
      exact State.discardReplies_discarded hc (by simp [src])
  case doorbells =>
    exact ⟨_, _, queueRow_next (fun s => s.putQp h q (((s.half h).qp q).writeTail v.toNat)) hq up rfl, State.qp_putQp ..,
      queueRow_next (fun s => s.putQp h q (((s.half h).qp q).writeHead v.toNat)) hq up rfl, State.qp_putQp ..⟩
  case ring =>
    refine ⟨_, eventRow_next (fun e => e.configure v.toNat) up set, ?_⟩
    rw [State.half_putHalf, Half.putEv, EventRing.configure_start idle set least most]
    exact ⟨rfl, rfl, rfl, rfl, rfl, rfl, rfl⟩
  case head =>
    refine ⟨_, eventRow_next (fun e => e.writeHead v.toNat) up rfl, ?_⟩
    rw [State.half_putHalf]
    rfl
  case fetch =>
    intro x on dma waits room slots u r
    have go : r = (match entry with
        | none => .next ((s.at tm).putQp h q { x with errDma := true })
        | some e =>
          let e := (e ++ List.replicate 64 0).take 64
          let b := e.take 32
          let n := hPlen b
          if n ≤ 32 then .next (u.accept (.ring h q) b (slice e 32 n))
          else if 4096 < n then .next (u.accept (.ring h q) b [])
          else match params with
            | none => .next ((s.at tm).putQp h q { x with errDma := true })
            | some p => .next (u.accept (.ring h q) b ((p ++ List.replicate n 0).take n))) := by
      change execSubmissionFetch h q entry params tm s = _
      rw [execSubmissionFetch, if_neg (by omega)]
      dsimp only
      rw [if_neg]
      · simp only [State.half_at]
        rfl
      · have few : ¬ 2 ^ x.sqlog ≤ (s.at tm).inFlight (.ring h q) := Nat.not_le.mpr slots
        simp only [State.half_at, State.pfUp_at]
        simp only [x] at on dma waits few
        simp [up, serves, ready, on, dma, waits, few]
        exact decide_eq_false (Nat.not_le.mpr room)
    refine ⟨fun failed => by rw [go, failed], fun e he len => ?_⟩
    have whole : (e ++ List.replicate 64 0).take 64 = e := by rw [List.take_append_of_le_length (by omega), List.take_of_length_le (by omega)]
    rw [he] at go
    simp only [whole] at go
    intro b
    change r = (if hPlen b ≤ 32 then _ else if 4096 < hPlen b then _ else _) at go
    refine ⟨fun short => ?_, fun long fits failed => ?_, fun p long given plen fits => ?_, fun large => ?_⟩
    · rw [go, if_pos short]
    · rw [go, if_neg (by omega), if_neg (by omega), failed]
    · have all : (p ++ List.replicate (hPlen b) 0).take (hPlen b) = p := by
        rw [List.take_append_of_le_length (by omega), List.take_of_length_le (by omega)]
      rw [go, if_neg (by omega), if_neg (by omega), given]
      exact congrArg (fun p => Host.Outcome.next (u.accept (.ring h q) b p)) all
    · rw [go, if_neg (by omega), if_pos large]
  case empty =>
    intro x on quiet full found empty
    obtain ⟨out, cmds, qp, lanes⟩ := completion_leaves (s.at tm) h q c.id (x.cqBase.toNat + 16 * x.slot) (completionEntry x q c r r.status r.detail)
      { x with slot := (nextSlot x.cqlog x.slot x.phase).1, phase := (nextSlot x.cqlog x.slot x.phase).2 }
    refine ⟨_, ?_, out, cmds, congrArg QueuePair.slot qp, congrArg QueuePair.phase qp, lanes.trans (congrArg Half.lanes (State.half_at ..))⟩
    change execCompletionWrite h q true tm s = _
    rw [execCompletionWrite, if_neg (by omega)]
    simp only [State.half_at, State.pfUp_at, State.completed_at, found]
    rw [if_neg (by simpa [up, serves, x, full] using on)]
    simp only [empty, Bool.not_true, Bool.and_false, Bool.or_false, Bool.false_eq_true, if_true, if_false]
    rw [if_neg (by simp only [x] at quiet; simp [quiet])]
  case result =>
    intro x on quiet full found data
    constructor
    case left =>
      refine ⟨_, ?_, (completion_leaves ((s.at tm).emit (.hostWrite h c.raddr (r.result.take c.rmax))) h q c.id (x.cqBase.toNat + 16 * x.slot)
        (completionEntry x q c r r.status r.detail)
        { x with slot := (nextSlot x.cqlog x.slot x.phase).1, phase := (nextSlot x.cqlog x.slot x.phase).2 }).1⟩
      change execCompletionWrite h q true tm s = _
      rw [execCompletionWrite, if_neg (by omega)]
      simp only [State.half_at, State.pfUp_at, State.completed_at, found]
      rw [if_neg (by simpa [up, serves, x, full] using on)]
      simp only [data, Bool.not_true, Bool.false_and, Bool.or_false, Bool.false_eq_true, if_false]
      rw [if_neg (by simp only [x] at quiet; simp [quiet])]
    case right =>
      refine ⟨_, ?_, (completion_leaves (s.at tm) h q c.id (x.cqBase.toNat + 16 * x.slot) (completionEntry x q c r 16 0)
        { x with slot := (nextSlot x.cqlog x.slot x.phase).1, phase := (nextSlot x.cqlog x.slot x.phase).2 }).1⟩
      change execCompletionWrite h q false tm s = _
      rw [execCompletionWrite, if_neg (by omega)]
      simp only [State.half_at, State.pfUp_at, State.completed_at, found]
      rw [if_neg (by simpa [up, serves, x, full] using on)]
      simp only [data, Bool.not_false, Bool.true_and, Bool.or_true, if_true]
      rw [if_neg (by simp only [x] at quiet; simp [quiet])]
      rfl

end Sys2Proof.Machine
end

section
/-! PROOFS. The event ring, MSI-X, the SMBus and the writes of the host's registers. -/
namespace Sys2Proof.Machine
open Sys2Proof

/-! What a message of an unmasked vector does to the vector. -/
theorem Half.message_open {H : Half} {vec : Nat} (h : HalfId) (time : Nat) (shown : (Sparse.get msixReset H.msix vec).masked = false)
    (on : H.msixOpen = true) :
    ∃ w, (H.message h vec time).1 = { H with msix := Sparse.set msixReset H.msix vec w } ∧ w.masked = false ∧
      w.pending = (Sparse.get msixReset H.msix vec).pending := by
  unfold Half.message
  dsimp only
  rw [if_neg (by simp [shown, on])]
  cases (Sparse.get msixReset H.msix vec).lastSent with
  | none => exact ⟨_, rfl, shown, rfl⟩
  | some t =>
    by_cases soon : time < t + 1000
    · exact ⟨_, congrArg Prod.fst (if_pos (decide_eq_true soon)), shown, rfl⟩
    · exact ⟨_, congrArg Prod.fst (if_neg (by simpa using soon)), shown, rfl⟩
theorem Half.message_sends {H : Half} {vec time : Nat} (h : HalfId) (shown : (Sparse.get msixReset H.msix vec).masked = false)
    (on : H.msixOpen = true) (spaced : ∀ t, (Sparse.get msixReset H.msix vec).lastSent = some t → t + 1000 ≤ time) :
    H.message h vec time = ({ H with msix := Sparse.set msixReset H.msix vec { Sparse.get msixReset H.msix vec with
      lastSent := some time, due := false } }, [.msix h vec (Sparse.get msixReset H.msix vec).addr (Sparse.get msixReset H.msix vec).data]) := by
  unfold Half.message
  dsimp only
  rw [if_neg (by simp [shown, on])]
  cases sent : (Sparse.get msixReset H.msix vec).lastSent with
  | none => rfl
  | some t => exact if_neg (by simpa using spaced t sent)
theorem State.half_message (s : State) (h : HalfId) (vec : Nat) : (s.message h vec).half h = ((s.half h).message h vec s.time).1 := by
  rw [State.message, State.half_emits, State.half_putHalf]
/-- The entry of a vector replaced in the table of a half. -/
def Half.putMsix (H : Half) (vec : Nat) (v : MsixVector) : Half := { H with msix := Sparse.set msixReset H.msix vec v }
@[simp] theorem Half.get_putMsix (H : Half) (vec : Nat) (v : MsixVector) : Sparse.get msixReset (H.putMsix vec v).msix vec = v :=
  Sparse.get_set_same ..
@[simp] theorem Half.msixOpen_putMsix (H : Half) (vec : Nat) (v : MsixVector) : (H.putMsix vec v).msixOpen = H.msixOpen := rfl
theorem State.sendPending_quiet {s : State} {h : HalfId} {vec : Nat}
    (quiet : (Sparse.get msixReset (s.half h).msix vec).pending = false ∨ (s.half h).msixOpen = false) : s.sendPending h vec = s := by
  unfold State.sendPending
  dsimp only
  rw [if_neg (by rcases quiet with p | p <;> simp [p])]
theorem State.sendPending_goes {s : State} {h : HalfId} {vec : Nat} (waits : (Sparse.get msixReset (s.half h).msix vec).pending = true)
    (shown : (Sparse.get msixReset (s.half h).msix vec).masked = false) (on : (s.half h).msixOpen = true) :
    s.sendPending h vec = (s.putHalf h ((s.half h).putMsix vec { Sparse.get msixReset (s.half h).msix vec with pending := false })).message h vec := by
  unfold State.sendPending
  dsimp only
  rw [if_pos (by simp [waits, shown, on])]
  rfl
/-- A message that goes out: the output, and the vector's new time. -/
theorem State.message_sends {s : State} {h : HalfId} {vec : Nat} (shown : (Sparse.get msixReset (s.half h).msix vec).masked = false)
    (on : (s.half h).msixOpen = true) (spaced : ∀ t, (Sparse.get msixReset (s.half h).msix vec).lastSent = some t → t + 1000 ≤ s.time) :
    (s.message h vec).out = .msix h vec (Sparse.get msixReset (s.half h).msix vec).addr (Sparse.get msixReset (s.half h).msix vec).data :: s.out ∧
    Sparse.get msixReset ((s.message h vec).half h).msix vec =
      { Sparse.get msixReset (s.half h).msix vec with lastSent := some s.time, due := false } := by
  rw [State.half_message, State.message, Half.message_sends h shown on spaced]
  exact ⟨by cases h <;> rfl, Sparse.get_set_same ..⟩

/-! Windows of BAR0 and the writes of a thread. -/
theorem State.hostWrite_some {s : State} {h : HalfId} {r : RegValue} {reg : Option RegValue} (width : Nat) (f : State → State)
    (up : s.pfUp h = true) (found : reg = some r) :
    (r.1 = width → s.hostWrite h reg width f = .next (f s)) ∧ (r.1 ≠ width → s.hostWrite h reg width f = .next s) := by
  subst found
  unfold State.hostWrite
  rw [if_neg (by simp [up])]
  exact ⟨fun same => if_pos same, fun other => if_neg other⟩
theorem State.onLane_none {s : State} {l : Nat} {f : Lane → Option (Lane × Nat)} (hl : l < 256) (h : f (s.lane l) = none) :
    s.onLane l f = .next s := by
  rw [State.onLane, if_neg (by omega), h]
  rfl

/-- An event ring write of the oldest event where none has been lost. -/
theorem execEventRingWrite_oldest {h : HalfId} {tm : Nat} {e : Event} {rest : List Event} {s : State} (up : s.pfUp h = true)
    (serves : (s.half h).serves = true) (on : (s.half h).ev.en = true) (quiet : (s.half h).ev.ien = false)
    (whole : (s.half h).ev.lostPend = false) (room : ringFull (s.half h).ev.cqlog (s.half h).ev.slot (s.half h).ev.head = false)
    (buf : (s.half h).ev.buf = e :: rest) :
    execEventRingWrite h tm s = .next (((s.at tm).putHalf h ((s.half h).putEv { (s.half h).ev with
        buf := rest, slot := (nextSlot (s.half h).ev.cqlog (s.half h).ev.slot (s.half h).ev.phase).1,
        phase := (nextSlot (s.half h).ev.cqlog (s.half h).ev.slot (s.half h).ev.phase).2 })).emit
      (.hostWrite h ((s.half h).ev.base.toNat + 32 * (s.half h).ev.slot) (e.bytes (s.half h).ev.phase))) := by
  have take : (s.half h).ev.take (s.at tm).time = some (e, { (s.half h).ev with buf := rest }) := by
    rw [EventRing.take, if_neg (by simp [whole]), buf]
  unfold execEventRingWrite
  dsimp only
  rw [if_neg (by simp [up, serves, on, room])]
  simp only [State.half_at, take, whole, quiet, Bool.false_eq_true, if_false]

/-- Settles O36: each command by its branches, the vectors by `message_open` and `message_sends`, the registers by `hostWrite_some`. -/
theorem eventsAndRegisters : Obligations.EventsAndRegisters := by
  unfold Obligations.EventsAndRegisters
  refine ⟨fun h tm e rest s up serves on quiet whole room buf => ?event, fun h vec tm s hv up => ?unmask, fun h vec tm s hv up => ?deferred,
    fun h s up => ?reset, fun p tm g s on most len plen few room => ?write, fun p ok tm g s on bad => ?nack, fun g r rest s on reply => ?read,
    fun g s on reply => ?none, fun g s on reply => ?alert, fun h w r s up space reg => ?queue, fun h w r s up ready space reg => ?svc,
    fun h w r s up space reg => ?table, fun h w s up space off => ?control, fun l w s hl space => ?tap,
    fun l t stamp w d i s hl ht space reg on empty => ?thread⟩
  case event =>
    refine ⟨_, execEventRingWrite_oldest up serves on quiet whole room buf, ?_, ?_⟩
    · cases h <;> rfl
    · rw [State.half_emit, State.half_putHalf]
      exact ⟨rfl, rfl, rfl, rfl⟩
  case unmask =>
    intro v
    have clear : ∃ u, u = (s.at tm).putHalf h (((s.at tm).half h).putMsix vec { v with masked := false }) ∧ (s.at tm).unmask h vec = u.sendPending h vec :=
      ⟨_, rfl, by simp only [State.unmask, State.half_at]; rfl⟩
    obtain ⟨u, hu, done⟩ := clear
    have half : u.half h = (s.half h).putMsix vec { v with masked := false } := by rw [hu, State.half_putHalf, State.half_at]
    have out : u.out = s.out := by rw [hu, State.putHalf_out]; rfl
    have entry : Sparse.get msixReset (u.half h).msix vec = { v with masked := false } := by rw [half, Half.get_putMsix]
    have shown : (Sparse.get msixReset (u.half h).msix vec).masked = false := by rw [entry]
    have same : (Sparse.get msixReset (u.half h).msix vec).pending = v.pending := by rw [entry]
    have opened : (u.half h).msixOpen = (s.half h).msixOpen := by rw [half, Half.msixOpen_putMsix]
    refine ⟨u.sendPending h vec, ?_, ?_⟩
    · change execMsixVectorUnmask h vec tm s = _
      rw [execMsixVectorUnmask, if_neg (by omega), ← done]
      exact if_neg (by rw [State.pfUp_at, up]; simp)
    by_cases go : v.pending = true ∧ (s.half h).msixOpen = true
    case neg =>
      have still : v.pending = false ∨ (s.half h).msixOpen = false := by
        by_cases p : v.pending = true
        · exact .inr (Bool.eq_false_iff.mpr fun o => go ⟨p, o⟩)
        · exact .inl (Bool.eq_false_iff.mpr p)
      rw [State.sendPending_quiet (by rw [same, opened]; exact still)]
      refine ⟨shown, fun o => ?_, fun _ => ⟨same, out⟩, fun p o => absurd ⟨p, o⟩ go⟩
      rw [same]
      exact Bool.eq_false_iff.mpr fun p => go ⟨p, o⟩
    case pos =>
      obtain ⟨waits, opens⟩ := go
      obtain ⟨x, hx⟩ : ∃ x, x = u.putHalf h ((u.half h).putMsix vec { Sparse.get msixReset (u.half h).msix vec with pending := false }) := ⟨_, rfl⟩
      have entryX : Sparse.get msixReset (x.half h).msix vec = { v with masked := false, pending := false } := by
        rw [hx, State.half_putHalf, Half.get_putMsix, entry]
      have openX : (x.half h).msixOpen = true := by rw [hx, State.half_putHalf, Half.msixOpen_putMsix, opened, opens]
      have shownX : (Sparse.get msixReset (x.half h).msix vec).masked = false := by rw [entryX]
      rw [State.sendPending_goes (same.trans waits) shown (opened.trans opens), ← hx]
      obtain ⟨w, hw, mask, pend⟩ := Half.message_open h x.time shownX openX
      have after : Sparse.get msixReset ((x.message h vec).half h).msix vec = w := by
        rw [State.half_message, hw]
        exact Sparse.get_set_same ..
      rw [after]
      refine ⟨mask, fun _ => ?_, fun still => ?_, fun _ _ never => ?_⟩
      · rw [pend, entryX]
      · rcases still with p | p
        · exact absurd (p.symm.trans waits) Bool.false_ne_true
        · exact absurd (p.symm.trans opens) Bool.false_ne_true
      · rw [(State.message_sends shownX openX (by rw [entryX]; intro t sent; exact absurd (never.symm.trans sent) nofun)).1, entryX, hx,
          State.putHalf_out, out]
  case deferred =>
    intro v due shown on spaced
    obtain ⟨x, hx⟩ : ∃ x, x = (s.at tm).putHalf h ((s.half h).putMsix vec { v with due := false }) := ⟨_, rfl⟩
    have entry : Sparse.get msixReset (x.half h).msix vec = { v with due := false } := by rw [hx, State.half_putHalf, Half.get_putMsix]
    have opened : (x.half h).msixOpen = true := by rw [hx, State.half_putHalf, Half.msixOpen_putMsix, on]
    have time : x.time = (s.at tm).time := by rw [hx, State.putHalf_time]
    obtain ⟨out, after⟩ := State.message_sends (s := x) (h := h) (vec := vec) (by rw [entry]; exact shown) opened
      (by rw [entry, time]; exact spaced)
    refine ⟨x.message h vec, ?_, ?_, ?_, ?_⟩
    · change execMsixDeferredSend h vec tm s = _
      rw [execMsixDeferredSend, if_neg (by omega), hx]
      simp only [State.half_at, State.pfUp_at]
      refine if_neg ?_
      simp only [v] at due spaced
      rw [up, due]
      cases sent : (Sparse.get msixReset (s.half h).msix vec).lastSent with
      | none => simp
      | some t => simpa using spaced t sent
    · rw [out, entry, hx, State.putHalf_out]
      rfl
    · rw [after]
    · rw [after, time]
  case reset =>
    have half : (s.resetFunction h).half h = { s.half h with
        qps := [], msix := [], msixEnable := false, msixMask := false,
        ev := { EventRing.reset with errCfg := (s.half h).ev.errCfg, lost := (s.half h).ev.lost, lostPend := (s.half h).ev.lostPend, buf := (s.half h).ev.buf, eseq := (s.half h).ev.eseq } } := by
      rw [State.resetFunction, State.half_discardReplies, State.half_putHalf]
    refine ⟨s.resetFunction h, if_neg (by simp [up]), fun q => ?_, fun k => ?_, ?_, ?_, ?_, ?_, ?_, ?_, fun c hc q src => ?_⟩
    · rw [half]
      rfl
    · rw [half]
      rfl
    · rw [half]
      rfl
    · rw [half]
      rfl
    · rw [half]
    · rw [half]
    · rw [half]
    · rw [State.resetFunction, State.half_discardReplies, State.half_peer_putHalf]
    · exact (State.discardReplies_discarded hc (by rw [src]; exact decide_eq_true rfl)).1
  case write =>
    change execSmbusBlockWrite p true tm s = _
    unfold execSmbusBlockWrite
    simp only [on]
    rw [if_neg (by
      have few : ¬ 4 ≤ (s.at tm).inFlight .smbus := Nat.not_le.mpr few
      simp [few, ← len]
      omega)]
    rw [State.offer, if_neg fun full => full.elim (Nat.not_le.mpr room) (Nat.not_le.mpr few)]
  case nack =>
    change execSmbusBlockWrite p ok tm s = _
    unfold execSmbusBlockWrite
    simp only [on]
    rw [if_pos]
    rcases bad with bad | bad | bad | bad
    · simp [bad]
    · simp [bad]
    · simp [bad]
    · have bad : 4 ≤ (s.at tm).inFlight .smbus := bad
      simp [bad]
  case read =>
    change execSmbusBlockRead s = _
    simp only [execSmbusBlockRead, on, reply]
  case none =>
    change execSmbusBlockRead s = _
    simp only [execSmbusBlockRead, on, reply]
  case alert =>
    change execSmbusAlertResponse s = _
    simp only [execSmbusAlertResponse, on]
    exact if_neg (by simpa using reply)
  case queue =>
    have row : exec (.registerWrite w) s = s.hostWrite h ((s.half h).queueReg w.off) w.width
        (fun s => s.writeQueue h w.off (w.value.toNat % 2 ^ (8 * w.width))) := by
      change execRegisterWrite w s = _
      simp only [execRegisterWrite, space]
    rw [row]
    exact State.hostWrite_some w.width _ up reg
  case svc =>
    have row : exec (.registerWrite w) s = s.hostWrite h (if (s.half h).boot.ready then s.svcReg h w.off else none) w.width
        (fun s => s.writePin h w.off (w.value.toNat % 2 ^ (8 * w.width))) := by
      change execRegisterWrite w s = _
      simp only [execRegisterWrite, space]
    rw [row]
    exact State.hostWrite_some w.width _ up ((if_pos ready).trans reg)
  case table =>
    have row : exec (.registerWrite w) s = s.hostWrite h ((s.half h).msixReg w.off) w.width
        (fun s => s.writeMsix h w.off (w.value.toNat % 2 ^ (8 * w.width))) := by
      change execRegisterWrite w s = _
      simp only [execRegisterWrite, space]
    rw [row]
    exact State.hostWrite_some w.width _ up reg
  case control =>
    have row : exec (.registerWrite w) s = s.hostWrite h (if w.off = 0 then some (2, 0) else none) w.width
        (fun s => s.writeMsixControl h (w.value.toNat % 2 ^ (8 * w.width))) := by
      change execRegisterWrite w s = _
      simp only [execRegisterWrite, space]
    rw [row]
    obtain ⟨goes, stays⟩ := State.hostWrite_some w.width (fun s => s.writeMsixControl h (w.value.toNat % 2 ^ (8 * w.width))) up (if_pos (t := some (2, 0)) (e := none) off)
    exact ⟨fun two => by rw [goes two.symm, two], fun other => stays (Ne.symm other)⟩
  case tap =>
    change execRegisterWrite w s = _
    simp only [execRegisterWrite, space]
    exact if_neg (by omega)
  case thread =>
    intro v
    have row : exec (.registerWrite w) s = s.onLane l (fun L => L.threadWrite t stamp w.off w.width v) := by
      change execRegisterWrite w s = _
      simp only [execRegisterWrite, space]
      exact if_neg (by omega)
    rw [row]
    refine ⟨fun other => State.onLane_none hl ?_, fun same => ⟨_, rfl, State.onLane_next hl ?_⟩⟩
    · simp only [Lane.threadWrite, reg]
      exact if_pos other
    · simp only [Lane.threadWrite, reg]
      rw [if_neg (by simpa using same)]
      exact Lane.viaQueue_plain on empty _ _

end Sys2Proof.Machine
end

section
/-! PROOFS. The first checks of a packet, and the completion of a command on each transport. -/
namespace Sys2Proof.Machine
open Sys2Proof

/-- Sending on a control flow whose numbers are not used up leaves all of the flow but its keys and numbers. -/
theorem Half.controlSend_keeps {H : Half} {k : Control} (hk : H.net.control = some k) (ok : k.flow.bound = none ∨ k.flow.seq < 0xFFFFFFFE)
    (h : HalfId) (p : Bytes) :
    ∃ f, (H.controlSend h p).1.net.control = some { k with flow := f } ∧ ((H.controlSend h p).2.2 ≠ none → f.seq = 0xF0000000) := by
  unfold Half.controlSend
  simp only [hk]
  split
  case isTrue => exact ⟨k.flow, hk, fun high => absurd rfl high⟩
  case isFalse bound =>
    have few : ¬ 0xFFFFFFFE ≤ k.flow.seq := Nat.not_le.mpr (ok.resolve_left fun off => bound (by rw [off]; rfl))
    rw [if_neg few]
    refine ⟨_, rfl, fun high => ?_⟩
    dsimp only at high
    split at high
    · assumption
    · exact absurd rfl high
theorem Half.noteEvent_keeps {H : Half} {k : Control} (hk : H.net.control = some k) (ok : k.flow.bound = none ∨ k.flow.seq < 0xFFFFFFFE)
    (h : HalfId) (code lane frame time data : Nat) :
    ∃ f, (H.noteEvent h code lane frame time data).1.net.control = some { k with flow := f } := by
  unfold Half.noteEvent
  simp only [hk]
  split
  · have sends : ∀ (K : Half) (q : Bytes), K.net.control = some k → ∃ f, (K.controlSend h q).1.net.control = some { k with flow := f } :=
      fun K q hK => (K.controlSend_keeps hK ok h q).imp fun f sent => sent.1
    exact sends _ _ hk
  · exact ⟨k.flow, hk⟩
/-- A reply leaves the replies that the flow keeps. -/
theorem Half.sendReply_keeps {H : Half} {k : Control} (hk : H.net.control = some k) (ok : k.flow.bound = none ∨ k.flow.seq < 0xFFFFFFFE)
    (h : HalfId) (time : Nat) (p : Bytes) : ∃ f, (H.sendReply h time p).1.net.control = some { k with flow := f } := by
  obtain ⟨f, sent, high⟩ := H.controlSend_keeps hk ok h p
  unfold Half.sendReply seqHigh
  split
  case h_1 => exact ⟨f, sent⟩
  case h_2 d hd =>
    have seq : f.seq = 0xF0000000 := high (by rw [hd]; nofun)
    exact Half.noteEvent_keeps sent (.inr (by rw [seq]; decide)) h _ _ _ _ _
/-- A reply on a flow whose numbers are used up ends the flow. -/
theorem Half.sendReply_ends {H : Half} {k : Control} (hk : H.net.control = some k) (bound : k.flow.bound.isSome = true)
    (used : 0xFFFFFFFE ≤ k.flow.seq) (h : HalfId) (time : Nat) (p : Bytes) : (H.sendReply h time p).1.net.control = none := by
  have ends : H.controlSend h p = ({ H with net := { H.net with control := none } }, [], none) := by
    unfold Half.controlSend
    simp only [hk]
    rw [if_neg (by rw [Option.isNone_iff_eq_none]; intro off; rw [off] at bound; exact absurd bound Bool.false_ne_true), if_pos used]
  rw [Half.sendReply, ends]
  rfl

/-- A command of a control flow completes: its reply is kept and sent. -/
theorem State.finish_control {s : State} {c : Cmd} {h : HalfId} {k : Control} (found : s.cmd c.id = some c) (runs : c.reply = none)
    (src : c.src = .control h) (hk : (s.half h).net.control = some k) (status detail : Nat) (result : Bytes) :
    let p := replyBytes status c.tag result.length (if status = 9 then 2 else 0) detail 0 0 ++ result
    let r := ({ s.half h with net := { (s.half h).net with control := some (k.keep c.header p s.time) } } : Half).sendReply h s.time p
    s.finish c.id status detail result = r.2.foldl State.emit ((s.dropCmd c.id).putHalf h r.1) := by
  unfold State.finish
  simp only [found, runs, src, hk]
  rfl

/-- Settles O37: the checks in the order of the rule; a completion by the transport of its command. -/
theorem packetsAndReplies : Obligations.PacketsAndReplies := by
  unfold Obligations.PacketsAndReplies
  refine ⟨fun s src b p => ⟨fun bad => ?header, fun good row => ?opcode, fun r good row lane high => ?lane, fun r good row lane other low => ?device,
    fun passes => ?waits⟩, fun s c status detail result found runs => ⟨fun h q src keep => ?ring, fun src => ?smbus, fun h k src hk bound used => ?ends,
    fun h k src hk ok => ?control, fun l => State.lane_finish ..⟩⟩
  case header => exact if_pos bad
  case opcode => rw [State.checkPacket, if_neg (by simp [good]), row]; rfl
  case lane =>
    rw [State.checkPacket, if_neg (by simp [good]), row]
    exact if_pos (.inr (by simp [lane]; omega))
  case device =>
    rw [State.checkPacket, if_neg (by simp [good]), row]
    refine if_pos ?_
    rw [lane]
    by_cases below : hTarget b < 0x100
    · exact .inr (by simp [below])
    · exact .inl (by omega)
  case waits =>
    have waiting : s.accept src b p = { s with
        cmds := s.cmds ++ [{ id := s.nextCmd, src := src, opcode := hOp b, tag := hTag b, target := hTarget b, flags := hFlags b, params := p, deadline := hDeadline b, raddr := hRaddr b, rmax := hRmax b, header := b, begun := false, reply := none, discard := false }],
        nextCmd := s.nextCmd + 1 } := by
      unfold State.accept
      simp only [passes]
    rw [waiting]
    exact ⟨_, rfl, rfl, rfl, rfl, rfl, rfl, rfl, rfl, rfl⟩
  case ring =>
    unfold State.finish
    simp only [found, runs, src, keep]
    rfl
  case smbus =>
    have done : s.finish c.id status detail result = { s.dropCmd c.id with
        smReplies := s.smReplies ++ [replyBytes status c.tag result.length (if status = 9 then 2 else 0) detail 0 0 ++ result] } := by
      unfold State.finish
      simp only [found, runs, src]
      rfl
    rw [done]
    exact ⟨rfl, rfl⟩
  case ends =>
    rw [State.finish_control found runs src hk]
    constructor
    · rw [State.cmds_emits, State.putHalf_cmds]
      rfl
    · rw [State.half_emits, State.half_putHalf]
      exact Half.sendReply_ends (k := k.keep c.header _ s.time) rfl bound used ..
  case control =>
    rw [State.finish_control found runs src hk]
    constructor
    · rw [State.cmds_emits, State.putHalf_cmds]
      rfl
    · rw [State.half_emits, State.half_putHalf]
      obtain ⟨f, sent⟩ := Half.sendReply_keeps (H := { s.half h with net := { (s.half h).net with control := some (k.keep c.header
        (replyBytes status c.tag result.length (if status = 9 then 2 else 0) detail 0 0 ++ result) s.time) } }) (k := k.keep c.header _ s.time) rfl ok h s.time
        (replyBytes status c.tag result.length (if status = 9 then 2 else 0) detail 0 0 ++ result)
      exact ⟨_, sent, rfl⟩

end Sys2Proof.Machine
end

section
/-! PROOFS. The gate before every opcode. -/
namespace Sys2Proof.Machine
open Sys2Proof

/-! The ways in which a command of R432 is turned away. -/
theorem opcode_gated {op id tm : Nat} {s : State} {c : Cmd} {h : HalfId} {e : Nat × Nat} (f : State → Cmd → HalfId → State)
    (found : (s.at tm).cmd id = some c) (may : (s.at tm).mayBegin c op = some h) (gate : (s.at tm).gate c h = some e) :
    opcode op id tm f s = .next ((s.at tm).finish id e.1 e.2 []) := by
  simp only [opcode, found, may, gate]
theorem opcode_early {op id tm : Nat} {s : State} {c : Cmd} (f : State → Cmd → HalfId → State) (found : (s.at tm).cmd id = some c)
    (early : (s.at tm).mayBegin c op = none) : opcode op id tm f s = .next (s.at tm) := by
  simp only [opcode, found, early, stay]
theorem opcode_unknown {op id tm : Nat} {s : State} (f : State → Cmd → HalfId → State) (none : (s.at tm).cmd id = none) :
    opcode op id tm f s = .next (s.at tm) := by
  simp only [opcode, none, stay]

/-- Every command of R432 is the meaning of its opcode, but for the waits of LANE_START, LANE_STOP and OV_LOAD. -/
theorem exec_eq_opcode {i : Instr} {op id tm : Nat} {s : State} (of : opcodeOf i = some (op, id, tm))
    (ready : op = 0x0303 → ∀ c, s.cmd id = some c → (s.lane c.target).op.copying = false) (drained : op = 0x0102 → s.stopWaits id = false)
    (first : op = 0x0101 → s.startOf id = none) : ∃ f, exec i s = opcode op id tm f s := by
  cases i with
  | laneStart =>
    cases of
    refine ⟨fun s c _ => s.laneStart c, ?_⟩
    change execLaneStart _ _ s = _
    simp only [execLaneStart, first rfl]
  | laneStop =>
    cases of
    unfold exec
    exact ⟨_, if_neg (by simp [drained rfl])⟩
  | ovLoad =>
    cases of
    unfold exec
    refine ⟨_, if_neg ?_⟩
    cases found : s.cmd id with
    | none => exact Bool.false_ne_true
    | some c => simp [ready rfl c found]
  | _ =>
    cases of <;> unfold exec
    all_goals exact ⟨_, rfl⟩

/-- Settles O38: a command is the meaning of its opcode, which turns it away in three ways. -/
theorem commandGate : Obligations.CommandGate := by
  unfold Obligations.CommandGate
  intro i op id tm s of ready drained first
  obtain ⟨f, meaning⟩ := exec_eq_opcode of ready drained first
  rw [meaning]
  exact ⟨fun _ _ _ found may gate => opcode_gated f found may gate, fun _ found early => opcode_early f found early, opcode_unknown f⟩

end Sys2Proof.Machine
end

section
/-! PROOFS. Commands of lanes, and the launch of a lane. -/
namespace Sys2Proof.Machine
open Sys2Proof

/-! A command that has begun: only the list of commands has changed. -/
@[simp] theorem State.half_entered (s : State) (c : Cmd) (h : HalfId) : (s.entered c).half h = s.half h := State.half_putCmd ..
@[simp] theorem State.lane_entered (s : State) (c : Cmd) (l : Nat) : (s.entered c).lane l = s.lane l := State.lane_putCmd ..
@[simp] theorem State.entered_out (s : State) (c : Cmd) : (s.entered c).out = s.out := rfl
@[simp] theorem State.entered_time (s : State) (c : Cmd) : (s.entered c).time = s.time := rfl
/-- A command that starts, by what its effect comes to. -/
theorem opcode_next {op id tm : Nat} {f : State → Cmd → HalfId → State} {s t : State} {c : Cmd} {h : HalfId} (w : (s.at tm).starts id op c h)
    (e : f ((s.at tm).entered c) c h = t) : opcode op id tm f s = .next t :=
  (opcode_starts w).trans (congrArg _ e)

theorem roundUp_zero (b : Nat) : roundUp 0 b = 0 := by
  cases b with
  | zero => rfl
  | succ n => rw [roundUp, ceilDiv, Nat.div_eq_of_lt (by omega), Nat.zero_mul]
theorem Thread.gReg_none {x : Thread} (h : x.g = []) (r : RegNo) : x.gReg r = 0 := by
  rw [gReg, h]
  split <;> rfl

/-! What the launch of a lane leaves of its phase and its threads. -/
/-- Whether a lane runs, and its threads. -/
def Lane.stand (L : Lane) : LanePhase × Sparse Thread := (L.phase, L.th)
theorem Lane.stand_settleWakes (L : Lane) (f : Nat) : (L.settleWakes f).stand = L.stand := rfl
theorem Lane.stand_trimPages (L : Lane) : L.trimPages.stand = L.stand := by
  unfold trimPages
  split <;> rfl
theorem Lane.stand_beginCkpt (L : Lane) (f : Nat) : (L.beginCkpt f).stand = L.stand := by
  unfold beginCkpt
  split
  · rfl
  · exact Lane.stand_trimPages _
theorem Lane.stand_markRegion (L : Lane) (j v : Nat) : (L.markRegion j v).stand = L.stand := rfl
theorem Lane.stand_raiseBeam (L : Lane) (n d : Nat) : (L.raiseBeam n d).stand = L.stand := rfl
theorem Lane.stand_arrive (L : Lane) : L.arrive.stand = L.stand := by
  unfold arrive
  dsimp only
  split
  · exact foldl_keeps Lane.stand (fun L _ => L.stand_markRegion ..) _ _
  · refine (foldl_keeps Lane.stand (fun L _ => L.stand_raiseBeam 30 _) _ _).trans ?_
    exact foldl_keeps Lane.stand (fun L _ => L.stand_markRegion ..) _ _
@[simp] theorem State.lane_putNetLane (s : State) (l k : Nat) (n : NetLane) : (s.putNetLane l n).lane k = s.lane k := by
  have lanes := State.lanes_putHalf s (halfOf l) (halfOf k) { s.half (halfOf l) with net := { (s.half (halfOf l)).net with
    lanes := Sparse.set netLaneReset (s.half (halfOf l)).net.lanes (l % 128) n } } rfl
  simp only [State.lane, Half.lane, State.putNetLane, lanes]
theorem State.stand_ckptAt (s : State) (l f : Nat) : ((s.ckptAt l f).lane l).stand = (s.lane l).stand := by
  unfold State.ckptAt
  dsimp only
  split
  · rw [State.lane_putLane, Lane.stand_settleWakes]
  · rw [State.lane_putLane, Lane.stand_beginCkpt, State.lane_putLane, Lane.stand_settleWakes]
theorem State.stand_firstBoundary (s : State) (l f : Nat) : ((s.firstBoundary l f).lane l).stand = (s.lane l).stand := by
  unfold State.firstBoundary
  dsimp only
  rw [State.lane_putLane, Lane.stand_arrive, State.lane_putNetLane, State.stand_ckptAt, State.lane_putLane]
  rfl
/-- The lane that a launch leaves: it runs with thread 0 started, and its LANE_START waits. -/
theorem State.lane_launch (s : State) (l : Nat) :
    ((s.launch l).lane l).phase = .running ∧ ((s.launch l).lane l).th = ((s.lane l).startThread 0 0).th ∧
      ((s.launch l).lane l).startCmd.map (·.1) = (s.lane l).pauseCmds.head? := by
  have stand := (s.putLane l { (s.lane l).startThread 0 0 with phase := .running, pauseCmds := [] }).stand_firstBoundary l 0
  rw [State.lane_putLane] at stand
  obtain ⟨phase, th⟩ := Prod.mk.inj stand
  rw [State.launch, State.lane_putLane]
  refine ⟨phase, th, ?_⟩
  rw [Option.map_map]
  exact Option.map_id' ..
/-- A launch leaves the issue of the lane's thread 0 to come. -/
theorem State.issued_launch (s : State) (l : Nat) : ((s.launch l).half (halfOf l)).issued.contains l = false := by
  rw [State.launch, State.putLane, State.half_putHalf]
  simp [Half.putLane]

/-- Settles O39: each command starts and acts by its branches; a launched lane by `lane_launch`. -/
theorem laneCommands : Obligations.LaneCommands := by
  unfold Obligations.LaneCommands
  refine ⟨fun id tm l r s launched => ?launched, fun id tm c h t here z s w => ?start, fun id tm s waits => ?waits, fun id tm c h s w on done => ?stop,
    fun id tm c h s w on => ?pause, fun id tm c h s w paused free => ?paused, fun id tm c h s w => ?resume, fun id tm c h s w live => ?notify,
    fun id tm c h s w => ?query, fun h n t s title copying runs none => ?copied, fun h n t s title copying => ?goes, fun s l hl => ?launch⟩
  case launched =>
    refine ⟨fun issued => ?_, fun not => ?_⟩
    · change execLaneStart id tm s = _
      simp only [execLaneStart, launched, State.half_at, issued, if_true]
      rfl
    · change execLaneStart id tm s = _
      simp only [execLaneStart, launched, State.half_at, not, Bool.false_eq_true, if_false]
      rfl
  case start =>
    intro u l b fresh stopped block timing found admitted
    refine ⟨_, rfl, ?_⟩
    change execLaneStart id tm s = _
    simp only [execLaneStart, fresh]
    refine opcode_next w ?_
    change State.laneStart u c = _
    unfold State.laneStart
    simp only [stopped, ne_eq, not_true_eq_false, if_false, block, timing, found, admitted, b, l]
  case waits => exact if_pos waits
  case stop =>
    change execLaneStop id tm s = _
    rw [execLaneStop, if_neg (by simp [done])]
    refine opcode_next w ?_
    rw [State.lane_entered, State.lane_at, if_neg on]
  case pause =>
    refine ⟨((s.at tm).entered c).putLane c.target { s.lane c.target with
      pauseDue := { (s.lane c.target).pauseDue with command := true }, pauseCmds := (s.lane c.target).pauseCmds ++ [c.id] }, ?_, ?_⟩
    · change execLanePause id tm s = _
      refine opcode_next w ?_
      simp only [State.lanePause, State.lane_entered, State.lane_at, on]
    · rw [State.lane_putLane, State.putLane_out]
      exact ⟨rfl, rfl, on, rfl, rfl, rfl⟩
  case paused =>
    refine ⟨{ s.lane c.target with pausedFor := { (s.lane c.target).pausedFor with command := true } }, rfl, rfl, ?_⟩
    change execLanePause id tm s = _
    refine opcode_next w ?_
    simp only [State.lanePause, State.lane_entered, State.lane_at, paused, free, Bool.false_eq_true, if_false]
  case resume =>
    intro L paused fault test drain snap ladder
    change execLaneResume id tm s = _
    refine opcode_next w ?_
    unfold State.laneResume
    simp only [State.lane_entered, State.half_entered, State.lane_at, State.half_at]
    rw [if_neg (fun ⟨_, on, high⟩ => ladder.elim (fun off => absurd (off.symm.trans on) Bool.false_ne_true) fun low => by omega),
      if_neg (by simp only [L] at paused fault test drain snap; simp [paused, fault, test, drain, snap])]
  case notify =>
    intro L
    change execLaneNotify id tm s = _
    refine opcode_next w ?_
    unfold State.laneNotify
    simp only [State.lane_entered, State.lane_at, live]
    rfl
  case query =>
    change execLaneQuery id tm s = _
    refine opcode_next w ?_
    have info : ((s.at tm).entered c).laneInfo c.target = s.laneInfo c.target := by
      simp only [State.laneInfo, State.lane_entered, State.lane_at, State.half_entered, State.half_at]
    rw [info]
  case copied =>
    have nobody : (s.half h).held.filter (fun p => decide (p.2.phase = .starting) && !p.2.pauseCmds.isEmpty && decide (p.2.title = n.toNat)) = [] := by
      refine List.filter_eq_nil_iff.mpr fun p hp => ?_
      by_cases its : p.2.title = n.toNat
      · simp [none p hp its]
      · simp [its]
    refine ⟨s.putHalf h { s.half h with titles := Sparse.set noTitle (s.half h).titles n.toNat (some { t with copying := false, ready := true }) }, ?_, ?_, ?_, ?_⟩
    · change execTitleCopyComplete h n s = _
      simp only [execTitleCopyComplete, title]
      rw [if_neg (by simp [runs, copying]), nobody]
      rfl
    · rw [State.half_putHalf]
      simp only [Sparse.get_set_same]
    · rw [State.half_putHalf]
    · exact State.half_peer_putHalf ..
  case goes =>
    change Goes (execTitleCopyComplete h n s)
    simp only [execTitleCopyComplete, title]
    split
    · exact ⟨_, rfl⟩
    · exact ⟨_, rfl⟩
  case launch =>
    obtain ⟨phase, th, start⟩ := s.lane_launch l
    have thread : ∀ t, ((s.launch l).lane l).thread t = ((s.lane l).startThread 0 0).thread t := fun t => by rw [Lane.thread, th, Lane.thread]
    have zero := thread 0
    rw [Lane.startThread, Lane.thread_setThread] at zero
    refine ⟨phase, ?_, ?_, ?_, fun r => ?_, fun t ht => ?_, s.issued_launch l, start⟩
    · rw [zero]
    · rw [zero]
    · rw [zero]
      exact roundUp_zero _
    · rw [zero]
      exact Thread.gReg_none rfl r
    · rw [thread t, Lane.startThread, Lane.thread_setThread_other _ _ _ _ (by omega)]

end Sys2Proof.Machine
end

section
/-! PROOFS. Commands of viewers. -/
namespace Sys2Proof.Machine
open Sys2Proof

/-! Checks of parameters that pass. -/
theorem zeros_ok {p : Bytes} {off n : Nat} (zero : ∀ i, i < n → leAt p (off + i) 1 = 0) : ∀ q ∈ zeros p off n, q.1 = true := by
  intro q hq
  obtain ⟨i, hi, rfl⟩ := List.mem_map.mp hq
  exact decide_eq_true (zero i (List.mem_range.mp hi))
theorem firstBad_zeros {p : Bytes} {off n : Nat} (zero : ∀ i, i < n → leAt p (off + i) 1 = 0) : firstBad (zeros p off n) = none :=
  firstBad_none.mpr (zeros_ok zero)
theorem firstBad_append {l m : List (Bool × Nat)} (hl : firstBad l = none) (hm : firstBad m = none) : firstBad (l ++ m) = none := by
  rw [firstBad_none] at *
  exact fun p hp => (List.mem_append.mp hp).elim (hl p) (hm p)
theorem firstBad_two_zeros {p : Bytes} (h2 : leAt p 2 1 = 0) (h3 : leAt p 3 1 = 0) : firstBad (zeros p 2 2) = none :=
  firstBad_zeros fun i hi => by
    have : i = 0 ∨ i = 1 := by omega
    rcases this with rfl | rfl
    · exact h2
    · exact h3
theorem ok_unless {b c : Bool} (h : b = true → c = true) : (!b || c) = true := by
  cases b with
  | false => rfl
  | true => exact h rfl
theorem State.onViewer_ok {s : State} {c : Cmd} {l : List (Bool × Nat)} {f : State → Nat → Viewer → State} {v : Nat} {x : Viewer}
    (good : firstBad l = none) (found : s.viewerAt c.target (leAt c.params 0 2) = some (v, x)) : s.onViewer c l f = f s v x := by
  rw [State.onViewer, State.checked_ok good, found]
@[simp] theorem State.viewerAt_entered (s : State) (tm : Nat) (c : Cmd) (l n : Nat) : ((s.at tm).entered c).viewerAt l n = s.viewerAt l n := by
  simp only [State.viewerAt, State.half_entered, State.half_at]
@[simp] theorem State.netLane_entered (s : State) (c : Cmd) (l : Nat) : (s.entered c).netLane l = s.netLane l := by
  rw [State.netLane, State.half_entered, State.netLane]
@[simp] theorem State.overBudget_at (s : State) (tm l k b : Nat) (e : Option Nat) : (s.at tm).overBudget l k b e = s.overBudget l k b e := by
  simp only [State.overBudget, State.half_at, State.lane_at]
@[simp] theorem State.overBudget_entered (s : State) (c : Cmd) (l k b : Nat) (e : Option Nat) : (s.entered c).overBudget l k b e = s.overBudget l k b e := by
  simp only [State.overBudget, State.half_entered, State.lane_entered]
@[simp] theorem State.listed_entered (s : State) (tm : Nat) (c : Cmd) (l : Nat) (p : Bytes) : ((s.at tm).entered c).listed l p = s.listed l p := by
  simp only [State.listed, State.viewerAt_entered, State.half_entered, State.half_at]

/-! A viewer added. -/
/-- The accessory and the voice of a viewer at their resets. -/
def Lane.admitViewer (L : Lane) (v : Nat) (x : Viewer) : Lane :=
  let A := { L with lastAcc := Sparse.set accZero L.lastAcc v (accZero v) }
  if x.player then A.mapVoice x.slot (fun _ => voiceDecReset 0) else A
/-- The player of slot 0 of a lane without a pacer paces it. -/
def State.pacedBy (s : State) (l v : Nat) (x : Viewer) : State :=
  let n := s.netLane l
  if x.player ∧ x.slot = 0 ∧ n.pen = false ∧ n.pacerByCmd = false then s.putNetLane l { n with pacer := v, pen := true } else s
/-- A viewer in its entry. -/
def State.seatViewer (s : State) (h : HalfId) (l v : Nat) (x : Viewer) : State :=
  let s := s.putHalf h ((s.half h).putViewer v (some x))
  (s.putLane l ((s.lane l).admitViewer v x)).pacedBy l v x
theorem Lane.admitViewer_keeps (L : Lane) (v : Nat) (x : Viewer) : (L.admitViewer v x).mem = L.mem ∧ (L.admitViewer v x).th = L.th := by
  unfold Lane.admitViewer
  dsimp only
  split
  · exact ⟨rfl, rfl⟩
  · exact ⟨rfl, rfl⟩
@[simp] theorem State.viewer_putNetLane (s : State) (l : Nat) (n : NetLane) (h : HalfId) (v : Nat) :
    ((s.putNetLane l n).half h).viewer v = (s.half h).viewer v := by
  rw [State.putNetLane]
  by_cases same : h = halfOf l
  · rw [same, State.half_putHalf]
    rfl
  · rw [State.half_putHalf_other _ _ _ _ same]
@[simp] theorem State.viewer_putLane (s : State) (l : Nat) (L : Lane) (h : HalfId) (v : Nat) :
    ((s.putLane l L).half h).viewer v = (s.half h).viewer v :=
  congrArg (fun n : Net => Sparse.get noViewer n.viewers v) (State.net_putLane ..)
theorem State.pacedBy_keeps (s : State) (l v n : Nat) (x : Viewer) (h : HalfId) :
    ((s.pacedBy l v x).half h).viewer n = (s.half h).viewer n ∧ (s.pacedBy l v x).lane l = s.lane l ∧ (s.pacedBy l v x).out = s.out := by
  unfold State.pacedBy
  dsimp only
  split
  · exact ⟨State.viewer_putNetLane .., State.lane_putNetLane .., State.putHalf_out ..⟩
  · exact ⟨rfl, rfl, rfl⟩
theorem State.viewer_seatViewer (s : State) (h : HalfId) (l v n : Nat) (x : Viewer) :
    ((s.seatViewer h l v x).half h).viewer n = ((s.half h).putViewer v (some x)).viewer n := by
  rw [State.seatViewer, (State.pacedBy_keeps ..).1, State.viewer_putLane, State.half_putHalf]
theorem State.seatViewer_keeps (s : State) (h : HalfId) (l v : Nat) (x : Viewer) :
    ((s.seatViewer h l v x).lane l).mem = (s.lane l).mem ∧ ((s.seatViewer h l v x).lane l).th = (s.lane l).th ∧ (s.seatViewer h l v x).out = s.out := by
  have lane : (s.putHalf h ((s.half h).putViewer v (some x))).lane l = s.lane l := State.lane_putHalf (by rfl) l
  obtain ⟨-, same, out⟩ := ((s.putHalf h ((s.half h).putViewer v (some x))).putLane l ((s.lane l).admitViewer v x)).pacedBy_keeps l v 0 x h
  rw [State.seatViewer, lane, same, out, State.lane_putLane, State.putLane_out, State.putHalf_out]
  obtain ⟨mem, th⟩ := (s.lane l).admitViewer_keeps v x
  exact ⟨mem, th, rfl⟩
/-- VIEWER_ADD of a viewer that passes every check. -/
theorem State.viewerAdd_ok {s : State} {c : Cmd} {h : HalfId} {v : Nat} (good : viewerBad c.params (s.half h).net.mode = none)
    (on : (s.lane c.target).phase = .running ∨ (s.lane c.target).phase = .paused) (free : (s.half h).holder (leAt c.params 0 4) = none)
    (open' : (s.half h).net.drain = false) (entry : (s.half h).freeViewer = some v) (few : ((s.half h).viewersOf c.target).length < 32)
    (alone : ∀ q ∈ (s.half h).viewersOf c.target, (viewerOf c.params c.target s.time).player = true → q.2.player = true →
      q.2.slot ≠ (viewerOf c.params c.target s.time).slot)
    (room : s.overBudget c.target (viewerOf c.params c.target s.time).flow.sub (viewerOf c.params c.target s.time).budget none = false) :
    s.viewerAdd c h = (s.seatViewer h c.target v { viewerOf c.params c.target s.time with
      t := s.beff h (viewerOf c.params c.target s.time) }).done c (leBytes 2 (viewerNo h v) ++ [0, 0]) := by
  unfold State.viewerAdd
  simp only [good]
  rw [if_neg (by rw [show (viewerOf c.params c.target s.time).flow.id = leAt c.params 0 4 from rfl, free]; exact Bool.false_ne_true),
    if_neg (by simp [open']), if_neg (by rcases on with on | on <;> simp [on])]
  simp only [entry]
  rw [if_neg]
  · rfl
  · rintro (many | ⟨player, taken⟩ | much)
    · omega
    · obtain ⟨q, hq, same⟩ := List.any_eq_true.mp taken
      simp only [Bool.and_eq_true, decide_eq_true_eq] at same
      exact alone q hq player same.1 same.2
    · exact absurd (room.symm.trans much) Bool.false_ne_true

/-! Key frames asked for of the viewers listed. -/
theorem State.viewer_keyed {h : HalfId} {f : Nat → Viewer → Viewer} (keyed : ∀ v x, (f v x).keyDue = x.keyDue ++ [3]) (vs : List Nat) {s : State}
    {v : Nat} {x : Viewer} (hx : (s.half h).viewer v = some x) :
    ∃ y, ((vs.foldl (fun s v => s.mapViewer h v (f v)) s).half h).viewer v = some y ∧ y.keyDue = x.keyDue ++ List.replicate (vs.count v) 3 := by
  induction vs generalizing s x with
  | nil => exact ⟨x, hx, by simp⟩
  | cons u vs ih =>
    by_cases same : v = u
    · subst same
      obtain ⟨y, hy, key⟩ := ih (s := s.mapViewer h v (f v)) (by rw [State.viewer_mapViewer, if_pos rfl, hx]; rfl)
      refine ⟨y, hy, ?_⟩
      rw [key, keyed, List.count_cons_self, List.replicate_succ, List.append_assoc]
      rfl
    · obtain ⟨y, hy, key⟩ := ih (s := s.mapViewer h u (f u)) (by rw [State.viewer_mapViewer, if_neg same, hx])
      exact ⟨y, hy, by rw [key, List.count_cons_of_ne (Ne.symm same)]⟩
theorem State.viewer_unkeyed {h : HalfId} {f : Nat → Viewer → Viewer} {vs : List Nat} {s : State} {v : Nat} (other : v ∉ vs) :
    ((vs.foldl (fun s v => s.mapViewer h v (f v)) s).half h).viewer v = (s.half h).viewer v := by
  induction vs generalizing s with
  | nil => rfl
  | cons u vs ih =>
    rw [List.mem_cons, not_or] at other
    exact (ih other.2).trans (by rw [State.viewer_mapViewer, if_neg other.1])
theorem State.mapViewer_keeps (s : State) (h : HalfId) (v : Nat) (f : Viewer → Viewer) :
    (((s.mapViewer h v f).half h).lanes, (s.mapViewer h v f).out) = ((s.half h).lanes, s.out) := by
  unfold State.mapViewer
  split
  · rw [State.half_putHalf, State.putHalf_out]
    rfl
  · rfl

/-- Settles O40: each command starts, passes its checks, and acts on its viewer. -/
theorem viewerCommands : Obligations.ViewerCommands := by
  unfold Obligations.ViewerCommands
  refine ⟨fun id tm c h v s w => ?add, fun id tm c h v x s w h2 h3 found => ?remove, fun id tm c h v x s w => ?set,
    fun id tm c h v x s w h2 h3 found => ?rekey, fun id tm c h vs s w least most zero listed => ?keyframe, fun id tm c h v x s w on zero found => ?pacer⟩
  case add =>
    intro l p H x good on free open' entry few alone room
    obtain ⟨u, hu⟩ : ∃ u, u = (s.at tm).entered c := ⟨_, rfl⟩
    have half : u.half h = H := by rw [hu, State.half_entered, State.half_at]
    have lane : u.lane l = s.lane l := by rw [hu, State.lane_entered, State.lane_at]
    have time : u.time = (s.at tm).time := by rw [hu, State.entered_time]
    obtain ⟨mem, th, out⟩ := u.seatViewer_keeps h l v { x with t := u.beff h x }
    refine ⟨u.seatViewer h l v { x with t := u.beff h x }, { x with t := u.beff h x }, ?_, ?_, rfl, fun n other => ?_, ?_, ?_, ?_⟩
    · change execViewerAdd id tm s = _
      refine opcode_next w ?_
      have added := State.viewerAdd_ok (s := u) (c := c) (h := h) (v := v) (by rw [half]; exact good) (by rw [lane]; exact on) (by rw [half]; exact free)
        (by rw [half]; exact open') (by rw [half]; exact entry) (by rw [half]; exact few) (by rw [half, time]; exact alone)
        (by rw [time, hu, State.overBudget_entered]; exact room)
      rw [time] at added
      rw [← hu]
      exact added
    · rw [State.viewer_seatViewer, Half.viewer_putViewer]
    · rw [State.viewer_seatViewer, Half.viewer_putViewer_other _ _ other, half]
    · rw [mem, lane]
    · rw [th, lane]
    · rw [out, hu, State.entered_out, State.at_out]
  case remove =>
    intro u
    change execViewerRemove id tm s = _
    refine opcode_next w ?_
    exact State.onViewer_ok (firstBad_two_zeros h2 h3) (by rw [State.viewerAt_entered]; exact found)
  case set =>
    intro p m small levels half zero found room o
    refine ⟨{
      budget := if m.testBit 0 then some (leAt p 4 4) else o.budget
      levels := if m.testBit 1 then some (leAt p 10 1, leAt p 11 1) else o.levels
      halfOk := if m.testBit 2 then some (decide (leAt p 12 1 = 1)) else o.halfOk
      pace := if m.testBit 3 then some (leAt p 8 2) else o.pace },
      rfl, rfl, rfl, rfl, ?_⟩
    intro u
    change execViewerSet id tm s = _
    refine opcode_next w ?_
    change State.viewerSet u c h = _
    unfold State.viewerSet
    dsimp only
    rw [State.onViewer_ok (v := v) (x := x) _ ((State.viewerAt_entered ..).trans found)]
    · rw [if_neg]
      case hnc =>
        rw [State.overBudget_entered, State.overBudget_at, Bool.and_eq_true]
        rintro ⟨bit0, much⟩
        exact absurd ((room bit0).symm.trans much) Bool.false_ne_true
    · refine firstBad_append (firstBad_none.mpr ?_) (firstBad_zeros zero)
      intro q hq
      simp only [List.mem_cons, List.not_mem_nil, or_false] at hq
      rcases hq with rfl | rfl | rfl | rfl
      · exact decide_eq_true small
      · exact ok_unless fun on => decide_eq_true (Nat.le_trans (levels on).1 (levels on).2)
      · exact ok_unless fun on => Bool.and_eq_true_iff.mpr ⟨decide_eq_true (levels on).1, decide_eq_true (levels on).2⟩
      · exact ok_unless fun on => decide_eq_true (half on)
  case rekey =>
    refine ⟨x.flow.rekey (slice c.params 4 32) (s.at tm).time, rfl, rfl, rfl, rfl, rfl, rfl, ?_⟩
    intro u
    change execViewerRekey id tm s = _
    refine opcode_next w ?_
    rw [State.onViewer_ok (firstBad_two_zeros h2 h3) ((State.viewerAt_entered ..).trans found)]
    simp only [State.lane_entered, State.lane_at]
    rfl
  case keyframe =>
    obtain ⟨u, hu⟩ : ∃ u, u = (s.at tm).entered c := ⟨_, rfl⟩
    have halfU : u.half h = s.half h := by rw [hu, State.half_entered, State.half_at]
    obtain ⟨on, hon⟩ : ∃ on, on = vs.filter (fun v => match (u.half h).viewer v with | some x => decide (x.state = 1) | none => false) := ⟨_, rfl⟩
    obtain ⟨f, hf⟩ : ∃ f : Nat → Viewer → Viewer, f = fun v x =>
        if x.state = 1 then { x with keyDue := x.keyDue ++ [3], keyCmds := x.keyCmds ++ [(c.id, decide (on.head? = some v))] }
        else { x with keyDue := x.keyDue ++ [3] } := ⟨_, rfl⟩
    have keyed : ∀ v x, (f v x).keyDue = x.keyDue ++ [3] := fun v x => by
      rw [hf]
      dsimp only
      split <;> rfl
    obtain ⟨b, hb⟩ : ∃ b, b = u.putCmd { c with begun := true, params := leBytes 4 0xFFFFFFFF } := ⟨_, rfl⟩
    have halfB : b.half h = s.half h := by rw [hb, State.half_putCmd, halfU]
    obtain ⟨t, ht⟩ : ∃ t, t = vs.foldl (fun s v => s.mapViewer h v (f v)) b := ⟨_, rfl⟩
    have meaning : exec (.viewerKeyframe id tm) s = .next (if on.isEmpty then t.done c (leBytes 4 0xFFFFFFFF) else t) := by
      change execViewerKeyframe id tm s = _
      refine opcode_next w ?_
      rw [← hu]
      unfold State.viewerKeyframe
      rw [State.checked_ok (firstBad_none.mpr (by simp [least, most, zero]))]
      have listedU : u.listed c.target c.params = some vs := by rw [hu, State.listed_entered]; exact listed
      simp only [listedU]
      subst ht hb hf hon
      rfl
    have kept := foldl_keeps (fun s : State => ((s.half h).lanes, s.out)) (f := fun s v => s.mapViewer h v (f v))
      (fun s v => s.mapViewer_keeps h v (f v)) vs b
    obtain ⟨lanes, out⟩ := Prod.mk.inj kept
    refine ⟨t, fun v x hv hx => ?_, fun v hv => ?_, ?_, ?_, fun idle => ?_, fun ⟨v, x, hv, hx, st⟩ => ?_⟩
    · obtain ⟨y, hy, key⟩ := State.viewer_keyed (h := h) keyed vs (s := b) (v := v) (x := x) (by rw [halfB]; exact hx)
      rw [ht]
      exact ⟨y, _, hy, key, List.mem_replicate.mpr ⟨Nat.ne_of_gt (List.count_pos_iff.mpr hv), rfl⟩⟩
    · rw [ht, State.viewer_unkeyed hv, halfB]
    · rw [ht, lanes, halfB]
    · rw [ht, out, hb, hu]
      rfl
    · rw [meaning, if_pos]
      rw [List.isEmpty_iff, hon, List.filter_eq_nil_iff]
      intro v hv
      rw [halfU]
      cases hx : (s.half h).viewer v with
      | none => exact Bool.false_ne_true
      | some x => simpa using idle v x hv hx
    · rw [meaning, if_neg]
      intro empty
      rw [List.isEmpty_iff, hon, List.filter_eq_nil_iff] at empty
      have no := empty v hv
      rw [halfU, hx] at no
      exact no (decide_eq_true st)
  case pacer =>
    intro n on' w'
    change execLanePacer id tm s = _
    refine opcode_next w ?_
    unfold State.lanePacer
    dsimp only
    rw [State.onViewer_ok (v := v) (x := x) (firstBad_none.mpr (by simp [on, zero])) ((State.viewerAt_entered ..).trans found)]
    rw [State.netLane_entered, State.netLane_at]
    refine congrArg (fun t : State => t.done c []) (ite_congr (propext ?_) (fun _ => rfl) fun _ => rfl)
    simp [n, on', or_assoc]

end Sys2Proof.Machine
end

section
/-! PROOFS. Commands of timing, compositor and audio. -/
namespace Sys2Proof.Machine
open Sys2Proof

/-! Registers written in a row, each where a mask selects it. -/
theorem reg_foldl_other {step : Lane → Nat → Lane} {off : Nat → Nat} {r : Nat}
    (keeps : ∀ L o, r ≠ off o → (step L o).unit.reg r = L.unit.reg r) {l : List Nat} (other : ∀ o ∈ l, r ≠ off o) (L : Lane) :
    (l.foldl step L).unit.reg r = L.unit.reg r := by
  induction l generalizing L with
  | nil => rfl
  | cons a l ih => exact (ih (fun o ho => other o (List.mem_cons_of_mem _ ho)) _).trans (keeps L a (other a List.mem_cons_self))
theorem reg_foldl_masked {step : Lane → Nat → Lane} {off : Nat → Nat} {m : Nat → Bool} {v : Nat → Word} (inj : ∀ o o', off o = off o' → o = o')
    (sets : ∀ L o r, (step L o).unit.reg r = if m o = true ∧ r = off o then v o else L.unit.reg r) {l : List Nat} {o : Nat} (ho : o ∈ l) (L : Lane) :
    (l.foldl step L).unit.reg (off o) = if m o then v o else L.unit.reg (off o) := by
  have keeps : ∀ L a r, r ≠ off a → (step L a).unit.reg r = L.unit.reg r := fun L a r ne => by rw [sets, if_neg fun h => ne h.2]
  induction l generalizing L with
  | nil => exact absurd ho List.not_mem_nil
  | cons a l ih =>
    by_cases again : o ∈ l
    · rw [List.foldl_cons, ih again, sets]
      by_cases on : m o = true
      · rw [if_pos on, if_pos on]
      · rw [if_neg on, if_neg on, if_neg]
        rintro ⟨ma, same⟩
        exact on (inj _ _ same ▸ ma)
    · have here : o = a := (List.mem_cons.mp ho).resolve_right again
      subst here
      rw [List.foldl_cons, reg_foldl_other (off := off) (fun L a ne => keeps L a _ ne) (fun a ha same => again (by rw [inj o a same]; exact ha)), sets]
      by_cases on : m o = true
      · rw [if_pos ⟨on, rfl⟩, if_pos on]
      · rw [if_neg fun h => on h.1, if_neg on]

/-! The registers that XPT_SET writes (R300, R302, R303). -/
def Lane.xptRow (p : Bytes) (L : Lane) (o : Nat) : Lane :=
  if (leAt p 0 2).testBit o then
    { L.setReg (0x38000 + 8 * o) (w64 (leAt p (8 + 8 * o) 8)) with audio := L.audio.setRow o (w64 (leAt p (8 + 8 * o) 8)) }
  else L
def Lane.xptOut (p : Bytes) (L : Lane) (o : Nat) : Lane :=
  if (leAt p 0 2).testBit (8 + o) then L.setReg (0x38040 + 4 * o) (w64 (leAt p (56 + 4 * o) 4) &&& (if o = 5 then 0x01FF0003 else 0x01FF0007)) else L
def Lane.xptTone (p : Bytes) (L : Lane) : Lane :=
  if (leAt p 0 2).testBit 15 then { L.setReg 0x38078 (w64 (leAt p 80 4) &&& 0xFF7FFF) with audio := { L.audio with toneN := 0 } } else L
def Lane.xpt (p : Bytes) (L : Lane) : Lane := Lane.xptTone p ((List.range 6).foldl (Lane.xptOut p) ((List.range 6).foldl (Lane.xptRow p) L))
theorem State.xptSet_ok {s : State} {c : Cmd} (good : firstBad (xptChecks c.params) = none) :
    s.xptSet c = (s.putLane c.target ((s.lane c.target).xpt c.params)).done c [] := by
  unfold State.xptSet
  dsimp only
  rw [State.checked_ok good]
  rfl
theorem Lane.reg_xptRow (p : Bytes) (L : Lane) (o r : Nat) : (L.xptRow p o).unit.reg r =
    if (leAt p 0 2).testBit o = true ∧ r = 0x38000 + 8 * o then w64 (leAt p (8 + 8 * o) 8) else L.unit.reg r := by
  unfold xptRow
  by_cases on : (leAt p 0 2).testBit o = true
  · rw [if_pos on, Lane.setReg, LaneUnit.reg_setReg]
    simp only [on, true_and]
  · rw [if_neg on, if_neg fun h => on h.1]
theorem Lane.reg_xptOut (p : Bytes) (L : Lane) (o r : Nat) : (L.xptOut p o).unit.reg r =
    if (leAt p 0 2).testBit (8 + o) = true ∧ r = 0x38040 + 4 * o then
      w64 (leAt p (56 + 4 * o) 4) &&& (if o = 5 then 0x01FF0003 else 0x01FF0007) else L.unit.reg r := by
  unfold xptOut
  by_cases on : (leAt p 0 2).testBit (8 + o) = true
  · rw [if_pos on, Lane.setReg, LaneUnit.reg_setReg]
    simp only [on, true_and]
  · rw [if_neg on, if_neg fun h => on h.1]
theorem Lane.reg_xptTone (p : Bytes) (L : Lane) (r : Nat) : (L.xptTone p).unit.reg r =
    if (leAt p 0 2).testBit 15 = true ∧ r = 0x38078 then w64 (leAt p 80 4) &&& 0xFF7FFF else L.unit.reg r := by
  unfold xptTone
  by_cases on : (leAt p 0 2).testBit 15 = true
  · rw [if_pos on, Lane.setReg, LaneUnit.reg_setReg]
    simp only [on, true_and]
  · rw [if_neg on, if_neg fun h => on h.1]
/-- The registers of the rows and of the outputs lie apart. -/
theorem Lane.reg_xpt_row (p : Bytes) (L : Lane) {o : Nat} (ho : o < 6) : (L.xpt p).unit.reg (0x38000 + 8 * o) =
    if (leAt p 0 2).testBit o then w64 (leAt p (8 + 8 * o) 8) else L.unit.reg (0x38000 + 8 * o) := by
  rw [xpt, reg_xptTone, if_neg (by omega),
    reg_foldl_other (off := fun o => 0x38040 + 4 * o) (fun L o ne => by rw [reg_xptOut, if_neg fun h => ne h.2]) (by intro a _; omega)]
  exact reg_foldl_masked (off := fun o => 0x38000 + 8 * o) (by intro a b; omega) (fun L o r => L.reg_xptRow p o r) (List.mem_range.mpr ho) L
theorem Lane.reg_xpt_out (p : Bytes) (L : Lane) {o : Nat} (ho : o < 6) : (L.xpt p).unit.reg (0x38040 + 4 * o) =
    if (leAt p 0 2).testBit (8 + o) then w64 (leAt p (56 + 4 * o) 4) &&& (if o = 5 then 0x01FF0003 else 0x01FF0007)
    else L.unit.reg (0x38040 + 4 * o) := by
  rw [xpt, reg_xptTone, if_neg (by omega)]
  refine (reg_foldl_masked (off := fun o => 0x38040 + 4 * o) (by intro a b; omega) (fun L o r => L.reg_xptOut p o r)
    (List.mem_range.mpr ho) _).trans ?_
  rw [reg_foldl_other (off := fun o => 0x38000 + 8 * o) (fun L o ne => by rw [reg_xptRow, if_neg fun h => ne h.2])
    (by intro a ha; have := List.mem_range.mp ha; omega)]
theorem Lane.reg_xpt_tone (p : Bytes) (L : Lane) : (L.xpt p).unit.reg 0x38078 =
    if (leAt p 0 2).testBit 15 then w64 (leAt p 80 4) &&& 0xFF7FFF else L.unit.reg 0x38078 := by
  rw [xpt, reg_xptTone,
    reg_foldl_other (off := fun o => 0x38040 + 4 * o) (fun L o ne => by rw [reg_xptOut, if_neg fun h => ne h.2])
      (by intro a ha; have := List.mem_range.mp ha; omega),
    reg_foldl_other (off := fun o => 0x38000 + 8 * o) (fun L o ne => by rw [reg_xptRow, if_neg fun h => ne h.2])
      (by intro a ha; have := List.mem_range.mp ha; omega)]
  simp only [and_true]
/-- What XPT_SET leaves of the lane. -/
def Lane.beyondXpt (L : Lane) : Mem × Sparse Thread × Operator := (L.mem, L.th, L.op)
theorem Lane.beyondXpt_xpt (p : Bytes) (L : Lane) : (L.xpt p).beyondXpt = L.beyondXpt := by
  have row : ∀ L o, (Lane.xptRow p L o).beyondXpt = L.beyondXpt := fun L o => by
    unfold xptRow
    split <;> rfl
  have out : ∀ L o, (Lane.xptOut p L o).beyondXpt = L.beyondXpt := fun L o => by
    unfold xptOut
    split <;> rfl
  have tone : ∀ L, (Lane.xptTone p L).beyondXpt = L.beyondXpt := fun L => by
    unfold xptTone
    split <;> rfl
  exact (tone _).trans ((foldl_keeps Lane.beyondXpt out _ _).trans (foldl_keeps Lane.beyondXpt row _ _))

/-! The staging state that OP_SET writes (R438). -/
def opSetPut (m : Sparse Word) (e : Bytes) : Sparse Word :=
  Sparse.set laneReset m (0x10000 + leAt e 0 2) (w64 (leAt e 8 8) &&& (operatorMask (0x10000 + leAt e 0 2)).getD 0)
theorem State.opSet_ok {s : State} {c : Cmd} (least : 1 ≤ leAt c.params 0 2) (most : leAt c.params 0 2 ≤ 255)
    (zero : ∀ i, i < 6 → leAt c.params (2 + i) 1 = 0) (good : ∀ i, i < leAt c.params 0 2 → opEntryOk (slice c.params (8 + 16 * i) 16) = true) :
    s.opSet c = (s.putLane c.target { s.lane c.target with op := { (s.lane c.target).op with
      stage := ((List.range (leAt c.params 0 2)).map (fun i => slice c.params (8 + 16 * i) 16)).foldl opSetPut (s.lane c.target).op.stage } }).done c [] := by
  unfold State.opSet
  rw [State.checked_ok (firstBad_append (firstBad_none.mpr (by simp [least, most])) (firstBad_zeros zero))]
  have none : ((List.range (leAt c.params 0 2)).map (fun i => slice c.params (8 + 16 * i) 16)).findIdx? (fun e => !opEntryOk e) = none := by
    rw [List.findIdx?_eq_none_iff]
    intro e he
    obtain ⟨i, hi, rfl⟩ := List.mem_map.mp he
    rw [good i (List.mem_range.mp hi)]
    rfl
  simp only [none]
  rfl
theorem get_foldl_opSetPut (l : List Bytes) (e : Bytes) (m : Sparse Word) : Sparse.get laneReset ((l ++ [e]).foldl opSetPut m) (0x10000 + leAt e 0 2) =
    w64 (leAt e 8 8) &&& (operatorMask (0x10000 + leAt e 0 2)).getD 0 := by
  rw [List.foldl_append]
  exact Sparse.get_set_same ..

/-- The commands of lanes whose checks do not depend on what a command's beginning changes. -/
theorem State.bind_logs {s : State} {c : Cmd} {kind slot : Nat} {data : Bytes}
    (early : c.flags.testBit 2 = false ∨ serialBefore c.deadline ((s.lane c.target).bindAt.2 % 2 ^ 32) = false) :
    s.bind c kind slot data = s.logInput c.target (s.lane c.target) (s.lane c.target).bindAt.1 kind slot data (some c.id) := by
  unfold State.bind
  refine if_neg ?_
  rcases early with off | early
  · rw [off]
    exact Bool.false_ne_true
  · rw [early, Bool.and_false]
    exact Bool.false_ne_true

/-- OP_COMMIT of a live lane whose staged tap is off binds (R240). -/
theorem State.opCommit_binds {s : State} {c : Cmd} (h : HalfId) (live : (s.lane c.target).live = true)
    (clear : bit (Sparse.get laneReset (s.lane c.target).op.stage 0x18800) 0 = false) : ∃ n, s.opCommit c h = s.bind c 5 0 (leBytes 4 n) := by
  unfold State.opCommit
  dsimp only
  rw [if_neg (by simp [live]), if_neg (by simp [clear])]
  exact ⟨_, rfl⟩

/-- Settles O41: each command starts, passes its checks and acts, or enters the log at its boundary. -/
theorem timingCommands : Obligations.TimingCommands := by
  unfold Obligations.TimingCommands
  refine ⟨fun id tm c h s w => ?timing, fun id tm c h s w => ?tune, fun id tm c h s w => ?load, fun id tm c h s w => ?ops,
    fun id tm c h s w live clear => ?commit, fun id tm c h s w => ?xpt, fun id tm c h s w => ?announce, fun s c kind slot data => ?bind⟩
  case timing =>
    intro L b live zero zeros' timing fetch
    change execTimingSet id tm s = _
    refine opcode_next w ?_
    unfold State.timingSet
    simp only [State.lane_entered, State.lane_at]
    rw [if_neg (by simp only [L] at live; simp [live]), State.checked_ok]
    · simp only [State.half_entered, State.half_at, L, b] at timing fetch ⊢
      simp only [timing, fetch]
    · exact firstBad_append (firstBad_append (firstBad_zeros (by simpa using zero)) (firstBad_zeros fun i hi => (zeros' i hi).1))
        (firstBad_zeros fun i hi => (zeros' i hi).2)
  case tune =>
    intro p m small pen lead zero live
    change execLaneTune id tm s = _
    refine opcode_next w ?_
    unfold State.laneTune
    dsimp only
    rw [State.checked_ok]
    · exact if_neg (by rw [State.lane_entered, State.lane_at, live]; exact Bool.false_ne_true)
    · refine firstBad_none.mpr fun q hq => ?_
      simp only [List.mem_cons, List.not_mem_nil, or_false] at hq
      rcases hq with rfl | rfl | rfl | rfl
      · exact decide_eq_true small
      · exact ok_unless fun on => decide_eq_true (pen on)
      · exact ok_unless fun on => decide_eq_true (lead on)
      · exact decide_eq_true zero
  case load =>
    intro p L idle fits least most zero
    refine ⟨{ L with op := { L.op with staging := L.op.staging.writeBytes (leAt p 0 4) (slice p 8 (leAt p 4 2)) } }, rfl, rfl, rfl, rfl, rfl, ?_⟩
    change execOvLoad id tm s = _
    have found : s.cmd id = some c := w.1
    unfold execOvLoad
    simp only [found]
    rw [if_neg (by simp only [L] at idle; simp [idle])]
    refine opcode_next w ?_
    rw [State.checked_ok (firstBad_none.mpr (by simp only [p] at fits least most zero; simp [fits, least, most, zero])), State.lane_entered, State.lane_at]
  case ops =>
    intro p n L least most zero good
    refine ⟨{ L with op := { L.op with stage := ((List.range n).map (fun i => slice p (8 + 16 * i) 16)).foldl opSetPut L.op.stage } },
      rfl, rfl, rfl, rfl, ?_, ?_⟩
    · have last : (List.range n).map (fun i => slice p (8 + 16 * i) 16) =
          (List.range (n - 1)).map (fun i => slice p (8 + 16 * i) 16) ++ [slice p (8 + 16 * (n - 1)) 16] := by
        obtain ⟨k, hk⟩ : ∃ k, n = k + 1 := ⟨n - 1, by omega⟩
        rw [hk, List.range_succ, List.map_append]
        rfl
      rw [last]
      exact get_foldl_opSetPut ..
    · change execOpSet id tm s = _
      refine opcode_next w ?_
      rw [State.opSet_ok least most zero good, State.lane_entered, State.lane_at]
  case commit =>
    obtain ⟨n, binds⟩ := State.opCommit_binds (s := (s.at tm).entered c) (c := c) h (by rw [State.lane_entered, State.lane_at]; exact live)
      (by rw [State.lane_entered, State.lane_at]; exact clear)
    refine ⟨n, ?_⟩
    change execOpCommit id tm s = _
    exact opcode_next w binds
  case xpt =>
    intro p m L good
    have kept := L.beyondXpt_xpt p
    simp only [Lane.beyondXpt, Prod.mk.injEq] at kept
    obtain ⟨mem, th, op⟩ := kept
    refine ⟨L.xpt p, fun o ho => L.reg_xpt_row p ho, fun o ho => L.reg_xpt_out p ho, L.reg_xpt_tone p, mem, th, op, ?_⟩
    change execXptSet id tm s = _
    refine opcode_next w ?_
    rw [State.xptSet_ok good, State.lane_entered, State.lane_at]
  case announce =>
    intro p n pages most zero
    refine ⟨{ s.lane c.target with audio := { (s.lane c.target).audio with ann := { on := decide (n ≠ 0), addr := leAt p 0 8, size := n, rd := 0, queue := [] } } },
      rfl, rfl, rfl, rfl, rfl, rfl, rfl, rfl, ?_⟩
    change execAnnounceRing id tm s = _
    refine opcode_next w ?_
    dsimp only
    rw [State.checked_ok (firstBad_append (firstBad_none.mpr fun q hq => by
      rw [List.mem_singleton.mp hq]
      exact Bool.and_eq_true_iff.mpr ⟨decide_eq_true pages, decide_eq_true most⟩) (firstBad_zeros zero)), State.lane_entered, State.lane_at]
  case bind =>
    intro g
    refine ⟨fun timed late => ?_, fun early => ?_⟩
    · unfold State.bind
      exact if_pos (Bool.and_eq_true_iff.mpr ⟨timed, late⟩)
    · have frame := (s.lane c.target).roomFrame_makeRoom
      simp only [Lane.roomFrame, Prod.mk.injEq] at frame
      rw [State.bind_logs early, State.logInput, State.lane_ckptLost, State.lane_putLane, State.cmds_ckptLost, State.putLane_cmds]
      exact ⟨_, mem_insertInput _ _, rfl, rfl, rfl, rfl, rfl, rfl, rfl, frame.1⟩

end Sys2Proof.Machine
end

section
/-! PROOFS. What the records of faults, retirement and tests leave of a half. -/
namespace Sys2Proof.Machine
open Sys2Proof

/-- A half without what the record of a fault touches: its counts and records, whether a rotation has halted, the lifetime record, the
control flow and the event ring. -/
def Half.unrecorded (H : Half) : Half :=
  { H with
    net := { H.net with control := none }
    ev := EventRing.reset
    life := (Half.reset .east).life
    sp := { H.sp with records := [], last := 0, masked := [], detected := [], faults := [], luHalt := false, coreHalt := false } }
/-- A half without what retirement and tests touch either. -/
def Half.unserviced (H : Half) : Half :=
  { H.unrecorded with sp := { H.unrecorded.sp with retired := [], spares := [], spareCore := none, tests := [] } }
theorem Half.unserviced_of {H K : Half} (e : H.unrecorded = K.unrecorded) : H.unserviced = K.unserviced := by
  rw [unserviced, e, unserviced]

theorem Half.unrecorded_lifeAdd (H : Half) (off n k : Nat) : (H.lifeAdd off n k).unrecorded = H.unrecorded := rfl
theorem Half.unrecorded_lifePut (H : Half) (off n v : Nat) : (H.lifePut off n v).unrecorded = H.unrecorded := rfl
theorem Half.unrecorded_lifeBit (H : Half) (off i : Nat) : (H.lifeBit off i).unrecorded = H.unrecorded := H.unrecorded_lifePut ..
theorem Half.unrecorded_lifeDue (H : Half) : H.lifeDue.unrecorded = H.unrecorded := rfl

/-! What equal halves of either kind agree on. -/
section
variable {H K : Half}
theorem Half.lanes_of_unserviced (e : H.unserviced = K.unserviced) : H.lanes = K.lanes := by
  exact (congrArg Half.lanes e :)
theorem Half.drain_of_unserviced (e : H.unserviced = K.unserviced) : H.drain = K.drain := by
  exact (congrArg Half.drain e :)
theorem Half.ctxs_of_unserviced (e : H.unserviced = K.unserviced) : H.ctxs = K.ctxs := by
  exact (congrArg Half.ctxs e :)
theorem Half.luMap_of_unserviced (e : H.unserviced = K.unserviced) : H.sp.luMap = K.sp.luMap := by
  exact (congrArg (fun H => H.sp.luMap) e :)
theorem Half.coreMap_of_unserviced (e : H.unserviced = K.unserviced) : H.sp.coreMap = K.sp.coreMap := by
  exact (congrArg (fun H => H.sp.coreMap) e :)
theorem Half.handoff_of_unserviced (e : H.unserviced = K.unserviced) : H.sp.handoff = K.sp.handoff := by
  exact (congrArg (fun H => H.sp.handoff) e :)
theorem Half.luNext_of_unserviced (e : H.unserviced = K.unserviced) : H.sp.luNext = K.sp.luNext := by
  exact (congrArg (fun H => H.sp.luNext) e :)
theorem Half.coreNext_of_unserviced (e : H.unserviced = K.unserviced) : H.sp.coreNext = K.sp.coreNext := by
  exact (congrArg (fun H => H.sp.coreNext) e :)
theorem Half.memCorr_of_unserviced (e : H.unserviced = K.unserviced) : H.sp.memCorr = K.sp.memCorr := by
  exact (congrArg (fun H => H.sp.memCorr) e :)
theorem Half.spares_of_unrecorded (e : H.unrecorded = K.unrecorded) : H.sp.spares = K.sp.spares := by
  exact (congrArg (fun H => H.sp.spares) e :)
theorem Half.spareCore_of_unrecorded (e : H.unrecorded = K.unrecorded) : H.sp.spareCore = K.sp.spareCore := by
  exact (congrArg (fun H => H.sp.spareCore) e :)
theorem Half.tests_of_unrecorded (e : H.unrecorded = K.unrecorded) : H.sp.tests = K.sp.tests := by
  exact (congrArg (fun H => H.sp.tests) e :)
theorem Half.retired_of_unrecorded (e : H.unrecorded = K.unrecorded) : H.sp.retired = K.sp.retired := by
  exact (congrArg (fun H => H.sp.retired) e :)
end

theorem State.half_putHalf_of {X : Type} {s : State} {h : HalfId} {H : Half} (p : Half → X) (e : p H = p (s.half h)) (k : HalfId) :
    p ((s.putHalf h H).half k) = p (s.half k) := by
  by_cases own : k = h
  · rw [own, State.half_putHalf, e]
  · rw [State.half_putHalf_other _ _ _ _ own]
theorem State.unrecorded_event (s : State) (h k : HalfId) (code lane frame data : Nat) :
    ((s.event h code lane frame data).half k).unrecorded = (s.half k).unrecorded := by
  obtain ⟨c, e, only⟩ := s.event_half h k code lane frame data
  rw [only]
  rfl

/-! A count and a record. -/
theorem State.unrecorded_countFault (s : State) (h k : HalfId) (cls : Nat) (masked : Bool) :
    ((s.countFault h cls masked).half k).unrecorded = (s.half k).unrecorded := by
  unfold State.countFault
  dsimp only
  refine State.half_putHalf_of Half.unrecorded ?_ k
  rw [Half.unrecorded_lifeAdd]
  cases masked <;> rfl
theorem State.half_peer_countFault (s : State) (h : HalfId) (cls : Nat) (masked : Bool) :
    (s.countFault h cls masked).half (HalfId.peer h) = s.half (HalfId.peer h) := State.half_peer_putHalf ..
theorem State.countFault_only (s : State) (h : HalfId) (cls : Nat) (masked : Bool) :
    (s.countFault h cls masked).cmds = s.cmds ∧ (s.countFault h cls masked).time = s.time ∧ (s.countFault h cls masked).out = s.out :=
  ⟨State.putHalf_cmds .., State.putHalf_time .., State.putHalf_out ..⟩
theorem State.unrecorded_putRecords (s : State) (h k : HalfId) (n : Nat) (rs : List FaultRecord) :
    ((s.putHalf h { s.half h with sp := { (s.half h).sp with last := n, records := rs } }).half k).unrecorded = (s.half k).unrecorded :=
  State.half_putHalf_of Half.unrecorded (by rfl) k
theorem State.unrecorded_record (s : State) (h k : HalfId) (r : FaultRecord) : ((s.record h r).half k).unrecorded = (s.half k).unrecorded := by
  rw [State.record, State.unrecorded_event]
  exact s.unrecorded_putRecords ..
theorem State.half_peer_record (s : State) (h : HalfId) (r : FaultRecord) : (s.record h r).half (HalfId.peer h) = s.half (HalfId.peer h) := by
  rw [State.record, State.half_event_peer, State.half_peer_putHalf]
theorem State.record_only (s : State) (h : HalfId) (r : FaultRecord) : (s.record h r).cmds = s.cmds ∧ (s.record h r).time = s.time := by
  rw [State.record, State.cmds_event, State.time_event, State.putHalf_cmds, State.putHalf_time]
  exact ⟨rfl, rfl⟩
theorem State.unrecorded_report (s : State) (f : FaultInfo) (action levee flags : Nat) (k : HalfId) :
    ((s.report f action levee flags).half k).unrecorded = (s.half k).unrecorded := by
  unfold State.report
  dsimp only
  rw [State.recordFault, State.unrecorded_record]
  refine (State.half_putHalf_of Half.unrecorded ?_ k).trans (s.unrecorded_countFault ..)
  split
  · split <;> rfl
  · rfl
theorem State.report_only (s : State) (f : FaultInfo) (action levee flags : Nat) :
    (s.report f action levee flags).cmds = s.cmds ∧ (s.report f action levee flags).time = s.time := by
  unfold State.report State.recordFault
  dsimp only
  rw [(State.record_only ..).1, (State.record_only ..).2, State.putHalf_cmds, State.putHalf_time]
  exact ⟨(s.countFault_only ..).1, (s.countFault_only ..).2.1⟩
theorem State.unrecorded_noteHalt (s : State) (h k : HalfId) (next : Nat) : ((s.noteHalt h next).half k).unrecorded = (s.half k).unrecorded := by
  rw [State.noteHalt, State.recordFault, State.unrecorded_record, State.unrecorded_countFault]
theorem State.unrecorded_checkHalt (s : State) (h k : HalfId) : ((s.checkHalt h).half k).unrecorded = (s.half k).unrecorded := by
  have note : ∀ (c : Bool) (t : State) (n : Nat), ((if c then t.noteHalt h n else t).half k).unrecorded = (t.half k).unrecorded := fun c t n => by
    split
    · exact t.unrecorded_noteHalt ..
    · rfl
  unfold State.checkHalt
  dsimp only
  rw [note, note]
  refine State.half_putHalf_of Half.unrecorded ?_ k
  rfl

/-! Retirement, and a unit freed. -/
theorem State.unserviced_checkHalt (s : State) (h k : HalfId) : ((s.checkHalt h).half k).unserviced = (s.half k).unserviced :=
  Half.unserviced_of (s.unrecorded_checkHalt ..)
theorem State.unserviced_retire (s : State) (h k : HalfId) (u : UnitKind) (i : Nat) : ((s.retire h u i).half k).unserviced = (s.half k).unserviced := by
  unfold State.retire
  dsimp only
  split
  · rfl
  · rw [State.unserviced_checkHalt]
    refine State.half_putHalf_of Half.unserviced ?_ k
    rw [Half.unserviced, Half.unrecorded_lifeDue, Half.unrecorded_lifeBit]
    rfl
theorem State.unserviced_freed (s : State) (h k : HalfId) (u : UnitKind) (i : Nat) : ((s.freed h u i).half k).unserviced = (s.half k).unserviced := by
  unfold State.freed
  dsimp only
  split
  · exact s.unserviced_retire ..
  · split
    · exact s.unserviced_checkHalt ..
    · rw [State.unserviced_checkHalt]
      refine State.half_putHalf_of Half.unserviced ?_ k
      rfl

end Sys2Proof.Machine
end

section
/-! PROOFS. Commands of titles, snapshots and migration, and the memory events. -/
namespace Sys2Proof.Machine
open Sys2Proof

theorem firstBad_half {p : Bytes} (h : leAt p 0 1 ≤ 1) : firstBad (halfByte p) = none :=
  firstBad_none.mpr fun q hq => by
    rw [List.mem_singleton.mp hq]
    exact decide_eq_true h
theorem firstBad_one {b : Bool} {n : Nat} (h : b = true) : firstBad [(b, n)] = none :=
  firstBad_none.mpr fun q hq => by
    rw [List.mem_singleton.mp hq]
    exact h
@[simp] theorem State.lane_putTitle (s : State) (h : HalfId) (id : Nat) (t : Option Title) (l : Nat) : (s.putTitle h id t).lane l = s.lane l := by
  rw [State.putTitle]
  exact State.lane_putHalf (by rfl) l
@[simp] theorem State.putTitle_out (s : State) (h : HalfId) (id : Nat) (t : Option Title) : (s.putTitle h id t).out = s.out := State.putHalf_out ..

/-- A lane in its snapshot work, its memory and its threads as they were. -/
theorem State.beginSnap_snap (s : State) (l : Nat) (cmd : Option Nat) (live drain : Bool) :
    ∃ z, ((s.beginSnap l cmd live drain).lane l).snap = some z ∧ z.cmd = cmd ∧ z.drain = drain ∧ z.rounds = 0 ∧
      z.live = (live && decide ((s.lane l).phase = .running)) ∧ ((s.beginSnap l cmd live drain).lane l).mem = (s.lane l).mem ∧
      ((s.beginSnap l cmd live drain).lane l).th = (s.lane l).th ∧ (s.beginSnap l cmd live drain).out = s.out := by
  unfold State.beginSnap
  dsimp only
  rw [State.lane_putLane, State.putLane_out]
  split
  · exact ⟨_, rfl, rfl, rfl, rfl, rfl, rfl, rfl, rfl⟩
  · exact ⟨_, rfl, rfl, rfl, rfl, rfl, rfl, rfl, rfl⟩
theorem snap_free {L : Lane} (on : L.phase = .running ∨ L.phase = .paused) (free : L.snap = none) :
    ¬ ((L.phase ≠ .running ∧ L.phase ≠ .paused) ∨ L.snap.isSome) := by
  rw [free]
  rcases on with on | on <;> simp [on]

/-! A corrected error of an HBM row: the counts alone. -/
theorem State.hbmCorrected_counts (s : State) (f : FaultInfo) (row flags : Nat) :
    ((s.hbmCorrected f row flags).half f.half).sp.memCorr = (s.half f.half).sp.memCorr + 1 ∧
      ((s.hbmCorrected f row flags).half f.half).lanes = (s.half f.half).lanes := by
  have of : ∀ {t : State} {H : Half}, (t.half f.half).unrecorded = H.unrecorded → H.sp.memCorr = (s.half f.half).sp.memCorr + 1 →
      H.lanes = (s.half f.half).lanes →
      (t.half f.half).sp.memCorr = (s.half f.half).sp.memCorr + 1 ∧ (t.half f.half).lanes = (s.half f.half).lanes := fun e count lanes =>
    ⟨(Half.memCorr_of_unserviced (Half.unserviced_of e)).trans count, (Half.lanes_of_unserviced (Half.unserviced_of e)).trans lanes⟩
  unfold State.hbmCorrected
  dsimp only
  split
  · refine of ((State.unrecorded_report ..).trans (congrArg Half.unrecorded (State.half_putHalf ..))) ?_ ?_
    · rfl
    · rfl
  · split
    · refine of ((State.unrecorded_report ..).trans (congrArg Half.unrecorded (State.half_putHalf ..))) ?_ ?_
      · rfl
      · rfl
    · refine of ((State.unrecorded_countFault ..).trans (congrArg Half.unrecorded (State.half_putHalf ..))) ?_ ?_
      · rfl
      · rfl

/-! The branches of a final round. -/
section
variable {l tm : Nat} {s : State} {z : Snapshot}
theorem execFinalRound_sealed (hl : l < 256) (snap : (s.lane l).snap = some z) (paused : (s.lane l).phase = .paused) (live : z.frozen = false)
    {k : Checkpoint} (sealed : ((s.lane l).sealCkpt (s.at tm).time).pausedCkpt = some k) :
    execFinalRound l tm s = match (match z.cmd with | some id => (s.at tm).cmd id | none => none) with
      | some c => if c.opcode = 0x0407 then (match (s.at tm).finishMove l k c with | some t => .next t | none => stay (s.at tm))
        else .next ((s.at tm).finishSnapshot l k c z.live)
      | none => .next (((s.at tm).makeImage l k z.live).1.putLane l { ((s.at tm).makeImage l k z.live).1.lane l with
          snap := some { z with frozen := true, image := some ((s.at tm).makeImage l k z.live).2 } }) := by
  rw [execFinalRound, if_neg (by omega)]
  simp only [State.lane_at, snap, paused, live, sealed]
  rfl
end

/-- Settles O42: each command starts, passes its checks and acts; the rounds and the errors by their branches. -/
theorem memoryCommands : Obligations.MemoryCommands := by
  unfold Obligations.MemoryCommands
  refine ⟨fun id data tm c h s w => ?load, fun id tm c h t s w => ?unload, fun id data tm c h t s w => ?repair, fun id tm c h s w => ?snapshot,
    fun id image tm c h t z s w => ?restore, fun id tm c h s w => ?plan, fun id tm c h r s w => ?move,
    fun l tm z s hl snap on live form free => ?round, fun l tm z k id c s hl snap paused live sealed cmd found op => ?write,
    fun l tm z k s hl snap paused live sealed cmd => ?keep, fun l tm z k id c t s hl snap paused live sealed cmd found op moved => ?moved,
    fun l tm z s hl snap paused live sealed => ?again, fun h addr tm s ha runs up waits => ?late, fun h addr tm s ha runs up serves => ?scrub,
    fun h pc s hpc runs up failing => ?spare⟩
  case load =>
    intro p half zero size new few room len dig
    refine ⟨{ data := data, digest := slice p 24 48, ready := true, refs := 0, unloading := false, copying := false, crcs := pageCrcs data, bad := [] },
      rfl, rfl, rfl, rfl, rfl, ?_⟩
    change execTitleLoad id data tm s = _
    refine opcode_next w ?_
    unfold State.titleLoad
    dsimp only
    rw [State.checked_ok (firstBad_append (firstBad_append (firstBad_half half) (firstBad_zeros zero)) (firstBad_one (decide_eq_true size)))]
    simp only [State.half_entered, State.half_at]
    simp only [p] at new
    simp only [new]
    rw [if_neg (by omega), if_neg (Nat.not_lt.mpr room), if_neg (by simpa using len), if_neg (by simpa using dig)]
  case unload =>
    intro p half zero there
    change execTitleUnload id tm s = _
    refine opcode_next w ?_
    unfold State.titleUnload
    dsimp only
    rw [State.checked_ok (firstBad_append (firstBad_half half) (firstBad_zeros zero))]
    simp only [State.half_entered, State.half_at]
    simp only [p] at there
    simp only [there]
    rfl
  case repair =>
    intro p k half zero zero' there page len crc
    refine ⟨{ t with data := (t.data.take (4096 * k) ++ data ++ t.data.drop (4096 * k + 4096)).take t.data.length,
                     bad := t.bad.filter (fun x => decide (x ≠ k)) }, rfl, rfl, rfl, ?_⟩
    change execTitleRepair id data tm s = _
    refine opcode_next w ?_
    unfold State.titleRepair
    dsimp only
    rw [State.checked_ok (firstBad_append (firstBad_append (firstBad_half half) (firstBad_zeros zero)) (firstBad_zeros zero'))]
    simp only [State.half_entered, State.half_at]
    simp only [p] at there
    simp only [there]
    rw [if_neg (Nat.not_le.mpr page), if_neg (by simpa using len), if_neg (by simpa using crc)]
  case snapshot =>
    intro p L size zero on free
    obtain ⟨z, hz, cmd, drain, rounds, live, mem, th, out⟩ :=
      ((s.at tm).entered c).beginSnap_snap c.target (some c.id) ((leAt p 0 1).testBit 0) false
    rw [State.lane_entered, State.lane_at] at live mem th
    refine ⟨_, z, ?_, hz, cmd, drain, rounds, live, mem, th, out⟩
    change execLaneSnapshot id tm s = _
    refine opcode_next w ?_
    unfold State.laneSnapshot
    dsimp only
    rw [State.checked_ok (firstBad_append (firstBad_one (decide_eq_true size)) (firstBad_zeros zero)), State.lane_entered, State.lane_at]
    exact if_neg (snap_free on free)
  case restore =>
    intro p l b k u size zero stopped whole block title digest timing admitted v
    change execLaneRestore id image tm s = _
    refine opcode_next w ?_
    change u.laneRestore c h image = _
    have stoppedU : (u.lane l).phase = .stopped := by rw [State.lane_entered, State.lane_at]; exact stopped
    have titleU : (u.half h).titleReady (leAt b 0x1C 4) = some t := by rw [State.half_entered, State.half_at]; exact title
    unfold State.laneRestore
    dsimp only
    rw [State.checked_ok (firstBad_append (firstBad_one (decide_eq_true size)) (firstBad_zeros zero)), if_neg (by simpa using stoppedU)]
    simp only [b, p] at whole titleU digest
    simp only [whole, titleU]
    rw [if_neg (by simpa using digest)]
    simp only [k, b, p, l] at timing block admitted
    simp only [timing, block, admitted]
    rfl
  case plan =>
    intro p n e few zero fields found
    change execMovePlan id tm s = _
    refine opcode_next w ?_
    unfold State.movePlan
    dsimp only
    rw [State.checked_ok, if_pos, State.netLane_entered, State.netLane_at]
    · rw [List.all_eq_true]
      intro i hi
      rw [State.viewerAt_entered]
      exact found i (List.mem_range.mp hi)
    · refine firstBad_append (firstBad_append (firstBad_one (decide_eq_true few)) (firstBad_zeros zero)) (firstBad_none.mpr fun q hq => ?_)
      obtain ⟨i, hi, hq⟩ := List.mem_flatMap.mp hq
      obtain ⟨z2, z3, kind, z9⟩ := fields i (List.mem_range.mp hi)
      rcases List.mem_append.mp hq with hq | hq
      · refine zeros_ok (fun j hj => ?_) q hq
        have : j = 0 ∨ j = 1 := by omega
        rcases this with rfl | rfl
        · exact z2
        · exact z3
      · simp only [List.mem_cons, List.not_mem_nil, or_false] at hq
        rcases hq with rfl | rfl
        · simp only [e, p] at kind
          simpa using kind
        · exact decide_eq_true z9
  case move =>
    intro p L d dest z2 z3 on free goal
    obtain ⟨v, hv, lane, out⟩ : ∃ v, v = (match Sparse.get noTitle (((s.at tm).entered c).half (HalfId.peer (halfOf c.target))).titles (((s.at tm).entered c).lane c.target).title,
        Sparse.get noTitle (((s.at tm).entered c).half (halfOf c.target)).titles (((s.at tm).entered c).lane c.target).title with
        | none, some t => ((s.at tm).entered c).putTitle (HalfId.peer (halfOf c.target)) (((s.at tm).entered c).lane c.target).title
            (some { t with ready := false, refs := 0, unloading := false, copying := true, bad := [] })
        | _, _ => (s.at tm).entered c) ∧ v.lane c.target = s.lane c.target ∧ v.out = s.out := by
      refine ⟨_, rfl, ?_, ?_⟩
      · split
        · rw [State.lane_putTitle, State.lane_entered, State.lane_at]
        · rw [State.lane_entered, State.lane_at]
      · split
        · rw [State.putTitle_out, State.entered_out, State.at_out]
        · rfl
    obtain ⟨z, hz, cmd, drain, rounds, live, mem, th, kept⟩ := v.beginSnap_snap c.target (some c.id) true false
    rw [lane] at live mem th
    rw [out] at kept
    refine ⟨_, z, ?_, hz, cmd, drain, rounds, live, mem, th, kept⟩
    change execLaneMove id tm s = _
    refine opcode_next w ?_
    unfold State.laneMove
    dsimp only
    rw [State.checked_ok, if_neg]
    · simp only [d, p] at goal
      simp only [goal]
      subst hv
      rfl
    · rw [State.lane_entered, State.lane_at]
      exact snap_free on free
    · exact firstBad_append (firstBad_one (by simpa [d, p] using dest)) (firstBad_two_zeros z2 z3)
  case round =>
    obtain ⟨y, hy⟩ : ∃ y : Snapshot, y = { z with rounds := z.rounds + 1, todo := z.dirty.length, dirty := [] } := ⟨_, rfl⟩
    obtain ⟨A, hA⟩ : ∃ A : Lane, A = { s.lane l with snap := some y } := ⟨_, rfl⟩
    have step : execSnapshotRound l tm s = .next ((s.at tm).putLane l
        (if A.converged y (s.at tm).time then { A with pauseDue := { A.pauseDue with drain := true } } else A)) := by
      rw [execSnapshotRound, if_neg (by omega)]
      simp only [State.lane_at, snap]
      rw [if_neg (by simp [on, live, form, free]), hA, hy]
    refine ⟨_, y, step, ?_⟩
    subst hA hy
    rw [State.lane_putLane, State.putLane_out]
    split
    · next done => exact ⟨rfl, rfl, rfl, rfl, rfl, rfl, done.symm, rfl, rfl, rfl⟩
    · next more => exact ⟨rfl, rfl, rfl, rfl, rfl, rfl, free.trans (Bool.eq_false_iff.mpr more).symm, rfl, rfl, rfl⟩
  case write =>
    change execFinalRound l tm s = _
    have found : (s.at tm).cmd id = some c := found
    rw [execFinalRound_sealed hl snap paused live sealed]
    simp only [cmd, found]
    exact if_neg op
  case keep =>
    obtain ⟨r, hr⟩ : ∃ r, r = (s.at tm).makeImage l k z.live := ⟨_, rfl⟩
    have lane : r.1.lane l = s.lane l := by
      rw [hr, ← State.lane_at s tm l]
      cases e : halfOf l <;> simp only [State.lane, e] <;> rfl
    refine ⟨r.1.putLane l { r.1.lane l with snap := some { z with frozen := true, image := some r.2 } }, { z with frozen := true, image := some r.2 }, ?_, ?_⟩
    · change execFinalRound l tm s = _
      rw [execFinalRound_sealed hl snap paused live sealed, hr]
      simp only [cmd]
    · rw [State.lane_putLane]
      exact ⟨rfl, rfl, rfl, rfl, (congrArg Lane.mem lane :)⟩
  case moved =>
    change execFinalRound l tm s = _
    have found : (s.at tm).cmd id = some c := found
    rw [execFinalRound_sealed hl snap paused live sealed]
    simp only [cmd, found, moved]
    exact if_pos op
  case again =>
    change execFinalRound l tm s = _
    rw [execFinalRound, if_neg (by omega)]
    simp only [State.lane_at, snap, paused, live, sealed]
    rfl
  case late =>
    have go : ∀ e, exec (.scrub h addr e tm) s = .next (if e = .none then s.at tm
        else (s.at tm).putHalf h ((s.half h).putOff (.hbm (addr / 256 % 64) (Config.hbmRow addr) e) (s.at tm).time)) := fun e => by
      change execScrub h addr e tm s = _
      rw [execScrub, if_neg (by omega)]
      simp only [State.half_at]
      rw [if_neg (by rw [show (s.at tm).runs = s.runs from rfl, runs, up]; exact Bool.false_ne_true), if_pos waits]
      rfl
    refine ⟨?_, fun e he => ?_⟩
    · rw [go, if_pos rfl]
    · rw [go, if_neg he]
  case scrub =>
    have go : ∀ e, exec (.scrub h addr e tm) s = .next ((s.at tm).hbmRead h (addr / 256 % 64) (Config.hbmRow addr) e 0) := fun e => by
      change execScrub h addr e tm s = _
      rw [execScrub, if_neg (by omega)]
      simp only [State.half_at]
      rw [if_neg (by rw [show (s.at tm).runs = s.runs from rfl, runs, up]; exact Bool.false_ne_true), if_neg (by simp [serves])]
      rfl
    refine ⟨⟨_, go .none, rfl, rfl, rfl⟩, ⟨_, go .corrected, ?_⟩, go⟩
    obtain ⟨count, lanes⟩ := ({ s.at tm with freeCtr := (s.at tm).freeCtr + 1 } : State).hbmCorrected_counts
      { half := h, cls := 6, unitNo := addr / 256 % 64, lane := none, kind := .masked, syndrome := Config.freeNat (s.at tm).draw % 2 ^ 32 }
      (Config.hbmRow addr) 0
    have same : ({ s.at tm with freeCtr := (s.at tm).freeCtr + 1 } : State).half h = s.half h := by cases h <;> rfl
    simp only [same] at count lanes
    exact ⟨count, lanes⟩
  case spare =>
    obtain ⟨H, hH⟩ : ∃ H, H = ((s.half h).setSp { (s.half h).sp with
        pcFailing := (s.half h).sp.pcFailing.filter (fun q => decide (q ≠ pc))
        spared := (s.half h).sp.spared ++ [pc] }).lifeAdd 0x3C 4 1 := ⟨_, rfl⟩
    refine ⟨s.putHalf h H, ?_, ?_, ?_, ?_, State.half_peer_putHalf ..⟩
    · change execPseudoChannelSpare h pc s = _
      rw [execPseudoChannelSpare, if_neg (by omega), hH]
      exact if_neg (by rw [runs, up, failing]; exact Bool.false_ne_true)
    · rw [State.half_putHalf, hH]
      rfl
    · rw [State.half_putHalf, hH]
      change ((s.half h).sp.pcFailing.filter (fun q => decide (q ≠ pc))).contains pc = false
      simp
    · rw [State.half_putHalf, hH]
      rfl

end Sys2Proof.Machine
end

section
/-! PROOFS. Commands of the device and its ports. -/
namespace Sys2Proof.Machine
open Sys2Proof

theorem length_slice (b : Bytes) (o n : Nat) : (slice b o n).length = n := by
  rw [slice, List.length_append, List.length_replicate]
  have := List.length_take_le n (b.drop o)
  omega
theorem slice_append_left {x r : Bytes} {n : Nat} (len : x.length = n) : slice (x ++ r) 0 n = x := by
  subst len
  simp [slice]
@[simp] theorem State.devInfo_entered (s : State) (tm : Nat) (c : Cmd) : ((s.at tm).entered c).devInfo = s.devInfo := by
  have len : ((s.at tm).entered c).cmds.length = s.cmds.length := by simp [State.entered, State.putCmd]
  rw [State.devInfo, len]
  rfl

/-- CTRL_FLOW of a flow that nothing holds (R356). -/
theorem State.ctrlFlow_new {s : State} {c : Cmd} {h : HalfId} (half : leAt c.params 0 1 ≤ 1) (named : leAt c.params 4 4 ≠ 0)
    (cipher : leAt c.params 1 1 ≤ 1) (sub : leAt c.params 2 1 < subPorts (s.half h).net.mode) (family : leAt c.params 3 1 = 4 ∨ leAt c.params 3 1 = 6)
    (zero : ∀ i, i < 3 → leAt c.params (8 + i) 1 = 0) (src : leAt c.params 0x0B 1 ≤ 15) (dscp : leAt c.params 0x0E 1 ≤ 63)
    (ttl : 1 ≤ leAt c.params 0x0F 1) (zero' : ∀ i, i < 2 → leAt c.params (0x16 + i) 1 = 0)
    (key : leAt c.params 1 1 = 0 → ∀ i, i < 16 → leAt c.params (0x28 + i) 1 = 0) (free : (s.half h).holder (leAt c.params 4 4) = none) :
    ∃ k : Control, k.flow.id = leAt c.params 4 4 ∧ k.mask = 0 ∧ k.kept = [] ∧ k.flow.epoch = 0 ∧ k.flow.seq = 0 ∧ k.flow.bound = none ∧
      s.ctrlFlow c h = (s.putHalf h ((s.half h).setControl (some k))).done c [] := by
  obtain ⟨b, hb⟩ : ∃ b, b = slice c.params 4 4 ++ [0] ++ slice c.params 2 1 ++ slice c.params 1 1 ++ slice c.params 3 1 ++ List.replicate 8 0 ++ slice c.params 8 48 := ⟨_, rfl⟩
  refine ⟨{ flow := flowOf b 8192, mask := 0, kept := [] }, ?_, rfl, rfl, rfl, rfl, rfl, ?_⟩
  · change leNat (slice b 0 4) = leNat (slice c.params 4 4)
    rw [hb]
    simp only [List.append_assoc]
    rw [slice_append_left (length_slice ..)]
  · unfold State.ctrlFlow
    dsimp only
    rw [State.checked_ok, if_neg named, free, hb]
    refine firstBad_append (firstBad_half half) ?_
    rw [if_neg named]
    refine firstBad_append (firstBad_append (firstBad_append (firstBad_append (firstBad_none.mpr ?_) (firstBad_zeros zero)) (firstBad_none.mpr ?_))
      (firstBad_zeros zero')) ?_
    · intro q hq
      simp only [List.mem_cons, List.not_mem_nil, or_false] at hq
      rcases hq with rfl | rfl | rfl
      · exact decide_eq_true cipher
      · exact decide_eq_true sub
      · simpa using family
    · intro q hq
      simp only [List.mem_cons, List.not_mem_nil, or_false] at hq
      rcases hq with rfl | rfl | rfl
      · exact decide_eq_true src
      · exact decide_eq_true dscp
      · exact decide_eq_true ttl
    · split
      · next plain => exact firstBad_zeros (key plain)
      · rfl

/-- The network settings that PORT_CFG writes (R443). -/
def Net.configured (n : Net) (p : Bytes) : Net :=
  let m := leAt p 1 1
  { n with mode := if m.testBit 0 then leAt p 2 1 else n.mode
           foEn := if m.testBit 1 then decide (leAt p 3 1 = 1) else n.foEn
           fb := if m.testBit 2 then leAt p 4 1 else n.fb
           foScale := if m.testBit 3 then leAt p 5 1 else n.foScale
           idle := if m.testBit 4 then leAt p 6 1 else n.idle }
theorem State.portCfg_ok {s : State} {c : Cmd} {h : HalfId} (half : leAt c.params 0 1 ≤ 1) (small : leAt c.params 1 1 < 32)
    (mode : (leAt c.params 1 1).testBit 0 = true → leAt c.params 2 1 ≤ 3) (fo : (leAt c.params 1 1).testBit 1 = true → leAt c.params 3 1 ≤ 1)
    (fb : (leAt c.params 1 1).testBit 2 = true → 1 ≤ leAt c.params 4 1) (idle : (leAt c.params 1 1).testBit 4 = true → 1 ≤ leAt c.params 6 1)
    (zero : leAt c.params 7 1 = 0)
    (drained : (leAt c.params 1 1).testBit 0 = false ∨ leAt c.params 2 1 = (s.half h).net.mode ∨ (s.half h).portDrained = true) :
    s.portCfg c h = ((s.putHalf h (Half.saveSettings { s.half h with net := (s.half h).net.configured c.params })).settlePorts).done c [] := by
  unfold State.portCfg
  dsimp only
  rw [State.checked_ok, if_neg]
  · rfl
  · rintro ⟨change', busy⟩
    rcases drained with off | same | free
    · rw [off, if_neg Bool.false_ne_true] at change'
      exact change' rfl
    · rw [same] at change'
      exact change' (ite_self _)
    · exact absurd (busy.symm.trans free) Bool.false_ne_true
  · refine firstBad_append (firstBad_append (firstBad_half half) (firstBad_none.mpr fun q hq => ?_)) (firstBad_zeros fun i hi => by
      have : i = 0 := by omega
      subst this
      exact zero)
    simp only [List.mem_cons, List.not_mem_nil, or_false] at hq
    rcases hq with rfl | rfl | rfl | rfl | rfl
    · exact decide_eq_true small
    · exact ok_unless fun on => decide_eq_true (mode on)
    · exact ok_unless fun on => decide_eq_true (fo on)
    · exact ok_unless fun on => decide_eq_true (fb on)
    · exact ok_unless fun on => decide_eq_true (idle on)

/-- Settles O43: each command starts, passes its checks and acts. -/
theorem deviceCommands : Obligations.DeviceCommands := by
  unfold Obligations.DeviceCommands
  refine ⟨fun id tm c h s w half none => ?remove, fun id tm c h s w => ?name, fun id tm c h s w => ?info, fun id tm c h s w => ?cfg,
    fun id tm c h s w => ?addr, fun id tm c h s w => ?drain, fun id tm c h s w => ?read, fun id tm c h g k s w zero src flow => ?sub,
    fun id tm c h s w => ?nop⟩
  case remove =>
    intro u
    change execCtrlFlow id tm s = _
    refine opcode_next w ?_
    unfold State.ctrlFlow
    dsimp only
    rw [State.checked_ok, if_pos none]
    rw [if_pos none]
    exact firstBad_append (firstBad_half half) rfl
  case name =>
    intro p u len half named cipher sub family zero src dscp ttl zero' key free
    have same : u.half h = s.half h := by rw [State.half_entered, State.half_at]
    obtain ⟨k, flow, mask, kept, epoch, seq, bound, act⟩ := State.ctrlFlow_new (s := u) (c := c) (h := h) half named cipher (by rw [same]; exact sub) family zero
      src dscp ttl zero' key (by rw [same]; exact free)
    refine ⟨k, flow, mask, kept, epoch, seq, bound, ?_⟩
    change execCtrlFlow id tm s = _
    exact opcode_next w act
  case info =>
    change execDevInfo id tm s = _
    refine opcode_next w ?_
    rw [State.devInfo_entered]
  case cfg =>
    intro p m N half small mode fo fb idle zero drained
    refine ⟨N.configured p, rfl, rfl, rfl, rfl, rfl, rfl, rfl, ?_⟩
    change execPortCfg id tm s = _
    refine opcode_next w ?_
    have same : ((s.at tm).entered c).half h = s.half h := by rw [State.half_entered, State.half_at]
    rw [State.portCfg_ok half small mode fo fb idle zero (by rw [same]; exact drained), same]
  case addr =>
    intro p half sub few4 few6 zero
    refine ⟨{ (s.half h).sub (leAt p 1 1) with
      mac := slice p 2 6
      ip4 := (List.range (leAt p 8 1)).map (fun i => slice p (16 + 4 * i) 4)
      ip6 := (List.range (leAt p 9 1)).map (fun i => slice p (16 + 4 * leAt p 8 1 + 16 * i) 16) }, rfl, rfl, rfl, rfl, ?_⟩
    change execPortAddr id tm s = _
    refine opcode_next w ?_
    unfold State.portAddr
    simp only [State.half_entered, State.half_at]
    rw [State.checked_ok]
    refine firstBad_append (firstBad_append (firstBad_half half) (firstBad_none.mpr fun q hq => ?_)) (firstBad_zeros zero)
    simp only [List.mem_cons, List.not_mem_nil, or_false] at hq
    rcases hq with rfl | rfl | rfl
    · exact decide_eq_true sub
    · exact decide_eq_true few4
    · exact decide_eq_true few6
  case drain =>
    intro p half z2 z3
    have good : ∀ n, leAt p 1 1 = n → n ≤ 1 → firstBad (halfByte p ++ [(decide (leAt p 1 1 ≤ 1), 1)] ++ zeros p 2 2) = none := fun n hn le =>
      firstBad_append (firstBad_append (firstBad_half half) (firstBad_one (decide_eq_true (hn ▸ le)))) (firstBad_two_zeros z2 z3)
    refine ⟨fun off => ?_, fun on => ?_⟩
    · refine ⟨{ s.half h with net := { (s.half h).net with drain := false } }, rfl, rfl, ?_⟩
      change execPortDrain id tm s = _
      refine opcode_next w ?_
      unfold State.portDrain
      simp only [State.half_entered, State.half_at]
      rw [State.checked_ok (good 0 off (by decide))]
      exact if_pos off
    · refine ⟨{ s.half h with net := { (s.half h).net with drain := true, drainCmds := (s.half h).net.drainCmds ++ [c.id] } }, rfl, rfl, ?_⟩
      change execPortDrain id tm s = _
      refine opcode_next w ?_
      unfold State.portDrain
      simp only [State.half_entered, State.half_at]
      rw [State.checked_ok (good 1 on (by decide))]
      exact if_neg (by change ¬ leAt p 1 1 = 0; omega)
  case read =>
    intro p n half least most zero offs u
    change execRegRead id tm s = _
    refine opcode_next w ?_
    unfold State.regRead
    dsimp only
    rw [State.checked_ok]
    refine firstBad_append (firstBad_append (firstBad_append (firstBad_half half) (firstBad_one ?_)) (firstBad_zeros zero)) (firstBad_none.mpr fun q hq => ?_)
    · exact Bool.and_eq_true_iff.mpr ⟨decide_eq_true least, decide_eq_true most⟩
    · obtain ⟨i, hi, rfl⟩ := List.mem_map.mp hq
      exact decide_eq_true (offs i (List.mem_range.mp hi))
  case sub =>
    intro u
    change execEventSub id tm s = _
    refine opcode_next w ?_
    have flow : (((s.at tm).entered c).half g).net.control = some k := by rw [State.half_entered, State.half_at]; exact flow
    unfold State.eventSub
    rw [State.checked_ok (firstBad_zeros zero)]
    simp only [src, flow]
    rfl
  case nop =>
    change execNop id tm s = _
    exact opcode_next w rfl

end Sys2Proof.Machine
end

section
/-! PROOFS. Commands of monitors, records, tests and faults. -/
namespace Sys2Proof.Machine
open Sys2Proof

/-- The checks of SELFTEST and UNIT_RETIRE pass (R462). -/
theorem State.unitCmd_ok {s : State} {c : Cmd} {h : HalfId} {flags : Nat} {retire : Bool} (half : leAt c.params 0 1 ≤ 1) (kind : leAt c.params 1 1 ≤ 4)
    (unit' : leAt c.params 2 2 < unitCount (unitKind (leAt c.params 1 1)))
    (serves : (s.half h).isRetired (unitKind (leAt c.params 1 1)) (leAt c.params 2 2) = false) (fl : leAt c.params 4 4 ≤ flags) :
    s.unitCmd c h flags retire = s.askTest c h (unitKind (leAt c.params 1 1)) (leAt c.params 2 2) (decide (leAt c.params 4 4 = 1)) retire := by
  unfold State.unitCmd
  dsimp only
  rw [State.checked_ok]
  refine firstBad_append (firstBad_half half) (firstBad_none.mpr fun q hq => ?_)
  simp only [List.mem_cons, List.not_mem_nil, or_false] at hq
  rcases hq with rfl | rfl | rfl
  · exact decide_eq_true kind
  · simp [unit', serves]
  · exact decide_eq_true fl

/-- A lane unit out of service leaves the spares and is asked to be tested (R462). -/
theorem State.sp_addTest (s : State) (h : HalfId) (u : UnitKind) (i id : Nat) (retire : Bool) :
    ((s.addTest h u i id retire).half h).sp.tests = (s.half h).sp.tests ++ [{ kind := u, idx := i, cmd := some id, retire := retire }] ∧
      ((s.addTest h u i id retire).half h).sp.spares = (s.half h).sp.spares := by
  have kept := State.unrecorded_checkHalt (s.putHalf h ((s.half h).setSp { (s.half h).sp with
    tests := (s.half h).sp.tests ++ [{ kind := u, idx := i, cmd := some id, retire := retire }] })) h h
  rw [State.half_putHalf] at kept
  exact ⟨(Half.tests_of_unrecorded kept).trans rfl, (Half.spares_of_unrecorded kept).trans rfl⟩

/-- Settles O44: each command starts, passes its checks and acts. -/
theorem monitorCommands : Obligations.MonitorCommands := by
  unfold Obligations.MonitorCommands
  refine ⟨fun id tm c h s w => ?read, fun id tm c h s w => ?limits, fun id tm c h s w => ?life, fun id tm c h s w => ?flush,
    fun id tm c h s w => ?records, fun id tm c h s w => ?test, fun id tm c h s w => ?retire, fun u c h i force retire out => ?asked,
    fun id tm c h s w => ?inject⟩
  case read =>
    intro p k half kind first least most fits z6 z7 entry
    change execMonRead id tm s = _
    refine opcode_next w ?_
    unfold State.monRead
    simp only [State.half_entered, State.half_at]
    rw [State.checked_ok]
    refine firstBad_append (firstBad_append (firstBad_half half) (firstBad_none.mpr fun q hq => ?_)) (firstBad_zeros fun i hi => ?_)
    · simp only [List.mem_cons, List.not_mem_nil, or_false] at hq
      rcases hq with rfl | rfl | rfl
      · exact decide_eq_true kind
      · exact decide_eq_true first
      · exact Bool.and_eq_true_iff.mpr ⟨Bool.and_eq_true_iff.mpr ⟨decide_eq_true least, decide_eq_true most⟩, decide_eq_true fits⟩
    · have : i = 0 ∨ i = 1 := by omega
      rcases this with rfl | rfl
      · exact z6
      · exact z7
  case limits =>
    intro p k i half kind unit'
    refine ⟨{ (s.half h).mon.get k i with low := monWord k (leAt p 4 2), high := monWord k (leAt p 6 2) }, rfl, rfl, rfl, ?_⟩
    change execMonLimits id tm s = _
    refine opcode_next w ?_
    have same : ((s.at tm).entered c).half h = s.half h := by rw [State.half_entered, State.half_at]
    unfold State.monLimits
    dsimp only
    rw [State.checked_ok, same]
    refine firstBad_append (firstBad_half half) (firstBad_none.mpr fun q hq => ?_)
    simp only [List.mem_cons, List.not_mem_nil, or_false] at hq
    rcases hq with rfl | rfl
    · exact decide_eq_true kind
    · exact decide_eq_true unit'
  case life =>
    intro p k o n kind zero off least most fits own
    change execLifeRead id tm s = _
    refine opcode_next w ?_
    unfold State.lifeRead
    dsimp only
    rw [State.checked_ok, if_neg (fun h => own h.1 h.2)]
    · rfl
    · refine firstBad_append (firstBad_append (firstBad_one (decide_eq_true kind)) (firstBad_zeros zero)) (firstBad_none.mpr fun q hq => ?_)
      simp only [List.mem_cons, List.not_mem_nil, or_false] at hq
      rcases hq with rfl | rfl
      · exact decide_eq_true off
      · exact Bool.and_eq_true_iff.mpr ⟨Bool.and_eq_true_iff.mpr ⟨decide_eq_true least, decide_eq_true most⟩, decide_eq_true fits⟩
  case flush =>
    change execLifeFlush id tm s = _
    exact opcode_next w rfl
  case records =>
    intro p k half zero least most found
    change execFaultRead id tm s = _
    refine opcode_next w ?_
    unfold State.faultRead
    simp only [State.half_entered, State.half_at]
    rw [State.checked_ok, if_pos]
    · obtain ⟨r, hr, number⟩ := found
      exact List.any_eq_true.mpr ⟨r, hr, decide_eq_true number⟩
    · exact firstBad_append (firstBad_append (firstBad_half half) (firstBad_zeros zero))
        (firstBad_one (Bool.and_eq_true_iff.mpr ⟨decide_eq_true least, decide_eq_true most⟩))
  case test =>
    intro p half kind unit' serves fl
    change execSelftest id tm s = _
    refine opcode_next w ?_
    exact State.unitCmd_ok half kind unit' (by rw [State.half_entered, State.half_at]; exact serves) fl
  case retire =>
    intro p half kind unit' serves fl
    change execUnitRetire id tm s = _
    refine opcode_next w ?_
    have once : decide (leAt c.params 4 4 = 1) = false := by
      have : leAt c.params 4 4 = 0 := fl
      simp [this]
    rw [State.unitCmd_ok half kind unit' (by rw [State.half_entered, State.half_at]; exact serves) (Nat.le_of_eq fl), once]
  case asked =>
    have asked : u.askTest c h .laneUnit i force retire = (u.putHalf h ((u.half h).setSp { (u.half h).sp with
        spares := (u.half h).sp.spares.filter (fun x => decide (x ≠ luBase h + i)) })).addTest h .laneUnit i c.id retire := by
      unfold State.askTest
      exact if_pos (by rw [out]; rfl)
    obtain ⟨tests, spares⟩ := State.sp_addTest (u.putHalf h ((u.half h).setSp { (u.half h).sp with
        spares := (u.half h).sp.spares.filter (fun x => decide (x ≠ luBase h + i)) })) h .laneUnit i c.id retire
    rw [State.half_putHalf] at tests spares
    rw [asked]
    exact ⟨tests, spares⟩
  case inject =>
    intro p site i wd x half kind low high own z6 times top bit' v first z
    change execFaultInject id tm s = _
    refine opcode_next w ?_
    have last : (((s.at tm).entered c).half h).sp.last = (s.half h).sp.last := by rw [State.half_entered, State.half_at]
    unfold State.faultInject
    dsimp only
    rw [State.checked_ok, last]
    refine firstBad_append (firstBad_half half) (firstBad_none.mpr fun q hq => ?_)
    simp only [List.mem_cons, List.not_mem_nil, or_false] at hq
    rcases hq with rfl | rfl | rfl
    · exact decide_eq_true kind
    · refine Bool.and_eq_true_iff.mpr ⟨Bool.and_eq_true_iff.mpr ⟨decide_eq_true low, decide_eq_true high⟩, ?_⟩
      by_cases dom : leAt c.params 1 1 = 9
      · rw [decide_eq_true (own dom), Bool.or_true]
      · rw [decide_eq_true dom, Bool.true_or]
    · refine Bool.and_eq_true_iff.mpr ⟨Bool.and_eq_true_iff.mpr ⟨Bool.and_eq_true_iff.mpr ⟨decide_eq_true z6, decide_eq_true times⟩, decide_eq_true top⟩, ?_⟩
      rcases bit' with core | zero
      · rw [decide_eq_true core, Bool.true_or]
      · rw [decide_eq_true zero, Bool.or_true]

end Sys2Proof.Machine
end

section
/-! PROOFS. Commands of firmware, presence and drain. -/
namespace Sys2Proof.Machine
open Sys2Proof

theorem State.presence_emits (o : List Out) (s : State) : (o.foldl State.emit s).presence = s.presence := by
  obtain ⟨_, e⟩ := State.emits_out_only o s
  rw [e]
@[simp] theorem State.presence_event (s : State) (h : HalfId) (code lane frame data : Nat) : (s.event h code lane frame data).presence = s.presence := by
  rw [State.event, State.presence_emits, State.putHalf_presence]
@[simp] theorem State.presence_presEvent (s : State) (kind source left : Nat) : (s.presEvent kind source left).presence = s.presence := by
  unfold State.presEvent
  split
  · exact State.presence_event ..
  · rfl
@[simp] theorem State.presence_chargeCount (s : State) (off : Nat) : (s.chargeCount off).presence = s.presence := by
  unfold State.chargeCount
  split
  · exact State.putHalf_presence ..
  · rfl
@[simp] theorem State.presence_chargeDue (s : State) : s.chargeDue.presence = s.presence := by
  unfold State.chargeDue
  split
  · exact State.putHalf_presence ..
  · rfl
/-- A completion leaves physical presence as it was. -/
theorem State.presence_finish (s : State) (id status detail : Nat) (result : Bytes) : (s.finish id status detail result).presence = s.presence := by
  unfold State.finish
  cases s.cmd id with
  | none => rfl
  | some c =>
    dsimp only
    split
    · rfl
    · cases c.src with
      | ring h q =>
        dsimp only
        split <;> rfl
      | smbus => rfl
      | control h => exact (State.presence_emits ..).trans (State.putHalf_presence ..)

/-- What a tamper event leaves of the grant (R531, R532). -/
theorem State.tamper_presence (s : State) : s.tamper.presence =
    if s.presence.lockdown then s.presence else { openAt := none, endAt := 0, source := 0, tamper := true, tamperAt := s.time, lockdown := true } := by
  unfold State.tamper
  split
  · rfl
  · dsimp only
    rw [foldl_keeps State.presence (fun t id => t.presence_finish id stLockdown 0 [])]
    rw [State.presence_chargeDue, State.presence_chargeCount]
    split
    · exact State.presence_presEvent ..
    · rfl
/-- A grant that ends is no longer open (R529). -/
theorem State.endGrant_closed (s : State) (kind : Nat) : (s.endGrant kind).presence.openAt = none := by
  unfold State.endGrant
  split
  · next shut => exact shut
  · dsimp only
    split
    · rw [State.tamper_presence]
      split
      · rw [State.presence_presEvent]
      · rfl
    · rw [State.presence_presEvent]

/-- FW_STAGE of bytes that could all be read (R519). -/
theorem State.fwStage_ok {s : State} {c : Cmd} {h : HalfId} {data : Bytes} (half : leAt c.params 0 1 ≤ 1) (zero : ∀ i, i < 3 → leAt c.params (1 + i) 1 = 0)
    (off : leAt c.params 4 4 < 2 ^ 24) (fits : leAt c.params 4 4 + leAt c.params 16 4 ≤ 2 ^ 24) (zero' : ∀ i, i < 4 → leAt c.params (20 + i) 1 = 0)
    (free : (s.half h).fw.waiting = 0) (read : data.length = leAt c.params 16 4) (some' : 0 < leAt c.params 16 4) :
    s.fwStage c h data = (s.putHalf h { s.half h with fw := { (s.half h).fw with
      staging := ((s.half h).fw.staging.writeBytes (leAt c.params 4 4 / 65536 * 65536)
        (List.replicate (roundUp (leAt c.params 4 4 + leAt c.params 16 4) 65536 - leAt c.params 4 4 / 65536 * 65536) 0xFF)).writeBytes (leAt c.params 4 4) data } }).done c [] := by
  have size : stagingSize = 2 ^ 24 := rfl
  unfold State.fwStage
  dsimp only
  rw [State.checked_ok, if_neg (not_not_intro free), if_neg (not_not_intro read), if_neg (Nat.ne_of_gt some')]
  refine firstBad_append (firstBad_append (firstBad_append (firstBad_half half) (firstBad_zeros zero)) (firstBad_none.mpr fun q hq => ?_)) (firstBad_zeros zero')
  simp only [List.mem_cons, List.not_mem_nil, or_false] at hq
  rcases hq with rfl | rfl
  · exact decide_eq_true (size ▸ Nat.le_of_lt off)
  · exact decide_eq_true (size ▸ fits)

/-- Settles O45: each command starts, passes its checks and acts. -/
theorem firmwareCommands : Obligations.FirmwareCommands := by
  unfold Obligations.FirmwareCommands
  refine ⟨fun id data tm c h s w => ?stage, fun id tm c h s w => ?commit, fun id tm c h s w half zero => ?query, fun id tm c h s w => ?status,
    fun id tm c h s w => ?ends, fun id tm c h s w => ?drain, fun id tm c h s w => ?drained⟩
  case stage =>
    intro p o n half zero off fits zero' free read some'
    have same : ((s.at tm).entered c).half h = s.half h := by rw [State.half_entered, State.half_at]
    have acts := State.fwStage_ok (s := (s.at tm).entered c) half zero off fits zero' (by rw [same]; exact free) read some'
    rw [same] at acts
    refine ⟨_, ?_, ?_, ?_, (opcode_next w acts : execFwStage id data tm s = _)⟩
    all_goals rfl
  case commit =>
    intro p k n F b half least most z2 z3 good state
    have same : ((s.at tm).entered c).half h = s.half h := by rw [State.half_entered, State.half_at]
    have state' : ((s.at tm).entered c).commitBad h k b = none := state
    let H : Half := ({ s.half h with fw := { F with waiting := k, waitLen := n,
                                                    keyFloor := if (leAt b 0x1A 1).testBit 0 then max F.keyFloor (imgSigner b) else F.keyFloor } }.lifeAdd 0x34 4 1).lifeDue
    refine ⟨H, rfl, rfl, rfl, rfl, rfl, rfl, rfl, opcode_next w ?_⟩
    unfold State.fwCommit
    dsimp only
    rw [State.checked_ok, same, good]
    · dsimp only
      rw [state']
    · split
      · rfl
      · refine firstBad_append (firstBad_append (firstBad_half half) (firstBad_one ?_)) (firstBad_two_zeros z2 z3)
        exact Bool.and_eq_true_iff.mpr ⟨decide_eq_true least, decide_eq_true most⟩
  case query =>
    refine opcode_next w ?_
    unfold State.fwQuery
    rw [State.checked_ok (firstBad_append (firstBad_half half) (firstBad_zeros zero)), State.half_entered, State.half_at]
  case status => exact (opcode_next w rfl : execPresenceStatus id tm s = _)
  case ends => exact ⟨_, State.endGrant_closed .., (opcode_next w rfl : execPresenceEnd id tm s = _), rfl⟩
  case drain =>
    intro p n u half zero aligned size
    have same : u.half h = s.half h := (State.half_entered ..).trans (State.half_at ..)
    have sound : firstBad ([(decide (leAt p 0 1 ≤ 1), 0)] ++ zeros p 1 7 ++
        [(decide (leAt p 8 8 % 4096 = 0), 8), (decide (n = 0) || (decide (n % 4096 = 0) && decide (8192 ≤ n)), 16)]) = none := by
      refine firstBad_append (firstBad_append (firstBad_half half) (firstBad_zeros zero)) (firstBad_none.mpr fun q hq => ?_)
      simp only [List.mem_cons, List.not_mem_nil, or_false] at hq
      rcases hq with rfl | rfl
      · exact decide_eq_true aligned
      · simpa using size
    have acts (t : State) (e : u.drainCmd c h = t) : exec (.drain id tm) s = .next t := (opcode_next w e : execDrain id tm s = _)
    unfold State.drainCmd at acts
    dsimp only at acts
    rw [State.checked_ok sound, same] at acts
    refine ⟨fun idle => acts _ (if_pos idle), fun drains some' none' wait phase => acts _ ?_⟩
    rw [if_neg drains, if_pos ⟨some', none', wait, phase⟩]
  case drained => exact (opcode_next w rfl : execDrainStatus id tm s = _)

end Sys2Proof.Machine
end

section
/-! PROOFS. Faults and their records. -/
namespace Sys2Proof.Machine
open Sys2Proof

theorem halfOf_laneNo {h : HalfId} {n : Nat} (hn : n < 128) : halfOf (laneNo h n) = h := by
  cases h
  · exact if_pos (by simp only [laneNo, halfNo]; omega)
  · exact if_neg (by simp only [laneNo, halfNo]; omega)

/-! A record. -/
theorem State.sp_event (s : State) (h k : HalfId) (code lane frame data : Nat) : ((s.event h code lane frame data).half k).sp = (s.half k).sp := by
  obtain ⟨c, e, only⟩ := s.event_half h k code lane frame data
  rw [only]
/-- The log with a record at its end, the newest 4,096 kept (R455). -/
theorem State.sp_record (s : State) (h : HalfId) (r : FaultRecord) : ((s.record h r).half h).sp.last = (s.half h).sp.last + 1 ∧
    ((s.record h r).half h).sp.records = ((s.half h).sp.records ++ [{ r with number := (s.half h).sp.last + 1 }]).drop
      (((s.half h).sp.records ++ [{ r with number := (s.half h).sp.last + 1 }]).length - 4096) := by
  rw [State.record, State.sp_event, State.half_putHalf]
  dsimp only
  exact ⟨by rfl, by with_reducible rfl⟩
/-- The newest of a list with one more at its end. -/
theorem newest_of_append {α : Type} (l : List α) (a : α) {k : Nat} (some' : 0 < k) :
    ((l ++ [a]).drop ((l ++ [a]).length - k)).getLast? = some a ∧ ((l ++ [a]).drop ((l ++ [a]).length - k)).length = min (l.length + 1) k ∧
      ∀ x ∈ (l ++ [a]).drop ((l ++ [a]).length - k), x ∈ l ∨ x = a := by
  have len : (l ++ [a]).length = l.length + 1 := List.length_append
  refine ⟨?_, ?_, fun x hx => ?_⟩
  · rw [List.getLast?_drop, if_neg (by omega), List.getLast?_concat]
  · rw [List.length_drop]
    omega
  · exact (List.mem_append.mp (List.mem_of_mem_drop hx)).imp_right List.mem_singleton.mp

/-! What a completion leaves of a half: all but its network side and its event ring. -/
theorem State.finish_keeps {X : Type} (p : Half → X) (keeps : ∀ (H : Half) n e, p { H with net := n, ev := e } = p H) (s : State) (id status detail : Nat)
    (result : Bytes) (k : HalfId) : p ((s.finish id status detail result).half k) = p (s.half k) := by
  unfold State.finish
  cases s.cmd id with
  | none => rfl
  | some c =>
    dsimp only
    split
    · rfl
    · cases c.src with
      | ring h q =>
        dsimp only
        split <;> rfl
      | smbus => rfl
      | control h =>
        dsimp only
        rw [State.half_emits]
        refine (State.half_putHalf_of p ?_ k).trans (by rfl : _ = p (s.half k))
        obtain ⟨n, e, only⟩ := Half.sendReply_net_ev_only _ h s.time _
        rw [only, keeps]
        split
        · exact (keeps (s.half h) _ (s.half h).ev)
        · rfl
theorem State.sp_finish (s : State) (id status detail : Nat) (result : Bytes) (k : HalfId) :
    ((s.finish id status detail result).half k).sp = (s.half k).sp :=
  s.finish_keeps Half.sp (fun _ _ _ => rfl) id status detail result k
theorem State.sp_putLane (s : State) (l : Nat) (L : Lane) (k : HalfId) : ((s.putLane l L).half k).sp = (s.half k).sp :=
  (State.half_putHalf_of Half.sp (by rfl) k : _)

/-! A rollback begins. -/
/-- There is a good checkpoint where one of the checkpoints is good and has its memory (R399, R402). -/
theorem Lane.goodCkpt_isSome {L : Lane} : L.goodCkpt.isSome = true ↔ ∃ c ∈ L.ckpts, c.good = true ∧ c.mem.isSome = true := by
  rw [goodCkpt, List.getLast?_isSome, ne_eq, List.filter_eq_nil_iff]
  simp [Option.isSome_iff_ne_none]
/-- Checkpoints that turn good stay the same in all else. -/
theorem State.lane_ripen (s : State) (l : Nat) : ∃ cs, (s.ripen l).lane l = { s.lane l with ckpts := cs } ∧
    cs.map (·.vt) = (s.lane l).ckpts.map (·.vt) ∧ ∀ c ∈ (s.lane l).ckpts, c.good = true → c ∈ cs := by
  unfold State.ripen
  dsimp only
  split
  · refine ⟨_, State.lane_putLane .., List.map_map, fun c hc good => List.mem_map.mpr ⟨c, hc, ?_⟩⟩
    cases c
    simp_all
  · exact ⟨_, rfl, rfl, fun c hc _ => hc⟩
theorem State.sp_ripen (s : State) (l : Nat) (k : HalfId) : ((s.ripen l).half k).sp = (s.half k).sp := by
  unfold State.ripen
  dsimp only
  split
  · exact State.sp_putLane ..
  · rfl
theorem State.lane_dropImage (s : State) (l r : Nat) : ∃ z, (s.dropImage l r).lane l = { s.lane l with snap := z } := by
  unfold State.dropImage
  dsimp only
  split
  · exact ⟨_, rfl⟩
  · next z _ =>
    rw [State.lane_putLane]
    cases z.cmd with
    | none => exact ⟨_, rfl⟩
    | some id =>
      dsimp only
      rw [State.lane_finish]
      exact ⟨_, rfl⟩
theorem State.sp_dropImage (s : State) (l r : Nat) (k : HalfId) : ((s.dropImage l r).half k).sp = (s.half k).sp := by
  unfold State.dropImage
  dsimp only
  split
  · rfl
  · rw [State.sp_putLane]
    split
    · exact State.sp_finish ..
    · rfl
/-- A lane with a good checkpoint begins its rollback; its memory and its checkpoints stay (R402). -/
theorem State.rollLane_rolls {s : State} {l : Nat} (pause : Bool) (alive : s.alive l = true) (good : (s.lane l).goodCkpt.isSome = true) :
    ((s.rollLane l pause).lane l).phase = .rolling ∧ ((s.rollLane l pause).lane l).mem = (s.lane l).mem ∧
      ((s.rollLane l pause).lane l).ckpts.map (·.vt) = (s.lane l).ckpts.map (·.vt) ∧ ∀ k, ((s.rollLane l pause).half k).sp = (s.half k).sp := by
  obtain ⟨cs, ripe, vts, kept⟩ := s.lane_ripen l
  obtain ⟨z, dropped⟩ := (s.ripen l).lane_dropImage l (s.half (halfOf l)).sp.last
  obtain ⟨c, hc, isGood, hasMem⟩ := Lane.goodCkpt_isSome.mp good
  have rolls : s.rollLane l pause = ((s.ripen l).dropImage l (s.half (halfOf l)).sp.last).putLane l
      ((((s.ripen l).dropImage l (s.half (halfOf l)).sp.last).lane l).beginRoll pause) := by
    unfold State.rollLane
    rw [alive]
    refine if_pos (Lane.goodCkpt_isSome.mpr ⟨c, ?_, isGood, hasMem⟩)
    rw [dropped, ripe]
    exact kept c hc isGood
  rw [rolls, State.lane_putLane, dropped, ripe]
  exact ⟨rfl, rfl, vts, fun k => (State.sp_putLane ..).trans ((State.sp_dropImage ..).trans (State.sp_ripen ..))⟩
theorem State.alive_running {s : State} {l : Nat} (runs : (s.lane l).phase = .running) (idle : (s.half (halfOf l)).drain.state = 0) : s.alive l = true := by
  simp [State.alive, State.drained, runs, idle]

/-! A fault by its kind and class. -/
theorem faultAsRead_own {f : FaultInfo} (own : ∀ k u, f.kind ≠ .readBy k u) : faultAsRead f = f := by
  unfold faultAsRead
  split
  · next k u _ _ read => exact absurd read (own k u)
  · rfl
/-- An error that the ECC has no part in (R388). -/
theorem State.countEcc_none {s : State} {f : FaultInfo} (fixed : faultCorrects f = false) (left : faultFails f = false) : s.countEcc f = s := by
  unfold State.countEcc
  rw [fixed, left]
  exact State.putHalf_half ..
theorem State.retireThird_few {s : State} {h : HalfId} {u : UnitKind} {i : Nat} (few : (s.half h).sp.recent (u, i) s.time < 3) : s.retireThird h u i = s :=
  if_neg (by omega)
theorem State.unserviced_retireThird (s : State) (h k : HalfId) (u : UnitKind) (i : Nat) :
    ((s.retireThird h u i).half k).unserviced = (s.half k).unserviced := by
  unfold State.retireThird
  split
  · exact s.unserviced_retire ..
  · rfl

/-- The counts of the ECC change nothing else (R388). -/
theorem State.countEcc_only (s : State) (f : FaultInfo) : ∃ c e, s.countEcc f =
    s.putHalf f.half { s.half f.half with sp := { (s.half f.half).sp with memCorr := c, memUncorr := e } } := by
  unfold State.countEcc
  dsimp only
  split
  · exact ⟨_, _, rfl⟩
  · split <;> exact ⟨_, _, rfl⟩
/-- A masked fault outside the classes of its own action is only counted (R449, R457). -/
theorem State.fault_masked {s : State} {f : FaultInfo} (kind : f.kind = .masked) (hbm : f.cls ≠ 6) (moves : f.cls ≠ 12)
    (few : ∀ u, faultUnit f = some u → (s.half f.half).sp.recent u s.time < 3) : s.fault f 0 = (s.countEcc f).countFault f.half f.cls true := by
  have own : faultAsRead f = f := faultAsRead_own fun _ _ => by rw [kind]; exact FaultKind.noConfusion
  have acts : (s.countEcc f).act f 0 = (s.countEcc f).countFault f.half f.cls true := by
    unfold State.act
    dsimp only
    rw [own, kind]
    exact if_neg moves
  unfold State.fault
  rw [if_neg hbm]
  dsimp only
  rw [acts, own]
  split
  · next u i unit =>
    refine State.retireThird_few ?_
    have same : (((s.countEcc f).countFault f.half f.cls true).half f.half).sp.faults = (s.half f.half).sp.faults := by
      obtain ⟨c, e, counted⟩ := s.countEcc_only f
      rw [State.countFault, State.half_putHalf, counted, State.half_putHalf]
      rfl
    have time : ((s.countEcc f).countFault f.half f.cls true).time = s.time := (State.countFault_only ..).2.1.trans (State.putHalf_time ..)
    rw [Sparing.recent, same, time]
    exact few _ unit
  · rfl
theorem State.dropHandoff_none {s : State} {l : Nat} (free : (s.half (halfOf l)).sp.handoff = none) : s.dropHandoff l = s := by
  rw [State.dropHandoff, free]
theorem State.lane_of_lanes {s t : State} (same : ∀ k, (t.half k).lanes = (s.half k).lanes) (l : Nat) : t.lane l = s.lane l := by
  rw [State.lane, Half.lane, same]
  rfl
/-- What a unit mapped to a lane leaves. -/
theorem State.mapUnit_keeps {X : Type} (p : Half → X) (s : State) (h k : HalfId) (n u : Nat) (sp : ∀ (H : Half) (x : Sparing), p { H with sp := x } = p H) :
    p ((s.mapUnit h n u).half k) = p (s.half k) :=
  State.half_putHalf_of p (sp ..) k
/-- The lane of a unit with a spare moves to it and rolls back (R403, R451). -/
theorem State.unitFault_spared {s : State} {f : FaultInfo} {n u : Nat} {rest : List Nat} (flags : Nat) (index : (s.half f.half).indexOf f.half f.unitNo = some n)
    (hn : n < 128) (spare : (s.half f.half).sp.spares = u :: rest) (free : (s.half f.half).sp.handoff = none) (idle : (s.half f.half).drain.state = 0)
    (running : (s.lane (laneNo f.half n)).phase = .running) (good : (s.lane (laneNo f.half n)).goodCkpt.isSome = true) :
    ((s.unitFault f flags).half f.half).luOf f.half n = u ∧ ((s.unitFault f flags).lane (laneNo f.half n)).phase = .rolling ∧
      ((s.unitFault f flags).lane (laneNo f.half n)).mem = (s.lane (laneNo f.half n)).mem ∧
      ((s.unitFault f flags).lane (laneNo f.half n)).ckpts.map (·.vt) = (s.lane (laneNo f.half n)).ckpts.map (·.vt) := by
  have own := halfOf_laneNo (h := f.half) hn
  obtain ⟨r, hr⟩ : ∃ r, r = s.report { f with lane := some (laneNo f.half n) } (s.laneAction (laneNo f.half n) 4) 1 flags := ⟨_, rfl⟩
  obtain ⟨v, hv⟩ : ∃ v, v = (r.mapUnit f.half n u).freed f.half .laneUnit (f.unitNo - luBase f.half) := ⟨_, rfl⟩
  have acts : s.unitFault f flags = v.rollLane (laneNo f.half n) false := by
    unfold State.unitFault
    rw [hv, hr]
    dsimp only
    rw [index]
    dsimp only
    rw [State.dropHandoff_none (by rw [own]; exact free), spare]
  have told : ∀ k, (r.half k).unserviced = (s.half k).unserviced := fun k => by rw [hr, Half.unserviced_of (State.unrecorded_report ..)]
  have served : ∀ k, (v.half k).unserviced = ((r.mapUnit f.half n u).half k).unserviced := fun k => by rw [hv, State.unserviced_freed]
  have lanes : ∀ k, (v.half k).lanes = (s.half k).lanes := fun k =>
    (Half.lanes_of_unserviced (served k)).trans ((r.mapUnit_keeps Half.lanes f.half k n u fun _ _ => rfl).trans (Half.lanes_of_unserviced (told k)))
  have drain : ∀ k, (v.half k).drain = (s.half k).drain := fun k =>
    (Half.drain_of_unserviced (served k)).trans ((r.mapUnit_keeps Half.drain f.half k n u fun _ _ => rfl).trans (Half.drain_of_unserviced (told k)))
  have lane := State.lane_of_lanes lanes (laneNo f.half n)
  have mapped : (v.half f.half).luOf f.half n = u := by
    rw [Half.luOf, Half.luMap_of_unserviced (served f.half), State.mapUnit, State.half_putHalf]
    exact Sparse.get_set_same ..
  obtain ⟨rolls, mem, vts, sp⟩ := State.rollLane_rolls (s := v) (l := laneNo f.half n) false
    (State.alive_running (by rw [lane]; exact running) (by rw [own, drain]; exact idle)) (by rw [lane]; exact good)
  rw [acts, Half.luOf, sp, rolls, mem, vts, lane]
  exact ⟨mapped, rfl, rfl, rfl⟩

/-- Settles O46. A fault of a lane unit with a spare is followed through `unitFault`: the records and the retirement leave the map of the lane
units, the lanes and the drain, so the lane that the spare now serves is the one that rolls back. -/
theorem faultsHandled : Obligations.FaultsHandled := by
  unfold Obligations.FaultsHandled
  refine ⟨fun f tm s cls unit' lane runs up notest => ?_, fun s h r => ?records⟩
  case records =>
    obtain ⟨last, log⟩ := s.sp_record h r
    obtain ⟨newest, length', old⟩ := newest_of_append (s.half h).sp.records { r with number := (s.half h).sp.last + 1 } (k := 4096) (by omega)
    rw [log]
    refine ⟨last, newest, length', old, ?_, s.half_peer_record h r⟩
    exact Half.lanes_of_unserviced (Half.unserviced_of (s.unrecorded_record h h r))
  have meets : exec (.faultDetected f tm) s = .next ((s.at tm).detect f) := by
    change execFaultDetected f tm s = _
    have on : (s.at tm).runs = true := runs
    unfold execFaultDetected
    rw [if_neg]
    · dsimp only
      rw [on, State.half_at, up, decide_eq_false notest]
      rfl
    · rintro (high | bad | known)
      · omega
      · exact Bool.false_ne_true (bad.symm.trans unit')
      · split at known
        · next l hl =>
          obtain ⟨below', own⟩ := lane l hl
          exact (of_decide_eq_true known).elim (by omega) (fun h => h own)
        · exact Bool.false_ne_true known
  have own : (s.at tm).half f.half = s.half f.half := State.half_at ..
  refine ⟨fun stopped => ⟨_, rfl, ?_⟩, fun serves => ?_⟩
  · rw [meets, State.detect, own, if_pos stopped]
    rfl
  have now : exec (.faultDetected f tm) s = .next ((s.at tm).fault f 0) := by
    rw [meets, State.detect, own, if_neg (ne_true_of_eq_false serves)]
  refine ⟨now, fun kind c6 c8 c11 c12 few => ⟨_, now, ?masked⟩, fun kind c10 => ⟨_, now, ?mismatch⟩,
    fun n u rest kind c3 index hn spare free idle running good => ⟨_, now, ?spared⟩⟩
  case masked =>
    rw [State.fault_masked kind c6 c12 (by rw [own]; exact few)]
    obtain ⟨c, e, counted⟩ := (s.at tm).countEcc_only f
    rw [counted, State.countFault, State.half_putHalf, State.putHalf_putHalf, State.half_putHalf, own, State.half_peer_putHalf, State.putHalf_cmds, State.putHalf_out]
    exact ⟨Sparse.get_set_same .., rfl, rfl, State.half_at .., rfl, rfl⟩
  case mismatch =>
    have stops : (s.at tm).fault f 0 = (s.at tm).spStop f 0 := by
      unfold State.fault State.act
      rw [faultAsRead_own fun _ _ => by rw [kind]; exact FaultKind.noConfusion]
      simp [State.countEcc_none, faultCorrects, faultFails, faultUnit, kind, c10]
    rw [stops, State.spStop]
    dsimp only
    rw [State.half_putHalf, own, State.putHalf_cmds, State.putHalf_out]
    exact ⟨rfl, rfl, rfl, rfl, rfl, rfl⟩
  case spared =>
    have acts : (s.at tm).fault f 0 = ((s.at tm).unitFault f 0).retireThird f.half .laneUnit (f.unitNo - luBase f.half) := by
      unfold State.fault State.act
      rw [faultAsRead_own fun _ _ => by rw [kind]; exact FaultKind.noConfusion]
      simp [State.countEcc_none, faultCorrects, faultFails, faultUnit, kind, c3]
    obtain ⟨mapped, rolls, mem, vts⟩ := State.unitFault_spared (s := s.at tm) 0 (by rw [own]; exact index) hn (by rw [own]; exact spare) (by rw [own]; exact free)
      (by rw [own]; exact idle) (by rw [State.lane_at]; exact running) (by rw [State.lane_at]; exact good)
    have served := fun k => ((s.at tm).unitFault f 0).unserviced_retireThird f.half k .laneUnit (f.unitNo - luBase f.half)
    rw [acts, Half.luOf, Half.luMap_of_unserviced (served f.half), State.lane_of_lanes fun k => Half.lanes_of_unserviced (served k)]
    rw [State.lane_at] at mem vts
    exact ⟨mapped, rolls, mem, vts⟩

end Sys2Proof.Machine
end

section
/-! PROOFS. Restart, recovery, rotation and tests of units. -/
namespace Sys2Proof.Machine
open Sys2Proof

/-- A half without what work on its lanes and viewers, completions, fault records and tests touch. -/
def Half.standing (H : Half) : Half :=
  { H.unserviced with
    lanes := []
    net := (Half.reset .east).net
    mon := (Half.reset .east).mon }
theorem Half.standing_of {H K : Half} (e : H.unserviced = K.unserviced) : H.standing = K.standing := by
  rw [standing, e, standing]
theorem Half.auth_of_standing {H K : Half} (e : H.standing = K.standing) : H.auth = K.auth := by
  exact (congrArg Half.auth e :)
theorem Half.spRestart_of_standing {H K : Half} (e : H.standing = K.standing) : H.sp.spRestart = K.sp.spRestart := by
  exact (congrArg (fun H => H.sp.spRestart) e :)
theorem Half.later_of_standing {H K : Half} (e : H.standing = K.standing) : H.sp.later = K.sp.later := by
  exact (congrArg (fun H => H.sp.later) e :)

theorem State.standing_putLane (s : State) (l : Nat) (L : Lane) (k : HalfId) : ((s.putLane l L).half k).standing = (s.half k).standing :=
  (State.half_putHalf_of Half.standing (by rfl) k : _)
theorem State.standing_finish (s : State) (id status detail : Nat) (result : Bytes) (k : HalfId) :
    ((s.finish id status detail result).half k).standing = (s.half k).standing :=
  s.finish_keeps Half.standing (fun _ _ _ => rfl) id status detail result k
theorem State.standing_logInput (s : State) (l : Nat) (L : Lane) (vt kind slot : Nat) (data : Bytes) (cmd : Option Nat) (k : HalfId) :
    ((s.logInput l L vt kind slot data cmd).half k).standing = (s.half k).standing := by
  obtain ⟨c, e, only⟩ := State.ckptLost_half (s.putLane l (L.makeRoom.1.addInput vt kind slot data cmd)) l L.makeRoom.2 k
  rw [State.logInput, only]
  exact State.standing_putLane ..
theorem State.standing_resumeLane (s : State) (l cause : Nat) (k : HalfId) : ((s.resumeLane l cause).half k).standing = (s.half k).standing := by
  unfold State.resumeLane
  dsimp only
  exact (State.half_putHalf_of Half.standing (by rfl) k).trans (State.standing_logInput ..)
theorem State.standing_thaw (s : State) (l : Nat) (command : Bool) (k : HalfId) : ((s.thaw l command).half k).standing = (s.half k).standing := by
  unfold State.thaw
  dsimp only
  split
  · exact State.standing_putLane ..
  · split
    · exact State.standing_putLane ..
    · exact (State.standing_resumeLane ..).trans (State.standing_putLane ..)
theorem State.standing_abandonSnap (s : State) (l : Nat) (k : HalfId) : ((s.abandonSnap l).half k).standing = (s.half k).standing := by
  unfold State.abandonSnap
  dsimp only
  split
  · rfl
  · split
    · rfl
    · split
      · exact State.standing_thaw ..
      · split <;> exact State.standing_putLane ..
theorem State.standing_faultBegun (s : State) (h : HalfId) (r : Nat) (k : HalfId) : ((s.faultBegun h r).half k).standing = (s.half k).standing := by
  unfold State.faultBegun
  dsimp only
  rw [foldl_keeps (fun t : State => (t.half k).standing) (fun t id => t.standing_finish id stFault r [] k)]
  refine (State.half_putHalf_of Half.standing (by rfl) k).trans ?_
  exact foldl_keeps (fun t : State => (t.half k).standing) (fun t l => t.standing_abandonSnap l k) ..
theorem State.standing_recordOwn (s : State) (h : HalfId) (f : FaultInfo) (time flags : Nat) (k : HalfId) :
    ((s.recordOwn h f time flags).half k).standing = (s.half k).standing := by
  refine Half.standing_of (Half.unserviced_of ?_)
  rw [State.recordOwn, State.unrecorded_record, State.unrecorded_countFault]

/-! A half that is down. -/
theorem State.half_recordOther_peer (s : State) (h of : HalfId) (cls action levee : Nat) :
    (s.recordOther (HalfId.peer h) of cls action levee).half h = s.half h := by
  cases h with
  | east => exact (State.half_peer_record _ .west _).trans (s.half_peer_countFault .west ..)
  | west => exact (State.half_peer_record _ .east _).trans (s.half_peer_countFault .east ..)
theorem State.half_noteDown (s : State) (h : HalfId) (cls : Nat) : (s.noteDown h cls).half h = s.half h := by
  unfold State.noteDown
  dsimp only
  split
  · rfl
  · exact s.half_recordOther_peer ..
/-- What stays of a half that is down (R453): its reset state, its pins and its MRAM. -/
theorem State.goDown_half (s : State) (h : HalfId) : ((s.goDown h).half h).sp.down = true ∧ ((s.goDown h).half h).lanes = [] ∧
    ((s.goDown h).half h).pins = (s.half h).pins ∧ ((s.goDown h).half h).life.mram = (s.half h).life.mram := by
  have keeps {X : Type} (p : Half → X) (hp : ∀ (H : Half) n e, p { H with net := n, ev := e } = p H) : p ((s.goDown h).half h) =
      p { (s.half h).heldInReset h with
        sp := { ((s.half h).heldInReset h).sp with down := true }
        boot := { Boot.reset with perstHeld := (s.half h).boot.perstHeld, ethClk := (s.half h).boot.ethClk, pcieClk := (s.half h).boot.pcieClk } } := by
    refine (foldl_keeps (fun t : State => p (t.half h)) (fun t id => ?_) ..).trans ?_
    · exact t.finish_keeps p hp ..
    · dsimp only
      rw [State.half_noteDown, State.half_putHalf]
  exact ⟨keeps (fun H => H.sp.down) fun _ _ _ => rfl, keeps Half.lanes fun _ _ _ => rfl, keeps Half.pins fun _ _ _ => rfl,
    keeps (fun H => H.life.mram) fun _ _ _ => rfl⟩

/-! A unit that gives its place to a spare. -/
/-- The lane of a unit served by another, and the old unit freed (R458, R459). -/
theorem State.swapUnit {s : State} {h : HalfId} (n u i : Nat) : (((s.mapUnit h n u).freed h .laneUnit i).half h).luOf h n = u ∧
    (((s.mapUnit h n u).freed h .laneUnit i).half h).lanes = (s.half h).lanes ∧
    (((s.mapUnit h n u).freed h .laneUnit i).half h).sp.handoff = (s.half h).sp.handoff := by
  have freed := (s.mapUnit h n u).unserviced_freed h h .laneUnit i
  rw [Half.luOf, Half.luMap_of_unserviced freed, Half.lanes_of_unserviced freed, Half.handoff_of_unserviced freed, State.mapUnit, State.half_putHalf]
  exact ⟨Sparse.get_set_same .., rfl, rfl⟩
theorem State.spareCore_checkHalt (s : State) (h : HalfId) : ((s.checkHalt h).half h).sp.spareCore = (s.half h).sp.spareCore :=
  Half.spareCore_of_unrecorded (s.unrecorded_checkHalt h h)
/-- A unit that is freed is no spare yet (R460). -/
theorem State.spareCore_freed {s : State} {h : HalfId} {u : UnitKind} {i : Nat} (out : (s.half h).sp.spareCore = none) :
    ((s.freed h u i).half h).sp.spareCore = none := by
  unfold State.freed State.retire
  dsimp only
  split
  · split
    · exact out
    · rw [State.spareCore_checkHalt, State.half_putHalf]
      change (if _ then none else (s.half h).sp.spareCore) = none
      rw [out, ite_self]
  · split
    · rw [State.spareCore_checkHalt, out]
    · rw [State.spareCore_checkHalt, State.half_putHalf]
      exact out
/-- A freed lane unit that passes its test is a spare again (R458). -/
theorem State.passUnit_spare {s : State} {h : HalfId} {i : Nat} (out : (s.half h).indexOf h (luBase h + i) = none)
    (sound : (s.half h).isRetired .laneUnit i = false) (new : luBase h + i ∉ (s.half h).sp.spares) :
    ((s.passUnit h .laneUnit i).half h).sp.spares = (s.half h).sp.spares ++ [luBase h + i] ∧
      ((s.passUnit h .laneUnit i).half h).sp.tests = (s.half h).sp.tests ∧ ((s.passUnit h .laneUnit i).half h).lanes = (s.half h).lanes := by
  have passes : (((s.half h).indexOf h (luBase h + i)).isNone && !(s.half h).isRetired .laneUnit i && !(s.half h).sp.spares.contains (luBase h + i)) = true := by
    simp [out, sound, new]
  have acts : s.passUnit h .laneUnit i = (s.putHalf h ((s.half h).setSp { (s.half h).sp with
      luTested := Sparse.set zeroNat (s.half h).sp.luTested i s.time, spares := (s.half h).sp.spares ++ [luBase h + i] })).checkHalt h := by
    unfold State.passUnit
    dsimp only
    rw [if_pos passes]
  have kept := State.unrecorded_checkHalt (s.putHalf h ((s.half h).setSp { (s.half h).sp with
      luTested := Sparse.set zeroNat (s.half h).sp.luTested i s.time, spares := (s.half h).sp.spares ++ [luBase h + i] })) h h
  rw [acts, Half.spares_of_unrecorded kept, Half.tests_of_unrecorded kept, Half.lanes_of_unserviced (Half.unserviced_of kept), State.half_putHalf]
  exact ⟨rfl, rfl, rfl⟩

/-- Settles O47. -/
theorem restartAndRotation : Obligations.RestartAndRotation := by
  unfold Obligations.RestartAndRotation
  refine ⟨fun h tm s runs stopped up boots planned => ?restart, fun h tm s runs recovers up => ⟨fun time back => ?recovered, ?down⟩,
    fun h tm u rest j n s rotates goes free spares next index hn => ⟨fun moving => ?bound, fun still => ?swapped⟩,
    fun l tm u s hl bound rotates goes => ?handoff, fun h tm q p c s rotates goes spare next index drained => ?core,
    fun h i tm s hi runs serves tests index sound new => ?pass, fun h u i pass tm x s hi runs serves clear hx kind number => ?ends⟩
  case restart =>
    have own : (s.at tm).half h = s.half h := State.half_at ..
    have on : (s.at tm).runs = true := runs
    obtain ⟨a, ha⟩ : ∃ a : Authority, a = { (s.half h).auth with
      role := if (s.half h).auth.role = .isolated then .isolated else .starting, claiming := none, heardAny := false, heardRole1 := false, heardClaim := false,
      claimUntil := (s.at tm).time + 20000 } := ⟨_, rfl⟩
    obtain ⟨v, hv⟩ : ∃ v, v = (s.at tm).putHalf h { s.half h with
      auth := a, sp := { (s.half h).sp with spRestart := false, spFault := none, later := [] }, fw := (s.half h).fw.restarted } := ⟨_, rfl⟩
    have half : v.half h = { s.half h with
      auth := a, sp := { (s.half h).sp with spRestart := false, spFault := none, later := [] }, fw := (s.half h).fw.restarted } := by rw [hv, State.half_putHalf]
    obtain ⟨u, acts, kept⟩ : ∃ u : State, exec (.spRestartComplete h tm) s = .next (u.faultsLater h (s.half h).sp.later) ∧
        (u.half h).standing = (v.half h).standing := by
      change ∃ u : State, execSpRestartComplete h tm s = _ ∧ _
      unfold execSpRestartComplete
      dsimp only
      rw [own, if_neg (by simp [on, stopped, up, boots, planned])]
      refine ⟨_, rfl, ?_⟩
      rw [hv, ha]
      split
      · exact (State.standing_recordOwn ..).trans (State.standing_faultBegun ..)
      · exact State.standing_faultBegun ..
    refine ⟨u, acts, (Half.spRestart_of_standing kept).trans (by rw [half]), (Half.later_of_standing kept).trans (by rw [half]), ?_, ?_⟩
    · rw [Half.auth_of_standing kept, half, ha]
    · rw [Half.auth_of_standing kept, half, ha]
  case recovered =>
    have own : (s.at tm).half h = s.half h := State.half_at ..
    have on : (s.at tm).runs = true := runs
    have none' : (s.half h).held.any (fun p => decide (p.2.phase = .rolling)) = false :=
      List.any_eq_false.mpr fun p hp => by simpa using back p hp
    refine ⟨(s.at tm).putHalf h { s.half h with sp := { (s.half h).sp with recovering := false } }, ?_, ?_⟩
    · change execHalfRecoveryEnd h true tm s = _
      unfold execHalfRecoveryEnd
      dsimp only
      rw [own, on, recovers, up, none', decide_eq_false (by omega)]
      rfl
    · rw [State.half_putHalf, State.putHalf_out]
      exact ⟨rfl, rfl, rfl⟩
  case down =>
    have own : (s.at tm).half h = s.half h := State.half_at ..
    have on : (s.at tm).runs = true := runs
    obtain ⟨down, lanes, pins, mram⟩ := (s.at tm).goDown_half h
    refine ⟨(s.at tm).goDown h, ?_, down, lanes, own ▸ pins, own ▸ mram⟩
    change execHalfRecoveryEnd h false tm s = _
    unfold execHalfRecoveryEnd
    dsimp only
    rw [own, on, recovers, up]
    rfl
  case bound =>
    have own : (s.at tm).half h = s.half h := State.half_at ..
    have on : (s.at tm).rotates h = true := by rw [State.rotates, own]; exact rotates
    refine ⟨(s.at tm).putHalf h ((s.half h).setSp { (s.half h).sp with
      spares := rest, handoff := some (laneNo h n, u), luNext := luBase h + (j + 1) % 132 }), ?_, ?_⟩
    · change execLaneUnitRotation h tm s = _
      unfold execLaneUnitRotation
      dsimp only
      rw [own, if_neg (by simp [on, goes, free]), spares, next]
      dsimp only
      rw [index]
      dsimp only
      rw [State.lane_at, if_pos moving]
    · rw [State.half_putHalf]
      exact ⟨rfl, rfl, rfl, rfl, rfl⟩
  case swapped =>
    have own : (s.at tm).half h = s.half h := State.half_at ..
    have on : (s.at tm).rotates h = true := by rw [State.rotates, own]; exact rotates
    have stands : ¬((s.lane (laneNo h n)).phase = .running ∨ (s.lane (laneNo h n)).phase = .rolling) := by
      rcases still with stopped | paused
      · simp [stopped]
      · simp [paused]
    obtain ⟨mapped, lanes, _⟩ := State.swapUnit (s := (s.at tm).putHalf h ((s.half h).setSp { (s.half h).sp with luNext := luBase h + (j + 1) % 132 })) (h := h) n u j
    refine ⟨_, ?_, mapped, lanes.trans (by rw [State.half_putHalf]; rfl)⟩
    change execLaneUnitRotation h tm s = _
    unfold execLaneUnitRotation
    dsimp only
    rw [own, if_neg (by simp [on, goes, free]), spares, next]
    dsimp only
    rw [index]
    dsimp only
    rw [State.lane_at, if_neg stands]
  case handoff =>
    have own : (s.at tm).half (halfOf l) = s.half (halfOf l) := State.half_at ..
    have on : (s.at tm).rotates (halfOf l) = true := by rw [State.rotates, own]; exact rotates
    obtain ⟨mapped, lanes, handoff⟩ := State.swapUnit (s := (s.at tm).putHalf (halfOf l) ((s.half (halfOf l)).setSp { (s.half (halfOf l)).sp with handoff := none }))
      (h := halfOf l) (l % 128) u ((s.half (halfOf l)).luOf (halfOf l) (l % 128) - luBase (halfOf l))
    refine ⟨_, ?_, mapped, handoff.trans (by rw [State.half_putHalf]; rfl), lanes.trans (by rw [State.half_putHalf]; rfl)⟩
    change execSpareHandoff l tm s = _
    unfold execSpareHandoff
    dsimp only
    rw [if_neg (by omega), own, bound]
    dsimp only
    rw [on, State.lane_at, goes, if_neg (by simp)]
  case core =>
    have own : (s.at tm).half h = s.half h := State.half_at ..
    have on : (s.at tm).rotates h = true := by rw [State.rotates, own]; exact rotates
    obtain ⟨v, hv⟩ : ∃ v, v = (s.at tm).putHalf h ((s.half h).setSp { (s.half h).sp with
      coreMap := Sparse.set coreDefault (s.half h).sp.coreMap c q, spareCore := none, coreNext := (p + 1) % 17 }) := ⟨_, rfl⟩
    have half : v.half h = (s.half h).setSp { (s.half h).sp with
      coreMap := Sparse.set coreDefault (s.half h).sp.coreMap c q, spareCore := none, coreNext := (p + 1) % 17 } := by rw [hv, State.half_putHalf]
    have freed := v.unserviced_freed h h .core p
    refine ⟨v.freed h .core p, ?_, ?_, State.spareCore_freed (by rw [half]; rfl), (Half.coreNext_of_unserviced freed).trans (by rw [half]; rfl),
      (Half.lanes_of_unserviced freed).trans (by rw [half]; rfl), (Half.ctxs_of_unserviced freed).trans (by rw [half]; rfl)⟩
    · change execCoreSwap h tm s = _
      unfold execCoreSwap
      dsimp only
      rw [own, if_neg (by simp [on, goes]), spare, next]
      dsimp only
      rw [index]
      dsimp only
      rw [drained, hv]
      rfl
    · rw [Half.coreOf, Half.coreMap_of_unserviced freed, half]
      exact Sparse.get_set_same ..
  case pass =>
    have own : (s.at tm).half h = s.half h := State.half_at ..
    have on : (s.at tm).runs = true := runs
    have served : (s.half h).served h .laneUnit i = [] := by rw [Half.served, index]
    obtain ⟨v, hv⟩ : ∃ v, v = (s.at tm).putHalf h ((s.half h).setSp { (s.half h).sp with tests := [] }) := ⟨_, rfl⟩
    have half : v.half h = (s.half h).setSp { (s.half h).sp with tests := [] } := by rw [hv, State.half_putHalf]
    obtain ⟨spares, tests', lanes⟩ := State.passUnit_spare (s := v) (h := h) (i := i) (by rw [half]; exact index) (by rw [half]; exact sound)
      (by rw [half]; exact new)
    refine ⟨v.passUnit h .laneUnit i, ?_, spares.trans (by rw [half]; rfl), tests'.trans (by rw [half]; rfl), lanes.trans (by rw [half]; rfl)⟩
    change execUnitTestComplete h .laneUnit i true tm s = _
    have clear : (s.at tm).clear h .laneUnit i = true := by
      rw [State.clear, own, served]
      rfl
    have known : ¬unitCount .laneUnit ≤ i := by
      change ¬132 ≤ i
      omega
    unfold execUnitTestComplete
    rw [if_neg known]
    dsimp only
    rw [own, tests, clear, on, serves, served, hv]
    simp
  case ends =>
    change Goes (execUnitTestComplete h u i pass tm s)
    unfold execUnitTestComplete
    rw [if_neg (by omega)]
    dsimp only
    split
    · exact ⟨_, rfl⟩
    · exact ⟨_, rfl⟩

end Sys2Proof.Machine
end

section
/-! PROOFS. Authority between the halves. -/
namespace Sys2Proof.Machine
open Sys2Proof

@[simp] theorem State.talks_at (s : State) (tm : Nat) (h : HalfId) : (s.at tm).talks h = s.talks h := by
  rw [State.talks, State.half_at]
  rfl
/-- A record of the other half or of the half's own role leaves the half's lanes and what stands of it (R457). -/
theorem State.unrecorded_recordOther (s : State) (h of : HalfId) (cls action levee : Nat) (k : HalfId) :
    ((s.recordOther h of cls action levee).half k).unrecorded = (s.half k).unrecorded := by
  rw [State.recordOther, State.unrecorded_record, State.unrecorded_countFault]
theorem State.last_recordOther (s : State) (h of : HalfId) (cls action levee : Nat) :
    ((s.recordOther h of cls action levee).half h).sp.last = (s.half h).sp.last + 1 := by
  rw [State.recordOther, (State.sp_record ..).1, State.countFault, State.half_putHalf]
  cases maskedAction action <;> rfl
theorem Half.auth_of_unrecorded {H K : Half} (e : H.unrecorded = K.unrecorded) : H.auth = K.auth :=
  Half.auth_of_standing (Half.standing_of (Half.unserviced_of e))
theorem Half.lanes_of_unrecorded {H K : Half} (e : H.unrecorded = K.unrecorded) : H.lanes = K.lanes :=
  Half.lanes_of_unserviced (Half.unserviced_of e)

/-- The outcomes of a claim (R467). -/
theorem Authority.outcomes (a : Authority) (h : HalfId) (pin : Nat) :
    (a.heardRole1 = true → a.outcomeOf h pin = (1, .subordinate)) ∧
    (a.heardRole1 = false → a.heardClaim = false → a.heardAny = false → namesHalf h pin ≠ 2 → a.outcomeOf h pin = (2, .inCharge)) ∧
    (a.heardRole1 = false → a.heardClaim = false → a.heardAny = false → namesHalf h pin = 2 → a.outcomeOf h pin = (3, .isolated)) ∧
    (a.heardRole1 = false → a.heardClaim = true → namesHalf h pin = 1 → a.outcomeOf h pin = (4, .inCharge)) ∧
    (a.heardRole1 = false → a.heardClaim = true → namesHalf h pin = 2 → a.outcomeOf h pin = (4, .isolated)) ∧
    (a.heardRole1 = false → a.heardClaim = true → pin = 0 → a.outcomeOf h pin = (5, if a.pref = halfNo h then .inCharge else .isolated)) := by
  have silent : namesHalf h 0 = 0 := rfl
  refine ⟨fun r => ?_, fun r c y n => ?_, fun r c y n => ?_, fun r c n => ?_, fun r c n => ?_, fun r c n => ?_⟩
  · simp [outcomeOf, r]
  · simp [outcomeOf, r, c, y, n]
  · simp [outcomeOf, r, c, y, n]
  · have named : pin ≠ 0 := fun z => by rw [z, silent] at n; omega
    simp [outcomeOf, r, c, n, named]
  · have named : pin ≠ 0 := fun z => by rw [z, silent] at n; omega
    simp [outcomeOf, r, c, n, named]
  · simp [outcomeOf, r, c, n]

/-- Settles O48. -/
theorem authorityAndClaims : Obligations.AuthorityAndClaims := by
  unfold Obligations.AuthorityAndClaims
  refine ⟨fun h tm s talks => ?send, fun h w n tm s hw talks lost => ?lost, fun h w n tm s hw talks on => ⟨fun valid => ?heard, fun bad => ?ignored⟩,
    fun h tm s talks missed idle => ⟨fun role => ?claims, fun role new => ?noted⟩, fun h up down tm t0 s talks claiming time => ?resolved,
    fun h tm s talks stage role time => ?listened, fun h up down s runs serves => ?sampled, fun a h pin _ => a.outcomes h pin⟩
  case send =>
    intro a q
    have own : (s.at tm).half h = s.half h := State.half_at ..
    let b : Authority := { a with
      seqTx := Sparse.set zeroNat (Sparse.set zeroNat a.seqTx 0 (q 0)) 1 (q 1), passLeft := a.passLeft - 1
      role := if (decide (0 < a.passLeft) && decide (a.role = .inCharge)) = true then .subordinate else a.role }
    refine ⟨(((s.at tm).putHalf h ((s.half h).setAuth b)).emit (.heartbeat h 0 (a.word (q 0)))).emit (.heartbeat h 1 (a.word (q 1))), ?_, ?_, ?_⟩
    · change execHeartbeatSend h tm s = _
      unfold execHeartbeatSend
      dsimp only
      rw [State.talks_at, own, if_neg (by simp [talks])]
    · change _ :: _ :: ((s.at tm).putHalf h ((s.half h).setAuth b)).out = _
      rw [State.putHalf_out]
      rfl
    · rw [State.half_emit, State.half_emit, State.half_putHalf]
      refine ⟨fun w hw => ?_, rfl, ?_, rfl⟩
      · have : w = 0 ∨ w = 1 := by omega
        rcases this with rfl | rfl
        · exact (Sparse.get_set_other _ _ _ _ _ (by decide)).trans (Sparse.get_set_same ..)
        · exact Sparse.get_set_same ..
      · change (if (decide (0 < a.passLeft) && decide (a.role = .inCharge)) = true then _ else _) = _
        simp only [Bool.and_eq_true, decide_eq_true_eq]
  case lost =>
    change execHeartbeatReceive h w n tm s = _
    unfold execHeartbeatReceive
    rw [if_neg (by omega)]
    dsimp only
    rw [State.half_at, if_pos (by simp [lost])]
    rfl
  case heard =>
    change execHeartbeatReceive h w n tm s = _
    unfold execHeartbeatReceive
    rw [if_neg (by omega)]
    dsimp only
    rw [State.half_at, State.talks_at, if_neg (by simp [talks, valid, on])]
  case ignored =>
    change execHeartbeatReceive h w n tm s = _
    unfold execHeartbeatReceive
    rw [if_neg (by omega)]
    dsimp only
    rw [State.half_at, if_pos (by simp [bad])]
    rfl
  case claims =>
    refine ⟨(s.at tm).putHalf h ((s.half h).setAuth ((s.half h).auth.claim (s.at tm).time)), ?_, ?_⟩
    · change execHeartbeatMiss h tm s = _
      unfold execHeartbeatMiss
      dsimp only
      rw [State.half_at, State.talks_at, if_neg (by simp [talks, missed, idle]), role]
    · rw [State.half_putHalf, State.putHalf_out]
      exact ⟨rfl, role, rfl, rfl, rfl⟩
  case noted =>
    let v := (s.at tm).putHalf h ((s.half h).setAuth { (s.half h).auth with role := .inCharge, peerLost := true })
    have half : v.half h = (s.half h).setAuth { (s.half h).auth with role := .inCharge, peerLost := true } := State.half_putHalf ..
    have kept := v.unrecorded_recordOther h (HalfId.peer h) 10 7 2 h
    refine ⟨v.recordOther h (HalfId.peer h) 10 7 2, ?_, ?_, ?_, ?_, (Half.lanes_of_unrecorded kept).trans (by rw [half]; rfl)⟩
    · change execHeartbeatMiss h tm s = _
      unfold execHeartbeatMiss
      dsimp only
      rw [State.half_at, State.talks_at, if_neg (by simp [talks, missed, idle]), role]
      dsimp only
      rw [if_neg (ne_true_of_eq_false new)]
    · rw [Half.auth_of_unrecorded kept, half]
      rfl
    · rw [Half.auth_of_unrecorded kept, half]
      rfl
    · rw [State.last_recordOther, half]
      rfl
  case resolved =>
    intro a pin
    have named : (s.at tm).authority h up down = pin := by
      rw [State.authority, State.half_at]
      rfl
    let b : Authority := { a with
      pin := pin, claiming := none, outcome := (a.outcomeOf h pin).1, role := (a.outcomeOf h pin).2
      resLast := satBits 16 (((s.at tm).time - t0) / 40), peerLost := a.peerLost || decide ((a.outcomeOf h pin).1 = 2) }
    let v := (s.at tm).putHalf h ((s.half h).setAuth b)
    have half : v.half h = (s.half h).setAuth b := State.half_putHalf ..
    obtain ⟨t, acts, kept⟩ : ∃ t, exec (.claimResolve h up down tm) s = .next t ∧ (t.half h).unrecorded = (v.half h).unrecorded := by
      change ∃ t, execClaimResolve h up down tm s = .next t ∧ _
      unfold execClaimResolve
      dsimp only
      rw [State.half_at, claiming]
      dsimp only
      rw [State.talks_at, if_neg (by simp [talks, time]), named]
      refine ⟨_, rfl, ?_⟩
      split
      · exact State.unrecorded_recordOther ..
      · exact State.unrecorded_recordOther ..
      · split
        · exact State.unrecorded_recordOther ..
        · rfl
    refine ⟨t, acts, ?_⟩
    rw [Half.auth_of_unrecorded kept, Half.lanes_of_unrecorded kept, half]
    exact ⟨rfl, rfl, rfl, rfl, rfl⟩
  case listened =>
    let b : Authority := { (s.half h).auth with role := .subordinate }
    let c : Authority := if (!(s.half h).auth.heardRole1 && (s.half h).auth.missed (s.at tm).time) = true then b.claim (s.at tm).time else b
    refine ⟨(s.at tm).putHalf h ((s.half h).setAuth c), ?_, ?_⟩
    · change execRoleListenEnd h tm s = _
      unfold execRoleListenEnd
      dsimp only
      rw [State.half_at, State.talks_at, if_neg (by simp [talks, role, stage, time])]
    · rw [State.half_putHalf, State.putHalf_out]
      refine ⟨?_, fun told => ?_, fun quiet missed => ?_, rfl, rfl⟩
      · change c.role = _
        unfold c
        split <;> rfl
      · change c.claiming = _
        unfold c
        rw [if_neg (by simp [told])]
      · change c.claiming = _
        unfold c
        rw [if_pos (by simp [quiet, missed])]
        rfl
  case sampled =>
    refine ⟨s.putHalf h ((s.half h).setAuth { (s.half h).auth with pin := s.authority h up down }), ?_, ?_⟩
    · change execAuthoritySample h up down s = _
      unfold execAuthoritySample
      dsimp only
      rw [if_neg (by simp [runs, serves])]
      rfl
    · rw [State.half_putHalf, State.putHalf_out]
      exact ⟨rfl, rfl, rfl, rfl⟩

end Sys2Proof.Machine
end

section
/-! PROOFS. Bytes of a memory, the counters of the lifetime record, and the throttle ladder. -/
namespace Sys2Proof.Machine
open Sys2Proof

/-! Bytes written and read back. -/
theorem Mem.readBytes_writeBytes_outside (m : Mem) (a n b : Nat) (bs : Bytes) (apart : a + n ≤ b ∨ b + bs.length ≤ a) :
    (m.writeBytes b bs).readBytes a n = m.readBytes a n := by
  induction n generalizing a with
  | zero => rfl
  | succ n ih => rw [Mem.readBytes, Mem.readBytes, ih (a + 1) (by omega), Mem.read_writeBytes_outside _ _ _ _ (by omega)]
theorem Mem.readBytes_writeBytes_same (m : Mem) (a : Nat) (bs : Bytes) : (m.writeBytes a bs).readBytes a bs.length = bs := by
  induction bs generalizing m a with
  | nil => rfl
  | cons b t ih => rw [List.length_cons, Mem.readBytes, Mem.writeBytes, ih, Mem.read_writeBytes_outside _ _ _ _ (by omega), Mem.read_write_same]
theorem length_leBytes (n v : Nat) : (leBytes n v).length = n := by
  induction n generalizing v with
  | zero => rfl
  | succ n ih => rw [leBytes, List.length_cons, ih]
theorem leNat_leBytes (n v : Nat) : leNat (leBytes n v) = v % 256 ^ n := by
  induction n generalizing v with
  | zero => rw [leBytes, leNat, Nat.pow_zero, Nat.mod_one]
  | succ n ih =>
    rw [leBytes, leNat, ih, BitVec.toNat_ofNat, (Nat.pow_succ' : 256 ^ (n + 1) = _)]
    exact (Nat.mod_mul ..).symm

/-! A counter of the lifetime record (R484). -/
theorem Half.readNat_lifeAdd (H : Half) (off n k : Nat) :
    (H.lifeAdd off n k).life.image.readNat off n = min (H.life.image.readNat off n + k) (2 ^ (8 * n) - 1) := by
  have small : satBits (8 * n) (H.life.image.readNat off n + k) < 256 ^ n := by
    have pow : (256 : Nat) ^ n = 2 ^ (8 * n) := (Nat.pow_mul 2 8 n).symm
    have := Nat.two_pow_pos (8 * n)
    rw [pow, satBits]
    omega
  have read := Mem.readBytes_writeBytes_same H.life.image off (leBytes n (satBits (8 * n) (H.life.image.readNat off n + k)))
  rw [length_leBytes] at read
  change leNat (Mem.readBytes _ off n) = _
  rw [lifeAdd, read, leNat_leBytes, Nat.mod_eq_of_lt small]
  rfl
theorem Half.readNat_lifeAdd_other (H : Half) (off n k : Nat) {a w : Nat} (apart : a + w ≤ off ∨ off + n ≤ a) :
    (H.lifeAdd off n k).life.image.readNat a w = H.life.image.readNat a w := by
  rw [Mem.readNat, lifeAdd, Mem.readBytes_writeBytes_outside _ _ _ _ _ (by rw [length_leBytes]; exact apart)]
  rfl

/-! The ladder. -/
theorem State.mon_event (s : State) (h k : HalfId) (code lane frame data : Nat) : ((s.event h code lane frame data).half k).mon = (s.half k).mon := by
  obtain ⟨c, e, only⟩ := s.event_half h k code lane frame data
  rw [only]
/-- A change of stage changes nothing else of the monitors, and no lane (R479). -/
theorem State.setStage_mon (s : State) (h : HalfId) (k : Nat) : ∃ a l, ((s.setStage h k).half h).mon = { (s.half h).mon with stage := k, stageAt := a, ladderAt := l } := by
  unfold State.setStage
  dsimp only
  split
  · next same => exact ⟨(s.half h).mon.stageAt, (s.half h).mon.ladderAt, by rw [← same]⟩
  · rw [State.monEvent, State.monEventAt, State.mon_event, State.setMon, State.half_putHalf]
    exact ⟨_, _, rfl⟩
theorem State.stage_setStage (s : State) (h : HalfId) (k : Nat) : ((s.setStage h k).half h).mon.stage = k := by
  obtain ⟨a, l, mon⟩ := s.setStage_mon h k
  rw [mon]
theorem State.lanes_setStage (s : State) (h : HalfId) (k : Nat) : ((s.setStage h k).half h).lanes = (s.half h).lanes := by
  unfold State.setStage
  dsimp only
  split
  · rfl
  · rw [State.monEvent, State.monEventAt, State.lanes_event, State.setMon, State.half_putHalf]
    rfl
/-- A half below the lowest stage that it may hold goes there (R475, R477). -/
theorem Half.nextStage_low {H : Half} (time : Nat) (low : H.mon.stage < H.mon.floor) : H.nextStage time = H.mon.floor := if_pos low
/-- The ladder of a half that may hold any stage (R479). -/
theorem Half.nextStage_free {H : Half} (time : Nat) (sensors : H.mon.floor2 = false) (avs : H.mon.avsFault = false) :
    (H.mon.stage < 3 → stageEnter (H.mon.stage + 1) ≤ H.thalf → H.nextStage time = H.mon.stage + 1) ∧
    (0 < H.mon.stage → H.thalf < stageLeave H.mon.stage → H.mon.stageAt + 1000000000 ≤ time → H.nextStage time = H.mon.stage - 1) ∧
    (0 < H.mon.stage → H.thalf < stageLeave H.mon.stage → time < H.mon.stageAt + 1000000000 →
      (H.mon.stage = 3 ∨ H.thalf < stageEnter (H.mon.stage + 1)) → H.nextStage time = H.mon.stage) ∧
    ((H.mon.stage = 0 ∨ stageLeave H.mon.stage ≤ H.thalf) → (H.mon.stage = 3 ∨ H.thalf < stageEnter (H.mon.stage + 1)) → H.nextStage time = H.mon.stage) := by
  have floor : H.mon.floor = 0 := by rw [Monitors.floor, sensors, avs]; rfl
  have gap : 0 < H.mon.stage → H.mon.stage < 3 → stageLeave H.mon.stage ≤ stageEnter (H.mon.stage + 1) := fun low high => by
    have : H.mon.stage = 1 ∨ H.mon.stage = 2 := by omega
    rcases this with e | e <;> rw [e] <;> decide
  unfold nextStage
  dsimp only
  rw [floor, if_neg (Nat.not_lt_zero _)]
  refine ⟨fun up hot => if_pos ⟨up, hot⟩, fun low cool long => ?_, fun low cool soon below' => ?_, fun warm below' => ?_⟩
  · rw [if_neg (fun up => by have := gap low up.1; omega), if_pos ⟨low, cool, low, long⟩]
  · rw [if_neg (fun up => by omega), if_neg (fun down => by omega)]
  · rw [if_neg (fun up => by omega), if_neg (fun down => by omega)]

end Sys2Proof.Machine
end

section
/-! PROOFS. Monitors, ladder, core voltage and lifetime record. -/
namespace Sys2Proof.Machine
open Sys2Proof

@[simp] theorem State.operates_at (s : State) (tm : Nat) (h : HalfId) : (s.at tm).operates h = s.operates h := by
  rw [State.operates, State.half_at]
  rfl
theorem clamp_within {lo hi i : Int} (low : lo ≤ i) (high : i ≤ hi) : clamp lo hi i = i := by
  rw [clamp, if_neg (by omega), if_neg (by omega)]
theorem assoc_filter {V : Type} (k : Nat) (l : List (Nat × V)) : assoc k (l.filter (fun p => decide (p.1 ≠ k))) = none := by
  induction l with
  | nil => rfl
  | cons p l ih =>
    rw [List.filter_cons]
    split
    · next other => rw [assoc, if_neg (of_decide_eq_true other), ih]
    · exact ih
/-- A monitor that has been written is read back. -/
theorem Monitors.get_put_same (m : Monitors) (k i : Nat) (x : Monitor) : (m.put k i x).get k i = x :=
  match k with
  | 0 => Sparse.get_set_same thermalReset m.thermal i x
  | 1 => Sparse.get_set_same (voltageReset m.io33) m.voltage i x
  | _ + 2 => Sparse.get_set_same ringReset m.ring i x
theorem State.setStage_same {s : State} {h : HalfId} {k : Nat} (same : (s.half h).mon.stage = k) : s.setStage h k = s := if_pos same
/-- A MONITOR event, sent or not, leaves the monitors and the lanes. -/
theorem State.mon_monEventAt (s : State) (c : Bool) (h : HalfId) (k kind cls idx : Nat) (v : Int) (source : Nat) :
    ((if c then s.monEventAt h k kind cls idx v source else s).half h).mon = (s.half h).mon ∧
      ((if c then s.monEventAt h k kind cls idx v source else s).half h).lanes = (s.half h).lanes := by
  split
  · exact ⟨State.mon_event .., State.lanes_event ..⟩
  · exact ⟨rfl, rfl⟩

/-- A reading of a voltage or ring monitor (R470, R473): the monitor keeps it, and the stage of the ladder stays. -/
theorem State.monitorUpdate_plain {s : State} {h : HalfId} {k idx : Nat} {v : Int} (tm : Nat) (operates : s.operates h = true) (hk : k = 1 ∨ k = 2)
    (hi : idx < monCount k) (low : 0 ≤ v) (high : v ≤ 65535) : ∃ t, exec (.monitorUpdate h k idx v tm) s = .next t ∧
    (t.half h).mon = (s.half h).mon.put k idx (((s.half h).mon.get k idx).read k v).1 ∧ (t.half h).lanes = (s.half h).lanes := by
  obtain ⟨r, hr⟩ : ∃ r, r = ((s.half h).mon.get k idx).read k v := ⟨_, rfl⟩
  obtain ⟨H, hH⟩ : ∃ H, H = (s.half h).setMon ((s.half h).mon.put k idx r.1) := ⟨_, rfl⟩
  obtain ⟨t, ht⟩ : ∃ t, t = (if r.2 then ((s.at tm).putHalf h H).monEventAt h H.mon.stage 1 k idx v 0 else (s.at tm).putHalf h H) := ⟨_, rfl⟩
  obtain ⟨mon, lanes⟩ := State.mon_monEventAt ((s.at tm).putHalf h H) r.2 h H.mon.stage 1 k idx v 0
  rw [← ht, State.half_putHalf] at mon lanes
  have plain : k ≠ 0 := by omega
  refine ⟨t, ?_, by rw [mon, hH, hr]; rfl, by rw [lanes, hH]; rfl⟩
  change execMonitorUpdate h k idx v tm s = _
  unfold execMonitorUpdate
  rw [if_neg (by omega)]
  dsimp only
  rw [State.half_at, State.operates_at, if_neg (by simp [operates])]
  simp only [plain, if_false, clamp_within low high, Bool.false_eq_true, if_false]
  rw [← hr, ← hH, ← ht, State.setStage_same (by rw [mon])]
/-- A reading of a thermal monitor (R470, R474): the monitor keeps it. -/
theorem State.monitorUpdate_thermal {s : State} {h : HalfId} {idx : Nat} {v : Int} (tm : Nat) (operates : s.operates h = true) (hi : idx < 32)
    (low : -32768 ≤ v) (high : v ≤ 32767) : ∃ t, exec (.monitorUpdate h 0 idx v tm) s = .next t ∧ ((t.half h).mon.get 0 idx).value = v ∧
    (t.half h).lanes = (s.half h).lanes := by
  obtain ⟨r, hr⟩ : ∃ r, r = ((s.half h).mon.get 0 idx).read 0 v := ⟨_, rfl⟩
  obtain ⟨H, hH⟩ : ∃ H, H = (s.half h).setMon ((s.half h).mon.put 0 idx r.1) := ⟨_, rfl⟩
  obtain ⟨p, hp⟩ : ∃ p, p = H.thermal idx := ⟨_, rfl⟩
  obtain ⟨k, hk⟩ : ∃ k, k = p.1.nextStage (s.at tm).time := ⟨_, rfl⟩
  obtain ⟨a, ha⟩ : ∃ a, a = (if r.2 then ((s.at tm).putHalf h p.1).monEventAt h k 1 0 idx v 0 else (s.at tm).putHalf h p.1) := ⟨_, rfl⟩
  obtain ⟨b, hb⟩ : ∃ b, b = (if p.2 then a.monEventAt h k 3 0 idx v 0 else a) := ⟨_, rfl⟩
  obtain ⟨monA, lanesA⟩ := State.mon_monEventAt ((s.at tm).putHalf h p.1) r.2 h k 1 0 idx v 0
  obtain ⟨monB, lanesB⟩ := State.mon_monEventAt a p.2 h k 3 0 idx v 0
  obtain ⟨x, y, mon⟩ := b.setStage_mon h k
  rw [← ha, State.half_putHalf] at monA lanesA
  rw [← hb, monA] at monB
  rw [← hb, lanesA] at lanesB
  have hot : ∀ K : Half, K.lifeHot.mon = K.mon ∧ K.lifeHot.lanes = K.lanes := fun K => by
    unfold Half.lifeHot
    split <;> exact ⟨rfl, rfl⟩
  have value : (p.1.mon.get 0 idx).value = v := by
    rw [hp, Half.thermal, (hot _).1]
    change ((H.mon.put 0 idx (H.mon.sensor idx).1).get 0 idx).value = v
    rw [Monitors.get_put_same]
    change (H.mon.get 0 idx).value = v
    rw [hH, Half.setMon, Monitors.get_put_same, hr]
    rfl
  refine ⟨b.setStage h k, ?_, ?_, ?_⟩
  · change execMonitorUpdate h 0 idx v tm s = _
    unfold execMonitorUpdate
    rw [if_neg (by rw [monCount]; omega)]
    dsimp only
    rw [State.half_at, State.operates_at, if_neg (by simp [operates])]
    simp only [if_true, clamp_within low high]
    rw [← hr, ← hH, ← hp, ← hk, ← ha, ← hb]
  · rw [mon]
    exact (congrArg (fun m : Monitors => (m.get 0 idx).value) monB).trans value
  · rw [State.lanes_setStage, lanesB, hp, Half.thermal, (hot _).2, hH]
    rfl

/-- The clocks of a half stopped for good: its record and its monitors stay (R482). -/
theorem Half.frozen_keeps {X : Type} (p : Half → X) (keeps : ∀ (H : Half) i L, p (H.putLane i L) = p H) (H : Half) : p H.frozen = p H :=
  foldl_keeps p (fun K q => by split <;> simp only [keeps]) ..

/-- A half at THERMTRIP (R482, R489). -/
def Half.tripped (H : Half) : Half :=
  { H.frozen with mon := { H.frozen.mon with trip := true }, life := { H.frozen.life with tripWord := satBits 32 (H.frozen.life.tripWord + 1) } }
theorem Half.tripped_counts (H : Half) : H.tripped.mon.trip = true ∧ H.tripped.life.tripWord = min (H.life.tripWord + 1) (2 ^ 32 - 1) := by
  have same := H.frozen_keeps Half.life fun _ _ _ => rfl
  refine ⟨rfl, ?_⟩
  change satBits 32 (H.frozen.life.tripWord + 1) = _
  rw [same, satBits]
/-- A second of power in the live image (R484, R485): POWER_ON_S, the temperature and the stage of the ladder. -/
def Half.lifeTick (H : Half) : Half :=
  let K := (H.lifeAdd 0x18 8 1).lifeAdd (0x60 + 4 * tempBin H.thalf) 4 1
  if H.mon.stage = 0 then K else K.lifeAdd (0xC0 + 4 * (H.mon.stage - 1)) 4 1
theorem Half.lifeTick_keeps {X : Type} (p : Half → X) (keeps : ∀ (H : Half) l, p { H with life := { H.life with image := l } } = p H) (H : Half) :
    p H.lifeTick = p H := by
  unfold lifeTick
  dsimp only
  split
  · exact (keeps _ _).trans (keeps _ _)
  · exact (keeps _ _).trans ((keeps _ _).trans (keeps _ _))
/-- The counts of the temperature and of the stage leave POWER_ON_S. -/
theorem Half.lifeTick_seconds (H : Half) : H.lifeTick.life.image.readNat 0x18 8 = min (H.life.image.readNat 0x18 8 + 1) (2 ^ 64 - 1) := by
  have bin := ((H.lifeAdd 0x18 8 1).readNat_lifeAdd_other (0x60 + 4 * tempBin H.thalf) 4 1 (a := 0x18) (w := 8) (.inl (by omega))).trans (H.readNat_lifeAdd 0x18 8 1)
  unfold lifeTick
  dsimp only
  split
  · exact bin
  · exact (Half.readNat_lifeAdd_other _ _ _ _ (.inl (by omega))).trans bin

/-- A flush writes the image to one of the half's own two (R490). -/
theorem Half.flush_mram (H : Half) (h : HalfId) (safe : Bool) : ∃ k, k < 2 ∧
    (H.flush h safe).life.mram = Sparse.set noImage H.life.mram k (some (lifeBytes h (H.flush h safe).life.image)) := by
  refine ⟨_, ?_, rfl⟩
  split <;> omega

/-- Settles O49. -/
theorem monitorsAndLifetime : Obligations.MonitorsAndLifetime := by
  unfold Obligations.MonitorsAndLifetime
  refine ⟨fun h idx v tm s op hi low high => ?voltage, fun h idx v tm s op hi low high => ?ring, fun h idx v tm s op hi low high => ?thermal,
    fun h i L tm s op stage hot time choice hi => ?pause, fun h l rest tm s op ladder stage time paused why free snap => ?resume,
    fun h acked rb tm s op ready good => ?asked, fun h rb tm s op ready good nacks => ?refused, fun h acked rb tm s op bad => ?retried,
    fun h rail tm s op hr none' => ?droop, fun h rail depth t0 tm s op hr some' deep long => ?recovered, fun tm s on cool => ?trips,
    ⟨fun s h low => ?floor, fun s h top sensors avs => ?steps⟩, fun h tm s op => ?second, fun h tm s op due => ?flush, fun h v tm s off => ?off,
    fun h b s waits up => ⟨?mirrored, ?skipped⟩⟩
  case voltage =>
    obtain ⟨t, acts, mon, lanes⟩ := State.monitorUpdate_plain (k := 1) tm op (.inl rfl) hi low high
    refine ⟨t, acts, ?_, ?_, lanes⟩
    · rw [mon, Monitors.get_put_same]
    · rw [mon]
      rfl
  case ring =>
    obtain ⟨t, acts, mon, lanes⟩ := State.monitorUpdate_plain (k := 2) tm op (.inr rfl) hi low high
    refine ⟨t, acts, ?_, ?_, lanes⟩
    · rw [mon, Monitors.get_put_same]
    · rw [mon]
      rfl
  case thermal => exact State.monitorUpdate_thermal tm op hi low high
  case pause =>
    obtain ⟨u, hu⟩ : ∃ u, u = (s.at tm).putLane (laneNo h i) { L with pauseDue := { L.pauseDue with ladder := true } } := ⟨_, rfl⟩
    have mon : (u.half h).mon = (s.half h).mon := by
      rw [hu]
      exact (State.half_putHalf_of Half.mon (by rfl) h).trans (congrArg Half.mon (State.half_at ..))
    refine ⟨u.setMon h { (s.half h).mon with ladder := laneNo h i :: (s.half h).mon.ladder, ladderAt := (s.at tm).time + 100000000 }, ?_, ?_, ?_⟩
    · change execLadderPause h tm s = _
      unfold execLadderPause
      dsimp only
      rw [State.half_at, State.operates_at, if_neg (by simp [op, stage]; omega), choice]
      dsimp only
      rw [← hu, mon, hu, State.putLane_time]
    · have same : ∀ m : Monitors, (u.setMon h m).lane (laneNo h i) = u.lane (laneNo h i) := fun m =>
        State.lane_of_lanes (fun k => State.half_putHalf_of Half.lanes (by rfl) k) _
      rw [same, hu, State.lane_putLane]
    · rw [State.setMon, State.half_putHalf, State.putHalf_out, hu, State.putLane_out]
      exact ⟨rfl, rfl, rfl⟩
  case resume =>
    change execLadderResume h tm s = _
    unfold execLadderResume
    dsimp only
    rw [State.half_at, ladder]
    dsimp only
    rw [State.operates_at, State.lane_at, if_neg (by simp [op, stage]; omega), if_pos ⟨paused, why⟩, if_neg (by simp [free, snap])]
  case asked =>
    intro mv few close
    obtain ⟨m, hm⟩ : ∃ m : Monitors, m = { (s.half h).mon with
      avsMv := mv, avsNacks := if acked then 0 else (s.half h).mon.avsNacks + 1, avsOffSince := none, avsFault := false } := ⟨_, rfl⟩
    have some' : ¬3 ≤ (if acked then 0 else (s.half h).mon.avsNacks + 1) := by
      rcases few with ok | few
      · rw [if_pos ok]
        omega
      · split <;> omega
    refine ⟨((s.at tm).emit (.avs h mv)).setMon h m, ?_, ?_, ?_⟩
    · change execAvsUpdate h acked rb tm s = _
      unfold execAvsUpdate
      dsimp only
      rw [State.half_at, State.operates_at, if_neg (by simp [op, ready, good]), close, decide_eq_false some', hm]
      rfl
    · rw [State.setMon, State.putHalf_out]
      rfl
    · rw [State.setMon, State.half_putHalf, State.half_emit, State.half_at, hm]
      exact ⟨rfl, rfl, rfl, rfl⟩
  case refused =>
    obtain ⟨u, hu⟩ : ∃ u : State, exec (.avsUpdate h false rb tm) s =
        .next ((u.monEventAt h (max 1 (u.half h).mon.stage) 4 0 0 0 0).setStage h (max 1 (u.half h).mon.stage)) ∧ (u.half h).mon.avsFault = true := by
      change ∃ u : State, execAvsUpdate h false rb tm s = _ ∧ _
      unfold execAvsUpdate
      dsimp only
      rw [State.half_at, State.operates_at, if_neg (by simp [op, ready, good]), if_neg Bool.false_ne_true,
        decide_eq_true (by omega : 3 ≤ (s.half h).mon.avsNacks + 1), Bool.true_or, if_pos rfl]
      refine ⟨_, rfl, ?_⟩
      rw [State.setMon, State.half_putHalf]
      rfl
    obtain ⟨acts, fault⟩ := hu
    obtain ⟨a, l, mon⟩ := (u.monEventAt h (max 1 (u.half h).mon.stage) 4 0 0 0 0).setStage_mon h (max 1 (u.half h).mon.stage)
    refine ⟨_, acts, ?_, ?_⟩
    · rw [mon, State.monEventAt, State.mon_event]
      exact fault
    · rw [mon]
      exact Nat.le_max_left ..
  case retried =>
    refine ⟨((s.at tm).emit (.avs h (s.half h).avsNext)).setMon h { (s.half h).mon with
      avsMv := (s.half h).avsNext, avsNacks := 0, avsOffSince := none, avsFault := !(acked && avsClose (s.half h).avsNext rb) }, ?_, ?_⟩
    · change execAvsRetry h acked rb tm s = _
      unfold execAvsRetry
      dsimp only
      rw [State.half_at, State.operates_at, if_neg (by simp [op, bad])]
    · rw [State.setMon, State.half_putHalf, State.putHalf_out]
      exact ⟨rfl, rfl, rfl⟩
  case droop =>
    refine ⟨(s.at tm).setMon h { (s.half h).mon with droops := (s.half h).mon.droops ++ [(rail, (s.at tm).time)] }, ?_, ?_⟩
    · change execDroopStart h rail tm s = _
      unfold execDroopStart
      rw [if_neg (by omega)]
      dsimp only
      rw [State.half_at, State.operates_at, if_neg (by simp [op, none'])]
    · rw [State.setMon, State.half_putHalf, State.putHalf_out, State.half_at]
      exact ⟨rfl, rfl, rfl⟩
  case recovered =>
    refine ⟨((s.at tm).setMon h { (s.half h).mon with droops := (s.half h).mon.droops.filter (fun p => decide (p.1 ≠ rail)) }).lifeAdd h
      (0x2C0 + 32 * rail + 4 * droopBin depth) 4 1, ?_, ?_⟩
    · change execDroopEnd h rail depth tm s = _
      unfold execDroopEnd
      rw [if_neg (by omega)]
      dsimp only
      rw [State.half_at, some']
      dsimp only
      rw [State.operates_at, if_neg (by simp [op]; omega)]
    · rw [State.lifeAdd, State.half_putHalf, State.setMon, State.half_putHalf, State.half_at, Half.readNat_lifeAdd]
      exact ⟨assoc_filter .., rfl⟩
  case trips =>
    have live : ((s.at tm).thermtrip || !(s.at tm).powered) = false := by
      change (s.thermtrip || !s.powered) = false
      rw [on, cool]
      rfl
    refine ⟨{ s.at tm with thermtrip := true, east := s.east.tripped, west := s.west.tripped }, ?_, rfl, ?_, fun h => ?_⟩
    · change execThermtrip tm s = _
      unfold execThermtrip
      dsimp only
      rw [if_neg (ne_true_of_eq_false live)]
      rfl
    · change (_ && !true) = false
      exact Bool.and_false _
    · cases h with
      | east => exact s.east.tripped_counts
      | west => exact s.west.tripped_counts
  case floor =>
    rw [State.ladder, State.stage_setStage, Half.nextStage_low _ low]
  case steps =>
    obtain ⟨up, down, soon, stays⟩ := Half.nextStage_free (H := s.half h) s.time sensors avs
    rw [State.ladder, State.stage_setStage]
    exact ⟨up, down, soon, stays⟩
  case second =>
    have keeps : ∀ {X : Type} (p : Half → X), (∀ (H : Half) l, p { H with life := { H.life with image := l } } = p H) → p (s.half h).lifeTick = p (s.half h) :=
      fun p hp => Half.lifeTick_keeps p hp _
    obtain ⟨K, hK⟩ : ∃ K, K = (s.half h).lifeTick := ⟨_, rfl⟩
    have next := keeps (fun H => H.life.nextS) fun _ _ => rfl
    refine ⟨(s.at tm).putHalf h { K with life := { K.life with
      seconds := K.life.seconds + 1, nextS := if K.life.nextS ≤ 1 then 600 else K.life.nextS - 1, due := K.life.due || decide (K.life.nextS ≤ 1) } }, ?_, ?_⟩
    · change execLifeSecond h tm s = _
      unfold execLifeSecond
      dsimp only
      rw [State.half_at, State.operates_at, if_neg (by simp [op]), hK]
      rfl
    · rw [State.half_putHalf, State.half_peer_putHalf, State.putHalf_out, hK]
      refine ⟨?_, (s.half h).lifeTick_seconds, fun last => ?_, keeps Half.lanes fun _ _ => rfl, rfl, State.half_at ..⟩
      · exact congrArg (· + 1) (keeps (fun H => H.life.seconds) fun _ _ => rfl)
      · change (_ || decide ((s.half h).lifeTick.life.nextS ≤ 1)) = true
        rw [decide_eq_true (by omega), Bool.or_true]
  case flush =>
    refine ⟨(s.at tm).flush h false, ?_, ?_⟩
    · change execLifetimeFlush h tm s = _
      unfold execLifetimeFlush
      dsimp only
      rw [State.half_at, State.operates_at, op, due]
      rfl
    · rw [State.flush, State.half_putHalf, State.half_peer_putHalf, State.half_at, State.half_at]
      obtain ⟨k, hk, mram⟩ := (s.half h).flush_mram h false
      exact ⟨rfl, rfl, rfl, ⟨k, hk, by rw [mram]; exact Sparse.get_set_same ..⟩, rfl, rfl⟩
  case off =>
    refine ⟨?_, ?_, ?_⟩
    · change execMonitorUpdate h 0 0 v tm s = _
      unfold execMonitorUpdate
      rw [if_neg (by decide)]
      dsimp only
      rw [State.operates_at, off]
      rfl
    · change execLifeSecond h tm s = _
      unfold execLifeSecond
      dsimp only
      rw [State.operates_at, off]
      rfl
    · change execLifetimeFlush h tm s = _
      unfold execLifetimeFlush
      dsimp only
      rw [State.operates_at, off]
      rfl
  case mirrored =>
    have apart := HalfId.peer_peer h
    refine ⟨(s.putHalf h { s.half h with life := { (s.half h).life with toMirror := none, mirrorOk := true } }).putHalf (HalfId.peer h)
      { s.half (HalfId.peer h) with life := { (s.half (HalfId.peer h)).life with
        mram := Sparse.set noImage (s.half (HalfId.peer h)).life.mram (2 + leAt b 8 8 % 2) (some b) } }, ?_, ?_⟩
    · change execMirrorWrite h true s = _
      unfold execMirrorWrite
      dsimp only
      rw [waits]
      dsimp only
      rw [up, if_pos (by rfl), State.half_peer_putHalf]
      rfl
    · rw [State.half_putHalf_peer, State.half_putHalf, State.half_putHalf]
      refine ⟨rfl, rfl, ?_⟩
      dsimp only
      rw [Sparse.get_set_same]
  case skipped =>
    refine ⟨s.putHalf h { s.half h with life := { (s.half h).life with toMirror := none, mirrorOk := false } }, ?_, ?_⟩
    · change execMirrorWrite h false s = _
      unfold execMirrorWrite
      dsimp only
      rw [waits]
      rfl
    · rw [State.half_putHalf, State.half_peer_putHalf]
      exact ⟨rfl, rfl, rfl⟩

end Sys2Proof.Machine
end

section
/-! PROOFS. What a tamper event, a grant and a lost PCIe function leave. -/
namespace Sys2Proof.Machine
open Sys2Proof

/-- Something of the device that neither the halves, nor the commands and their replies, nor what has left the block is part of. -/
def State.Outside {X : Type} (q : State → X) : Prop :=
  ∀ (s : State) e w o cs rs, q { s with east := e, west := w, out := o, cmds := cs, smReplies := rs } = q s
section
variable {X : Type} {q : State → X} (hq : State.Outside q)
include hq
theorem State.Outside.putHalf (s : State) (h : HalfId) (H : Half) : q (s.putHalf h H) = q s := by
  cases h
  · exact hq s H s.west s.out s.cmds s.smReplies
  · exact hq s s.east H s.out s.cmds s.smReplies
theorem State.Outside.emits (s : State) (l : List Out) : q (l.foldl State.emit s) = q s := by
  obtain ⟨o, e⟩ := State.emits_out_only l s
  rw [e]
  exact hq s s.east s.west o s.cmds s.smReplies
theorem State.Outside.event (s : State) (h : HalfId) (code lane frame data : Nat) : q (s.event h code lane frame data) = q s :=
  (hq.emits ..).trans (hq.putHalf ..)
theorem State.Outside.presEvent (s : State) (kind source left : Nat) : q (s.presEvent kind source left) = q s := by
  unfold State.presEvent
  split
  · exact hq.event ..
  · rfl
theorem State.Outside.dropCmd (s : State) (id : Nat) : q (s.dropCmd id) = q s := hq s s.east s.west s.out _ s.smReplies
theorem State.Outside.finish (s : State) (id status detail : Nat) (result : Bytes) : q (s.finish id status detail result) = q s := by
  unfold State.finish
  cases s.cmd id with
  | none => rfl
  | some c =>
    dsimp only
    split
    · rfl
    · cases c.src with
      | ring h k =>
        dsimp only
        split
        · exact hq.dropCmd ..
        · exact (hq _ (s.dropCmd id).east (s.dropCmd id).west (s.dropCmd id).out _ (s.dropCmd id).smReplies).trans (hq.dropCmd ..)
      | smbus => exact (hq (s.dropCmd id) s.east s.west s.out (s.dropCmd id).cmds _).trans (hq.dropCmd ..)
      | control h => exact (hq.emits ..).trans ((hq.putHalf ..).trans (hq.dropCmd ..))
theorem State.Outside.chargeCount (s : State) (off : Nat) : q (s.chargeCount off) = q s := by
  unfold State.chargeCount
  split
  · exact hq.putHalf ..
  · rfl
theorem State.Outside.chargeDue (s : State) : q s.chargeDue = q s := by
  unfold State.chargeDue
  split
  · exact hq.putHalf ..
  · rfl
/-- Something that is no part of physical presence either. -/
theorem State.Outside.tamper (free : ∀ (s : State) p, q { s with presence := p } = q s) (s : State) : q s.tamper = q s := by
  unfold State.tamper
  split
  · rfl
  · dsimp only
    rw [foldl_keeps q fun t id => hq.finish t id stLockdown 0 []]
    refine (hq _ _ _ (State.out _) (State.cmds _) (State.smReplies _)).trans ((hq.chargeDue _).trans ((hq.chargeCount ..).trans ?_))
    split
    · exact (hq.presEvent ..).trans (free ..)
    · exact free ..
theorem State.Outside.endGrant (free : ∀ (s : State) p, q { s with presence := p } = q s) (s : State) (kind : Nat) : q (s.endGrant kind) = q s := by
  unfold State.endGrant
  split
  · rfl
  · dsimp only
    split
    · exact (hq.tamper free _).trans ((hq.presEvent ..).trans (free ..))
    · exact (hq.presEvent ..).trans (free ..)
theorem State.Outside.grantAction (free : ∀ (s : State) p, q { s with presence := p } = q s) (s : State) (source : Nat) : q (s.grantAction source) = q s := by
  unfold State.grantAction
  extract_lets u
  have ended : q u = q s := by
    unfold u
    split
    · exact hq.endGrant free ..
    · rfl
  split
  · exact ended
  · split
    · split
      · exact ended
      · exact (hq.presEvent ..).trans ((free ..).trans ended)
    · exact (hq.presEvent ..).trans ((hq.chargeCount ..).trans ((free ..).trans ended))
end

theorem State.half_presence (s : State) (x : Presence) (k : HalfId) : ({ s with presence := x } : State).half k = s.half k := by cases k <;> rfl
/-- Something of a half that its network side, its event ring, its lifetime record and its flash are no part of. -/
def Half.Inside {X : Type} (p : Half → X) : Prop := ∀ (H : Half) n e l f, p { H with net := n, ev := e, life := l, fw := f } = p H
section
variable {X : Type} {p : Half → X} (hp : Half.Inside p)
include hp
theorem Half.Inside.event (s : State) (h : HalfId) (code lane frame data : Nat) (k : HalfId) : p ((s.event h code lane frame data).half k) = p (s.half k) := by
  obtain ⟨c, e, only⟩ := s.event_half h k code lane frame data
  rw [only]
  exact hp (s.half k) { (s.half k).net with control := c } e (s.half k).life (s.half k).fw
theorem Half.Inside.presEvent (s : State) (kind source left : Nat) (k : HalfId) : p ((s.presEvent kind source left).half k) = p (s.half k) := by
  unfold State.presEvent
  split
  · exact hp.event ..
  · rfl
theorem Half.Inside.life (s : State) (h : HalfId) (l : Lifetime) (k : HalfId) : p ((s.putHalf h { s.half h with life := l }).half k) = p (s.half k) :=
  State.half_putHalf_of p (hp (s.half h) (s.half h).net (s.half h).ev l (s.half h).fw) k
theorem Half.Inside.chargeCount (s : State) (off : Nat) (k : HalfId) : p ((s.chargeCount off).half k) = p (s.half k) := by
  unfold State.chargeCount
  split
  · exact hp.life ..
  · rfl
theorem Half.Inside.chargeDue (s : State) (k : HalfId) : p (s.chargeDue.half k) = p (s.half k) := by
  unfold State.chargeDue
  split
  · exact hp.life ..
  · rfl
theorem Half.Inside.finish (s : State) (id status detail : Nat) (result : Bytes) (k : HalfId) : p ((s.finish id status detail result).half k) = p (s.half k) :=
  s.finish_keeps p (fun H n e => hp H n e H.life H.fw) id status detail result k
theorem Half.Inside.tamper (s : State) (k : HalfId) : p (s.tamper.half k) = p (s.half k) := by
  unfold State.tamper
  split
  · rfl
  · extract_lets src was a b c lock d
    have told : p (b.half k) = p (s.half k) := by
      unfold b
      split
      · exact hp.presEvent ..
      · rfl
    have locked : p (d.half k) = p (c.half k) := by
      cases k with
      | east => exact hp c.east c.east.net c.east.ev c.east.life _
      | west => exact hp c.west c.west.net c.west.ev c.west.life _
    calc p (State.half (List.foldl _ d _) k) = p (d.half k) := foldl_keeps (fun t : State => p (t.half k)) (fun t id => hp.finish t id stLockdown 0 [] k) ..
      _ = p (c.half k) := locked
      _ = p ((b.chargeCount 0x30).half k) := hp.chargeDue ..
      _ = p (b.half k) := hp.chargeCount ..
      _ = p (s.half k) := told
theorem Half.Inside.endGrant (s : State) (kind : Nat) (k : HalfId) : p ((s.endGrant kind).half k) = p (s.half k) := by
  unfold State.endGrant
  split
  · rfl
  · dsimp only
    split
    · exact (hp.tamper ..).trans (hp.presEvent ..)
    · exact hp.presEvent ..
theorem Half.Inside.grantAction (s : State) (source : Nat) (k : HalfId) : p ((s.grantAction source).half k) = p (s.half k) := by
  unfold State.grantAction
  extract_lets u
  have ended : p (u.half k) = p (s.half k) := by
    unfold u
    split
    · exact hp.endGrant ..
    · rfl
  split
  · exact ended
  · split
    · split
      · exact ended
      · exact (hp.presEvent ..).trans ((congrArg p (State.half_presence ..)).trans ended)
    · exact (hp.presEvent ..).trans ((hp.chargeCount ..).trans ((congrArg p (State.half_presence ..)).trans ended))
end

/-! The buffer of a drain given up. -/
theorem foldl_keeps_mem {α β γ : Type} (p : β → γ) {f : β → α → β} {l : List α} (h : ∀ b, ∀ a ∈ l, p (f b a) = p b) (b : β) : p (l.foldl f b) = p b := by
  induction l generalizing b with
  | nil => rfl
  | cons a l ih => exact (ih (fun b x hx => h b x (List.mem_cons_of_mem a hx)) (f b a)).trans (h b a List.mem_cons_self)
/-- It touches the lanes of the half and its drain only (R508). -/
theorem State.giveUpBuffer_keeps {X : Type} (p : Half → X) (keeps : ∀ (H : Half) ls d, p { H with lanes := ls, drain := d } = p H) (s : State) (h k : HalfId) :
    p ((s.giveUpBuffer h).half k) = p (s.half k) := by
  unfold State.giveUpBuffer
  dsimp only
  split
  · rfl
  · refine (foldl_keeps (fun t : State => p (t.half k)) (fun t l => ?_) ..).trans ?_
    · exact State.half_putHalf_of p (keeps (t.half (halfOf l)) (Sparse.set laneNone (t.half (halfOf l)).lanes (l % 128) _) (t.half (halfOf l)).drain) k
    · exact State.half_putHalf_of p (keeps (s.half h) (s.half h).lanes _) k
theorem State.half_peer_giveUpBuffer {s : State} {h : HalfId} (own : ∀ l ∈ (s.half h).drain.lanes, halfOf l = h) :
    (s.giveUpBuffer h).half (HalfId.peer h) = s.half (HalfId.peer h) := by
  unfold State.giveUpBuffer
  dsimp only
  split
  · rfl
  · refine (foldl_keeps_mem (fun t : State => t.half (HalfId.peer h)) (fun t l hl => ?_) _).trans ?_
    · rw [State.putLane, own l hl, State.half_peer_putHalf]
    · exact State.half_peer_putHalf ..

end Sys2Proof.Machine
end

section
/-! PROOFS. Power, reset and boot. -/
namespace Sys2Proof.Machine
open Sys2Proof

theorem State.half_device (s : State) (e w : Half) (h : HalfId) : (s.device e w).half h = match h with | .east => e | .west => w := by
  cases h <;> rfl
/-- A lockdown that the jumper lifts leaves the halves but for their flash and what an event touches (R532). -/
theorem State.unlockdown_half {X : Type} {p : Half → X} (keeps : ∀ (H : Half) n e f, p { H with net := n, ev := e, fw := f } = p H) (s : State) (h : HalfId) :
    p (s.unlockdown.half h) = p (s.half h) := by
  unfold State.unlockdown
  extract_lets free
  have freed : ∀ H, p (free H) = p H := fun H => keeps H H.net H.ev _
  have halves : ∀ t : State, t.east = free s.east → t.west = free s.west → p (t.half h) = p (s.half h) := fun t east west => by
    cases h
    · exact (congrArg p east).trans (freed _)
    · exact (congrArg p west).trans (freed _)
  unfold State.presEvent
  split
  · next g _ =>
    obtain ⟨c, e, only⟩ := State.event_half _ g h 0x000C 0xFFFF 0 _
    rw [only]
    exact (keeps _ _ _ (Half.fw _)).trans (halves _ rfl rfl)
  · exact halves _ rfl rfl
theorem State.unlockdown_outside (s : State) : s.unlockdown.powered = s.powered ∧ s.unlockdown.thermtrip = s.thermtrip ∧ s.unlockdown.ready = s.ready ∧
    s.unlockdown.time = s.time ∧ s.unlockdown.cmds = s.cmds := by
  have cmds : ∀ t : State, (t.presEvent 6 0 0).cmds = t.cmds := fun t => by
    unfold State.presEvent
    split
    · exact State.cmds_event ..
    · rfl
  refine ⟨?_, ?_, ?_, ?_, cmds _⟩
  · exact State.Outside.presEvent (q := State.powered) (fun _ _ _ _ _ _ => rfl) ..
  · exact State.Outside.presEvent (q := State.thermtrip) (fun _ _ _ _ _ _ => rfl) ..
  · exact State.Outside.presEvent (q := State.ready) (fun _ _ _ _ _ _ => rfl) ..
  · exact State.Outside.presEvent (q := State.time) (fun _ _ _ _ _ _ => rfl) ..

/-- A half whose boot has failed (R503). -/
theorem State.half_failBoot (s : State) (h : HalfId) (err : Nat) : (s.failBoot h err).half h =
    ((s.half h).heldInReset h).setBoot { (s.half h).boot with failed := true, err := err, running := false } := by
  rw [State.failBoot, State.half_noteDown, State.half_putHalf]

/-- A lost PCIe function: its queue pairs and its event ring are in their reset state (R418, R498). -/
theorem State.lostFunction (s : State) (h : HalfId) : (∀ q, (((s.resetFunction h).giveUpBuffer h).half h).qp q = qpReset q) ∧
    (((s.resetFunction h).giveUpBuffer h).half h).ev.en = false := by
  have qps := State.giveUpBuffer_keeps Half.qps (fun _ _ _ => rfl) (s.resetFunction h) h h
  have ev := State.giveUpBuffer_keeps Half.ev (fun _ _ _ => rfl) (s.resetFunction h) h h
  have half : ((s.resetFunction h).half h).qps = [] ∧ ((s.resetFunction h).half h).ev.en = false := by
    rw [State.resetFunction, State.half_discardReplies, State.half_putHalf]
    exact ⟨rfl, rfl⟩
  refine ⟨fun q => ?_, by rw [ev]; exact half.2⟩
  rw [Half.qp, qps, half.1]
  rfl
theorem State.half_peer_lostFunction {s : State} {h : HalfId} (own : ∀ l ∈ (s.half h).drain.lanes, halfOf l = h) :
    ((s.resetFunction h).giveUpBuffer h).half (HalfId.peer h) = s.half (HalfId.peer h) := by
  have drain : ((s.resetFunction h).half h).drain = (s.half h).drain := by
    rw [State.resetFunction, State.half_discardReplies, State.half_putHalf]
  rw [State.half_peer_giveUpBuffer (by rw [drain]; exact own), State.resetFunction, State.half_discardReplies, State.half_peer_putHalf]

/-- Every sub-port of a port whose clock is missing is down (R497). -/
theorem Half.portDown (H : Half) {k : Nat} (hk : k < 4) : (((List.range 4).foldl (fun (H : Half) k => H.putSub k { H.sub k with up := false }) H).sub k).up = false := by
  refine foldl_reaches (fun _ => ()) (fun _ _ => rfl) (Q := fun (H : Half) => (H.sub k).up = false) (fun K j down => ?_) (List.mem_range.mpr hk) (fun K _ => ?_)
  · by_cases own : k = j
    · rw [own, Half.sub_putSub]
    · exact (congrArg SubPort.up (Sparse.get_set_other subPortReset K.net.subs j k _ own)).trans down
  · rw [Half.sub_putSub]

/-! Stages of boot that end as they should (R501). -/
theorem State.endStage_last {s : State} {h : HalfId} (full : Bool) (last : (s.half h).boot.stage = 8) : ((s.endStage h full).half h).boot.ready = true := by
  unfold State.endStage
  simp only [last, State.half_putHalf]
  rfl
/-- A stage whose work leaves the boot passes to the next. -/
theorem State.endStage_next {s : State} {h : HalfId} (full : Bool) (fresh : (s.half h).boot.ready = false)
    (plain : (s.half h).boot.stage = 0 ∨ (s.half h).boot.stage = 2 ∨ (s.half h).boot.stage = 4 ∨ (s.half h).boot.stage = 7) :
    ((s.endStage h full).half h).boot.stage = (s.half h).boot.stage + 1 ∧ ((s.endStage h full).half h).boot.ready = false := by
  unfold State.endStage
  rcases plain with k | k | k | k
  all_goals
    simp only [k, State.half_putHalf]
    exact ⟨rfl, fresh⟩
/-- The processor listens from the start of stage 5 (R469). -/
theorem State.endStage_listens {s : State} {h : HalfId} (full : Bool) (four : (s.half h).boot.stage = 4) :
    ((s.endStage h full).half h).auth.role = .starting ∧ ((s.endStage h full).half h).auth.claimUntil = s.time + 20000 := by
  unfold State.endStage
  simp only [four, State.half_putHalf, State.putHalf_time]
  exact ⟨rfl, rfl⟩

/-- Settles O50. -/
theorem resetAndBoot : Obligations.ResetAndBoot := by
  unfold Obligations.ResetAndBoot
  refine ⟨fun pins tm s gone => ?stuck, fun pins tm s off clock => ?rise, fun s on => ⟨s.powerDown, if_pos on, rfl, rfl, rfl, fun h => ?fall⟩,
    fun tm s on free => ?assert, fun pins tm s held => ?release, fun h e tm s runs up boots fresh low high => ?failed,
    fun h tm s runs up boots fresh waits => ?waits, fun h tm s runs up boots fresh low high new => ?ports, fun h tm s runs up boots fresh may => ?ends,
    fun h tm s charge new runs ready peer => ?ready, fun h s => ?perst, fun h tm s => ?released, fun s on => ⟨s.powerDown, if_pos on, rfl⟩,
    fun h s => ⟨?eth, ?pcie⟩⟩
  case stuck =>
    change execPwrgdRise pins tm s = _
    unfold execPwrgdRise
    dsimp only
    rw [if_pos (by rw [gone, Bool.or_true])]
    rfl
  case rise =>
    have goes : ((s.at tm).powered || pins.missing.contains .aon) = false := by
      change (s.powered || pins.missing.contains .aon) = false
      rw [off, clock]
      rfl
    obtain ⟨u, c, acts, device, halves⟩ : ∃ (u : State) (c : Bool), exec (.pwrgdRise pins tm) s = .next (if c then u.unlockdown else u) ∧
        (u.powered = true ∧ u.thermtrip = false ∧ u.ready = false ∧ u.time = 0 ∧ u.cmds = []) ∧
        ∀ h, (u.half h).lanes = [] ∧ (u.half h).boot.stage = 0 ∧ (u.half h).boot.por = true ∧ (u.half h).boot.ready = false ∧
          (u.half h).boot.ethClk = !pins.missing.contains (.eth h) ∧ (u.half h).boot.pcieClk = !pins.missing.contains (.pcie h) ∧
          (u.half h).life.mram = (s.half h).life.mram := by
      refine ⟨_, _, if_neg (ne_true_of_eq_false goes), ⟨rfl, rfl, rfl, rfl, rfl⟩, fun h => ?_⟩
      cases h <;> exact ⟨rfl, rfl, rfl, rfl, rfl, rfl, rfl⟩
    refine ⟨_, acts, ?_⟩
    split
    · obtain ⟨powered, trip, ready, time, cmds⟩ := u.unlockdown_outside
      rw [powered, trip, ready, time, cmds]
      refine ⟨device.1, device.2.1, device.2.2.1, device.2.2.2.1, device.2.2.2.2, fun h => ?_⟩
      rw [State.unlockdown_half (p := Half.lanes) fun _ _ _ _ => rfl, State.unlockdown_half (p := Half.boot) fun _ _ _ _ => rfl,
        State.unlockdown_half (p := Half.life) fun _ _ _ _ => rfl]
      exact halves h
    · exact ⟨device.1, device.2.1, device.2.2.1, device.2.2.2.1, device.2.2.2.2, halves⟩
  case fall => cases h <;> exact ⟨rfl, rfl, rfl⟩
  case assert =>
    have goes : (!(s.at tm).powered || (s.at tm).inReset) = false := by
      change (!s.powered || s.inReset) = false
      rw [on, free]
      rfl
    refine ⟨_, if_neg (ne_true_of_eq_false goes), rfl, rfl, rfl, fun h => ?_⟩
    cases h <;> exact ⟨rfl, rfl, rfl⟩
  case release =>
    have goes : (!(s.at tm).inReset) = false := by
      change (!s.inReset) = false
      rw [held]
      rfl
    refine ⟨_, if_neg (ne_true_of_eq_false goes), rfl, rfl, rfl, fun h => ?_⟩
    cases h <;> exact ⟨rfl, rfl, rfl, rfl, rfl⟩
  case failed =>
    refine ⟨(s.at tm).failBoot h e, ?_, ?_⟩
    · change execBootStageComplete h (.failed e) tm s = _
      unfold execBootStageComplete
      dsimp only
      rw [State.half_at, up, boots, fresh, if_neg (by rw [show (s.at tm).runs = true from runs]; decide), if_pos ⟨low, high⟩]
    · rw [State.half_failBoot, State.half_at]
      exact ⟨rfl, rfl, rfl, rfl, rfl, rfl⟩
  case waits =>
    change execBootStageComplete h .done tm s = _
    unfold execBootStageComplete
    dsimp only
    rw [State.half_at, up, boots, fresh, if_neg (by rw [show (s.at tm).runs = true from runs]; decide), waits]
    rfl
  case ports =>
    refine ⟨(s.at tm).putHalf h ((s.half h).loadSettings.setBoot { (s.half h).boot with ports := true }), ?_, ?_⟩
    · change execBootStageComplete h .ports tm s = _
      unfold execBootStageComplete
      dsimp only
      rw [State.half_at, if_neg (by simp [show (s.at tm).runs = true from runs, up, boots, fresh]), if_pos ⟨low, high, new⟩]
    · rw [State.half_putHalf]
      exact ⟨rfl, rfl, rfl, rfl⟩
  case ends =>
    have on : (s.at tm).runs = true := runs
    have acts : ∀ full, exec (.bootStageComplete h (.slots full) tm) s = .next ((s.at tm).endStage h full) := fun full => by
      change execBootStageComplete h (.slots full) tm s = _
      unfold execBootStageComplete
      dsimp only
      rw [State.half_at, if_neg (by simp [on, up, boots, fresh]), if_pos may]
    have same : ((s.at tm).half h).boot.stage = (s.half h).boot.stage := by rw [State.half_at]
    refine ⟨?_, acts, fun last => ?_, fun plain => ?_, fun four => ?_⟩
    · change execBootStageComplete h .done tm s = _
      unfold execBootStageComplete
      dsimp only
      rw [State.half_at, if_neg (by simp [on, up, boots, fresh]), if_pos may]
    · exact State.endStage_last false (same.trans last)
    · rw [← same] at plain ⊢
      exact State.endStage_next false (by rw [State.half_at]; exact fresh) plain
    · exact State.endStage_listens false (same.trans four)
  case ready =>
    have goes : ∀ late : Nat, ((s.at tm).ready || !(s.at tm).runs || !((s.at tm).half h).boot.ready ||
        !(((s.at tm).half (HalfId.peer h)).boot.ready || ((s.at tm).half (HalfId.peer h)).boot.failed ||
          decide (((s.at tm).half h).boot.since + late ≤ (s.at tm).time))) = false := fun late => by
      rw [State.half_at, State.half_at, ready, peer, show (s.at tm).ready = false from new, show (s.at tm).runs = true from runs]
      rfl
    obtain ⟨u, hu⟩ : ∃ u : State, u = { s.at tm with ready := true } := ⟨_, rfl⟩
    have half : u.half h = s.half h := by rw [hu]; cases h <;> rfl
    have on : u.ready = true := by rw [hu]
    have opened : (u.grantAction 2).ready = true ∧ ((u.grantAction 2).half h).lanes = (s.half h).lanes := by
      rw [State.Outside.grantAction (q := State.ready) (fun _ _ _ _ _ _ => rfl) (fun _ _ => rfl), Half.Inside.grantAction (p := Half.lanes) (fun _ _ _ _ _ => rfl), half]
      exact ⟨on, rfl⟩
    change ∃ t, execDeviceReady tm s = .next t ∧ _
    unfold execDeviceReady
    dsimp only
    rw [show (s.at tm).inCharge = some h from charge]
    dsimp only
    rw [if_neg (ne_true_of_eq_false (goes _)), ← hu]
    refine ⟨_, rfl, ?_⟩
    split
    · exact opened
    · exact ⟨on, congrArg Half.lanes half⟩
  case perst =>
    obtain ⟨qps, ev⟩ := s.lostFunction h
    obtain ⟨t, ht⟩ : ∃ t, t = (s.resetFunction h).giveUpBuffer h := ⟨_, rfl⟩
    refine ⟨t.putHalf h { t.half h with boot := { (t.half h).boot with perstHeld := true } }, by rw [ht]; rfl, ?_⟩
    rw [State.half_putHalf, State.half_peer_putHalf, ht]
    exact ⟨rfl, qps, ev, State.half_peer_lostFunction⟩
  case released =>
    refine ⟨_, rfl, ?_⟩
    rw [State.half_putHalf, State.half_peer_putHalf, State.half_at, State.half_at]
    exact ⟨rfl, rfl, rfl, rfl⟩
  case eth =>
    obtain ⟨K, hK⟩ : ∃ K, K = (List.range 4).foldl (fun H k => H.putSub k { H.sub k with up := false }) (s.half h) := ⟨_, rfl⟩
    refine ⟨s.putHalf h { K with boot := { K.boot with ethClk := false } }, by rw [hK]; rfl, ?_⟩
    rw [State.half_putHalf, State.half_peer_putHalf]
    refine ⟨rfl, fun k hk => ?_, ?_, rfl⟩
    · change (K.sub k).up = false
      rw [hK]
      exact (s.half h).portDown hk
    · change K.lanes = _
      rw [hK]
      exact foldl_keeps Half.lanes (f := fun H k => H.putSub k { H.sub k with up := false }) (fun _ _ => rfl) ..
  case pcie =>
    obtain ⟨qps, _⟩ := s.lostFunction h
    obtain ⟨t, ht⟩ : ∃ t, t = (s.resetFunction h).giveUpBuffer h := ⟨_, rfl⟩
    refine ⟨t.putHalf h { t.half h with boot := { (t.half h).boot with pcieClk := false } }, by rw [ht]; rfl, ?_⟩
    rw [State.half_putHalf, ht]
    exact ⟨rfl, qps⟩

end Sys2Proof.Machine
end

section
/-! PROOFS. Drain and firmware. -/
namespace Sys2Proof.Machine
open Sys2Proof

/-! Fields of a byte string that is put together from its fields. -/
theorem leAt_field {x : Bytes} {o : Nat} (len : x.length = o) (n v : Nat) (y : Bytes) : leAt (x ++ (leBytes n v ++ y)) o n = v % 256 ^ n := by
  have skip : slice (x ++ (leBytes n v ++ y)) o n = slice (leBytes n v ++ y) 0 n := by
    rw [slice, slice, ← len, List.drop_left, List.drop_zero]
  rw [leAt, skip, slice_append_left (length_leBytes n v), leNat_leBytes]

/-! The digest has 48 bytes. -/
theorem length_shaRound (s : List Nat) (kw : Nat × Nat) (len : s.length = 8) : (shaRound s kw).length = 8 := by
  unfold shaRound
  split
  · rfl
  · exact len
theorem length_shaRounds (l : List (Nat × Nat)) (s : List Nat) (len : s.length = 8) : (l.foldl shaRound s).length = 8 := by
  induction l generalizing s with
  | nil => exact len
  | cons a l ih => exact ih _ (length_shaRound s a len)
theorem length_shaBlocks (n : Nat) (s : List Nat) (b : Bytes) (len : s.length = 8) : (shaBlocks n s b).length = 8 := by
  induction n generalizing s b with
  | zero => exact len
  | succ n ih =>
    refine ih _ _ ?_
    rw [shaBlock, List.length_zipWith, length_shaRounds _ _ len, len, Nat.min_self]
theorem length_shaInit : shaInit.length = 8 := by
  rw [shaInit, List.length_map]
  decide
theorem length_flatMap_beBytes (n : Nat) (l : List Nat) : (l.flatMap (beBytes n)).length = l.length * n := by
  induction l with
  | nil => rw [List.flatMap_nil, List.length_nil, List.length_nil, Nat.zero_mul]
  | cons a l ih => rw [List.flatMap_cons, List.length_append, ih, beBytes, List.length_reverse, length_leBytes, List.length_cons, Nat.succ_mul, Nat.add_comm]
theorem length_sha384 (b : Bytes) : (sha384 b).length = 48 := by
  rw [sha384, length_flatMap_beBytes, List.length_take, length_shaBlocks _ _ _ length_shaInit]
  rfl

/-! Components of the flash. -/
theorem Firmware.comp_putComp (f : Firmware) (k : Nat) (c : Component) : (f.putComp k c).comp k = c := by
  unfold putComp
  split
  · next same => exact same
  · exact Sparse.get_set_same ..
theorem Component.slot_putSlot (c : Component) (i : Nat) (x : Slot) : (c.putSlot i x).slot i = x := by
  unfold putSlot slot
  split <;> rfl
theorem Component.active_putSlot (c : Component) (i : Nat) (x : Slot) : (c.putSlot i x).active = c.active := by
  unfold putSlot
  split <;> rfl

/-- The image of new training tables (R523): its fields and its body. -/
theorem trainingImage (version compat : Nat) (hv : version < 2 ^ 32) (body : Bytes) (small : body.length < 2 ^ 32) :
    let a := "DNFWIMG1".toList.map (fun c => BitVec.ofNat 8 c.toNat) ++ leBytes 2 0x0256 ++ leBytes 1 0xA1 ++ leBytes 1 5 ++ leBytes 4 version ++
      leBytes 2 compat ++ leBytes 1 1 ++ leBytes 1 0 ++ leBytes 4 body.length ++ leBytes 2 0 ++ leBytes 1 0 ++ List.replicate 5 0
    let hd := a ++ sha384 (a ++ body)
    let b := hd ++ leBytes 4 (crc32 hd) ++ List.replicate 172 0 ++ body
    b.drop 256 = body ∧ imgVersion b = version ∧ imgSigner b = 0 ∧ imgLength b = body.length := by
  intro a hd b
  obtain ⟨m, hm⟩ : ∃ m, m = "DNFWIMG1".toList.map (fun c => BitVec.ofNat 8 c.toNat) ++ leBytes 2 0x0256 ++ leBytes 1 0xA1 ++ leBytes 1 5 := ⟨_, rfl⟩
  have lenM : m.length = 12 := by
    rw [hm]
    simp only [List.length_append, length_leBytes, List.length_map]
    decide
  have lenA : a.length = 32 := by
    have : a = m ++ leBytes 4 version ++ leBytes 2 compat ++ leBytes 1 1 ++ leBytes 1 0 ++ leBytes 4 body.length ++ leBytes 2 0 ++ leBytes 1 0 ++ List.replicate 5 0 := by
      rw [hm]
    rw [this]
    simp only [List.length_append, length_leBytes, List.length_replicate, lenM]
  have lenHead : (hd ++ leBytes 4 (crc32 hd) ++ List.replicate 172 0).length = 256 := by
    rw [List.length_append, List.length_append, List.length_append, lenA, length_sha384, length_leBytes, List.length_replicate]
  obtain ⟨r, hr⟩ : ∃ r, r = leBytes 2 0 ++ (leBytes 1 0 ++ (List.replicate 5 0 ++ (sha384 (a ++ body) ++ (leBytes 4 (crc32 hd) ++ (List.replicate 172 0 ++ body))))) := ⟨_, rfl⟩
  have fields : b = m ++ (leBytes 4 version ++ (leBytes 2 compat ++ (leBytes 1 1 ++ (leBytes 1 0 ++ (leBytes 4 body.length ++ r))))) := by
    rw [hm, hr]
    simp only [b, hd, a, List.append_assoc]
  have lenS : (m ++ (leBytes 4 version ++ (leBytes 2 compat ++ leBytes 1 1))).length = 0x13 := by
    simp only [List.length_append, length_leBytes, lenM]
  have lenL : (m ++ (leBytes 4 version ++ (leBytes 2 compat ++ (leBytes 1 1 ++ leBytes 1 0)))).length = 0x14 := by
    simp only [List.length_append, length_leBytes, lenM]
  refine ⟨List.drop_left' lenHead, ?_, ?_, ?_⟩
  · rw [imgVersion, fields, leAt_field lenM]
    exact Nat.mod_eq_of_lt hv
  · have signer := leAt_field lenS 1 0 (leBytes 4 body.length ++ r)
    simp only [List.append_assoc] at signer
    rw [imgSigner, fields]
    exact signer.trans (Nat.mod_eq_of_lt (by decide))
  · have size := leAt_field lenL 4 body.length r
    simp only [List.append_assoc] at size
    rw [imgLength, fields, size]
    exact Nat.mod_eq_of_lt small

/-- The state in which a device that has drained is safe (R512). -/
theorem execSafe_acts {h : HalfId} {tm : Nat} {s : State} (charge : s.inCharge = some h) (on : s.runs = true) (own : (s.half h).drainPhase = 3)
    (peer : (s.half (HalfId.peer h)).drainPhase = 3) :
    ∃ u : State, exec (.safe tm) s = .next (({ u with safe := true } : State).drainEvent h 7 0xFFFF (s.east.drain.written + s.west.drain.written)) ∧
      (u.half h).drain.state = 4 ∧ (u.half h).life.gen = (s.half h).life.gen + 1 := by
  change ∃ u : State, execSafe tm s = _ ∧ _
  unfold execSafe
  dsimp only
  rw [show (s.at tm).inCharge = some h from charge]
  dsimp only
  rw [State.half_at, State.half_at, if_neg (by simp [show (s.at tm).runs = true from on, own, peer])]
  refine ⟨_, rfl, ?_⟩
  split
  · rw [State.half_putHalf_peer, State.half_putHalf]
    exact ⟨rfl, rfl⟩
  · rw [State.half_putHalf]
    exact ⟨rfl, rfl⟩

/-- Settles O51: what each event does, from the state in which it acts. -/
theorem drainAndFirmware : Obligations.DrainAndFirmware := by
  unfold Obligations.DrainAndFirmware
  refine ⟨fun h tm s on serves pin charge idle => ?eject, fun h tm s on drains idle => ?notice, fun l tm s hl => ?write,
    fun h tm s charge begun none' still late => ?timeout, fun h tm s charge on own peer => ?safe, fun h tm s on serves ready => ?copy,
    fun h tm s on serves ready trial left => ⟨fun role => ?pass, fun role => ?restart⟩, fun h t0 tm s begun on late => ?timeoutOfRestart,
    fun h v body tm s on serves ready due fits => ?tables⟩
  case eject =>
    change execEject h tm s = _
    unfold execEject
    dsimp only
    rw [State.half_at, if_neg (by simp [show (s.at tm).runs = true from on, serves, pin]), show (s.at tm).inCharge = some h from charge]
    dsimp only
    rw [State.half_at, if_neg (by simp [idle])]
  case notice =>
    intro d busy u
    change execDrainNotice h tm s = _
    unfold execDrainNotice
    dsimp only
    rw [State.half_at, State.half_at, if_neg (by simp [show (s.at tm).runs = true from on, drains, idle, d, busy])]
  case write =>
    intro d busy own frozen
    have own' : l ∈ (s.half (halfOf l)).drain.lanes := List.contains_iff_mem.mp own
    have acts (t : State) (e : execImageWriteOut l tm s = .next t) : exec (.imageWriteOut l tm) s = .next t := e
    unfold execImageWriteOut at acts
    dsimp only at acts
    rw [if_neg (Nat.not_le.mpr hl), State.half_at, State.lane_at, if_neg (by simp [d, busy, own', frozen])] at acts
    refine ⟨fun lost => acts _ ?_, fun z b kept snap made up buf fits => acts _ ?_, fun z b kept snap made up buf full => acts _ ?_⟩
    · rw [if_pos lost]
    · rw [if_neg (by simp [show (s.half (halfOf l)).drain.buffersOver = false from kept]), snap]
      dsimp only
      rw [made]
      dsimp only
      rw [State.pfUp_at, if_neg (by simp [up]), if_neg (by simp [show (s.half (halfOf l)).drain.buf = true from buf]), if_neg (Nat.not_lt.mpr fits)]
    · rw [if_neg (by simp [show (s.half (halfOf l)).drain.buffersOver = false from kept]), snap]
      dsimp only
      rw [made]
      dsimp only
      rw [State.pfUp_at, if_neg (by simp [up]), if_neg (by simp [show (s.half (halfOf l)).drain.buf = true from buf]), if_pos full]
  case timeout =>
    intro waited
    change execDrainBufferTimeout tm s = _
    unfold execDrainBufferTimeout
    dsimp only
    rw [show (s.at tm).inCharge = some h from charge]
    dsimp only
    rw [State.half_at, if_neg (by simp [begun, none', still, late])]
  case safe =>
    obtain ⟨u, acts, state, gen⟩ := execSafe_acts (tm := tm) charge on own peer
    obtain ⟨c, e, only⟩ := State.event_half { u with safe := true } h h 0x000B 0xFFFF 0 (7 + min (s.east.drain.written + s.west.drain.written) 65535 * 2 ^ 16)
    rw [show ({ u with safe := true } : State).half h = u.half h by cases h <;> rfl] at only
    refine ⟨_, acts, ?_, ?_, ?_⟩
    · exact State.Outside.event (q := State.safe) (fun _ _ _ _ _ _ => rfl) ..
    · exact (congrArg (fun H => H.drain.state) only).trans state
    · exact (congrArg (fun H => H.life.gen) only).trans gen
  case copy =>
    intro F due waits b
    change ∃ t, execFwCopy h tm s = .next t ∧ _
    unfold execFwCopy
    dsimp only
    rw [State.half_at, if_neg (by simp [show (s.at tm).runs = true from on, serves, ready, due, waits, F])]
    refine ⟨_, rfl, ?_⟩
    rw [State.half_putHalf]
    let c := F.comp F.waiting
    have put (x : Slot) := F.comp_putComp F.waiting (c.putSlot c.other x)
    refine ⟨rfl, rfl, (congrArg (fun c' : Component => (c'.slot c.other).state) (put _)).trans ?_,
      (congrArg (fun c' : Component => (c'.slot c.other).image) (put _)).trans ?_, (congrArg Component.active (put _)).trans (c.active_putSlot ..), rfl,
      State.putHalf_out ..⟩
    · rw [Component.slot_putSlot]
    · rw [Component.slot_putSlot]
  case pass =>
    change ∃ t, execTrialRestart h tm s = .next t ∧ _
    unfold execTrialRestart
    dsimp only
    rw [State.half_at, if_neg (by simp [show (s.at tm).runs = true from on, serves, ready, left]; omega), if_pos role]
    refine ⟨_, rfl, ?_⟩
    rw [State.half_putHalf]
    exact ⟨rfl, rfl, rfl⟩
  case restart =>
    change ∃ t, execTrialRestart h tm s = .next t ∧ _
    unfold execTrialRestart
    dsimp only
    rw [State.half_at, if_neg (by simp [show (s.at tm).runs = true from on, serves, ready, left]; omega), if_neg role]
    refine ⟨_, rfl, ?_⟩
    rw [State.half_putHalf]
    exact ⟨rfl, rfl, rfl, rfl⟩
  case timeoutOfRestart =>
    change ∃ t, execTrialRestartTimeout h tm s = .next t ∧ _
    unfold execTrialRestartTimeout
    dsimp only
    rw [State.half_at, begun]
    dsimp only
    rw [if_neg (by simp [show (s.at tm).runs = true from on, late])]
    refine ⟨_, rfl, ?_⟩
    rw [State.half_putHalf]
    refine ⟨rfl, congrArg Component.active (Firmware.comp_putComp ..), fun tried => (congrArg (fun c : Component => c.a.state) (Firmware.comp_putComp ..)).trans ?_, rfl⟩
    rw [if_pos tried]
    rfl
  case tables =>
    change ∃ t b, execTrainingTablesWrite h v body tm s = .next t ∧ _
    unfold execTrainingTablesWrite
    dsimp only
    rw [State.half_at, if_neg (by simp [show (s.at tm).runs = true from on, serves, ready, due, fits])]
    obtain ⟨made, version, signer, size⟩ := trainingImage v.toNat
      (match (s.half h).fw.image 5 with | some b => imgCompat b | none => 0) v.isLt body (by have : slotSize 5 = 2 ^ 19 := rfl; omega)
    refine ⟨_, _, rfl, ?_, ?_, made, version, signer, size, ?_⟩
    · rw [State.half_putHalf]
    · rw [State.half_putHalf]
      exact (congrArg (fun c : Component => c.slot ((s.half h).fw.comp 5).other) (Firmware.comp_putComp ..)).trans (Component.slot_putSlot ..)
    · rw [State.half_putHalf]

end Sys2Proof.Machine
end

section
/-! PROOFS. Physical presence and the pins. -/
namespace Sys2Proof.Machine
open Sys2Proof

@[simp] theorem State.reports_at (s : State) (tm : Nat) (h : HalfId) : (s.at tm).reports h = s.reports h := by cases h <;> rfl

/-! The end of a grant, and the band of the seal loop. -/
theorem State.endGrant_over {s : State} {t : Nat} (begun : s.presence.openAt = some t) (kind : Nat) :
    (s.endGrant kind).presence.openAt = none ∧ (s.endGrant kind).presence.endAt = 0 := by
  unfold State.endGrant
  rw [begun]
  dsimp only
  split
  · rw [State.tamper_presence, State.presence_presEvent]
    split <;> exact ⟨rfl, rfl⟩
  · rw [State.presence_presEvent]
    exact ⟨rfl, rfl⟩
/-! What a qualifying action leaves of the grant (R527). -/
theorem State.grantAction_opens {s : State} {src : Nat} (shut : s.presence.openAt = none) (clear : s.presence.lockdown = false) (charge : s.inCharge ≠ none) :
    (s.grantAction src).presence = { s.presence with openAt := some s.time, endAt := s.time + 600000000000, source := src } := by
  unfold State.grantAction
  generalize 600000000000 = n
  extract_lets u was v now
  have e : u = s := if_neg (by simp [shut])
  rw [if_neg (by simp [e, clear, charge]), show u.presence.openAt = none from e ▸ shut]
  refine (State.presence_presEvent ..).trans ((State.presence_chargeCount ..).trans ?_)
  unfold v was now
  rw [e]
theorem State.grantAction_moves {s : State} {t0 src : Nat} (begun : s.presence.openAt = some t0) (live : s.time ≤ s.presence.endAt)
    (clear : s.presence.lockdown = false) (charge : s.inCharge ≠ none) (src' : src ≠ 2) :
    (s.grantAction src).presence = { s.presence with endAt := min (s.time + 600000000000) (t0 + 1800000000000) } := by
  unfold State.grantAction
  generalize 600000000000 = n
  generalize 1800000000000 = m
  extract_lets u was v now
  have e : u = s := if_neg (by simp [live])
  rw [if_neg (by simp [e, clear, charge]), show u.presence.openAt = some t0 from e ▸ begun]
  refine (congrArg State.presence (if_neg src')).trans ((State.presence_presEvent ..).trans ?_)
  unfold was now
  rw [e, begun]
theorem Half.Inside.setBand {X : Type} {p : Half → X} (hp : Half.Inside p) (s : State) (h : HalfId) (band ohms : Nat) :
    p ((s.setBand h band ohms).half h) = p { s.half h with band := band, ohms := ohms } := by
  unfold State.setBand
  extract_lets H old u new bad
  split
  · exact (hp.tamper ..).trans (congrArg p (State.half_putHalf ..))
  · exact congrArg p (State.half_putHalf ..)
theorem State.pins_senseSeal (s : State) (h : HalfId) : ((s.senseSeal h).half h).pins = (s.half h).pins := by
  unfold State.senseSeal
  split
  · exact Half.Inside.setBand (p := Half.pins) (fun _ _ _ _ _ => rfl) s h 3 0
  · rfl
/-- A loop found broken is a tamper event (R531). -/
theorem State.setBand_broken {s : State} {h : HalfId} {ohms : Nat} (mode : (s.half h).pins.strapMode = 2) (whole : (s.half h).loopBand ≠ 2)
    (clear : s.presence.lockdown = false) : (s.setBand h 2 ohms).presence.lockdown = true ∧ (s.setBand h 2 ohms).presence.openAt = none := by
  have clear' : ¬ (s.putHalf h { s.half h with band := 2, ohms := ohms }).presence.lockdown = true := by
    rw [State.putHalf_presence, clear]
    exact Bool.false_ne_true
  unfold State.setBand
  dsimp only
  rw [State.half_putHalf, if_pos mode, if_pos (Bool.and_eq_true_iff.mpr ⟨by simp [Half.loopBand], decide_eq_true whole⟩), State.tamper_presence, if_neg clear']
  exact ⟨rfl, rfl⟩

/-! Bits of MFIO_IRQ_STAT set (R552). -/
theorem Half.message_pins (H : Half) (h : HalfId) (vec time : Nat) : (H.message h vec time).1.pins = H.pins := by
  unfold Half.message
  dsimp only
  split
  · rfl
  · cases (Sparse.get msixReset H.msix vec).lastSent with
    | none => rfl
    | some t =>
      dsimp only
      split <;> rfl
theorem State.raisePins_pins (s : State) (h : HalfId) (m : Word) :
    ((s.raisePins h m).half h).pins = { (s.half h).pins with irqStat := (s.half h).pins.irqStat ||| m } := by
  unfold State.raisePins
  dsimp only
  split
  · rw [State.half_message, Half.message_pins, State.half_putHalf]
    rfl
  · rw [State.half_putHalf]
    rfl
theorem bit_or (x y : Word) (i : Nat) : bit (x ||| y) i = (bit x i || bit y i) := by
  rw [bit, BitVec.toNat_or, Nat.testBit_or, bit, bit]

/-! Writes of the registers of a pin (R542). -/
theorem not_denied {guards may : Bool} (let' : guards = false ∨ may = true) : ¬ (guards && !may) = true := by
  rcases let' with free | open'
  · simp [free]
  · simp [open']
theorem pinRow_next {h : HalfId} {i : Nat} {s : State} (f : State → State) (hi : i < 32) (up : s.pfUp h = true) (ready : (s.half h).boot.ready = true) :
    pinRow h i f s = .next (f s) := by
  rw [pinRow, if_neg (Nat.not_le.mpr hi), if_neg (by simp [up, ready])]
theorem State.switchPin_pins (s : State) (h : HalfId) (i sel : Nat) :
    ((s.switchPin h i sel).half h).pins.mux = Sparse.set (muxReset h) (s.half h).pins.mux i sel ∧
      ((s.switchPin h i sel).half h).pins.holds = Sparse.set noHold (s.half h).pins.holds i (some (s.padDrive h i)) := by
  unfold State.switchPin
  dsimp only
  rw [State.pins_senseSeal, State.half_putHalf]
  exact ⟨rfl, rfl⟩

/-- Settles O52: each event and each write by its branches. -/
theorem presenceAndPins : Obligations.PresenceAndPins := by
  unfold Obligations.PresenceAndPins
  refine ⟨fun h tm s told mode pin => ?button, fun h tm s told mode band senses => ?loop, fun src s shut clear charge => ?opens,
    fun t0 src s begun live clear charge src' => ?moves, fun t0 tm s begun late => ?expiry, fun h k i tm s on boot up pin ana => ?band,
    fun h tm s on boot up => ?unsensed, fun h i v s hi up ready => ?mux, fun h i v s hi up ready may => ?cfg, fun h i x s hi held => ?hold,
    fun h i level tm s hi on boot up => ?irq⟩
  case button =>
    change execPresenceAction h tm s = _
    unfold execPresenceAction
    dsimp only
    rw [State.half_at, if_neg (by simp [told]), mode]
    exact if_pos (Option.isSome_iff_ne_none.mpr pin)
  case loop =>
    change execPresenceAction h tm s = _
    unfold execPresenceAction
    dsimp only
    rw [State.half_at, if_neg (by simp [told]), mode]
    exact if_pos ⟨band, senses⟩
  case opens =>
    rw [State.grantAction_opens shut clear charge]
    exact ⟨rfl, rfl, rfl⟩
  case moves =>
    rw [State.grantAction_moves begun live clear charge src']
    exact ⟨begun, rfl⟩
  case expiry =>
    refine ⟨(s.at tm).endGrant 3, ?_, State.endGrant_over (s := s.at tm) begun 3⟩
    exact if_pos (Bool.and_eq_true_iff.mpr ⟨Option.isSome_iff_exists.mpr ⟨t0, begun⟩, decide_eq_true late⟩)
  case band =>
    change ∃ t, execSealBandChange h (some k) tm s = .next t ∧ _
    unfold execSealBandChange
    dsimp only
    rw [State.half_at, if_neg (by simp [show (s.at tm).runs = true from on, boot, up]), pin]
    dsimp only
    rw [if_neg (by simp [ana])]
    generalize hu : (s.at tm).putHalf h _ = u
    have sees : u.half h = { s.half h with pins := { (s.half h).pins with adc := Sparse.set zeroNat (s.half h).pins.adc i k.toNat } } := by
      rw [← hu, State.half_putHalf]
    refine ⟨_, rfl, ?_, ?_, ?_, fun mode whole broken clear => ?_⟩
    · exact Half.Inside.setBand (p := Half.band) (fun _ _ _ _ _ => rfl) ..
    · exact Half.Inside.setBand (p := Half.ohms) (fun _ _ _ _ _ => rfl) ..
    · rw [Half.Inside.setBand (p := Half.pins) (fun _ _ _ _ _ => rfl), sees]
      exact Sparse.get_set_same ..
    · rw [broken]
      refine State.setBand_broken ?_ ?_ ?_
      · rw [sees]
        exact mode
      · rw [sees]
        exact whole
      · rw [← hu, State.putHalf_presence]
        exact clear
  case unsensed =>
    change execSealBandChange h none tm s = _
    unfold execSealBandChange
    dsimp only
    rw [State.half_at, if_neg (by simp [show (s.at tm).runs = true from on, boot, up])]
  case mux =>
    intro p sel guards
    have acts : exec (.mfioMuxWrite h i v) s = .next (s.writeMux h i v.toNat) := pinRow_next (fun s => s.writeMux h i v.toNat) hi up ready
    refine ⟨fun guard may => ⟨_, acts, ?_⟩, fun may fn new => ⟨_, acts, ?_⟩, fun may same => acts.trans (congrArg Host.Outcome.next ?_)⟩
    · have denied : s.writeMux h i v.toNat = s.deny h := if_pos (Bool.and_eq_true_iff.mpr ⟨guard, by rw [may]; rfl⟩)
      rw [denied, State.deny, State.half_putHalf]
      exact ⟨rfl, rfl⟩
    · have switched : s.writeMux h i v.toNat = s.switchPin h i sel := (if_neg (not_denied may)).trans (if_neg (not_or.mpr ⟨Nat.not_le.mpr fn, new⟩))
      obtain ⟨mux, holds⟩ := s.switchPin_pins h i sel
      rw [switched]
      refine ⟨?_, ?_, fun j other => ?_⟩
      · rw [Pins.sel, mux, Sparse.get_set_same]
      · rw [Pins.held, holds, Sparse.get_set_same]
        rfl
      · rw [Pins.sel, mux, Sparse.get_set_other _ _ _ _ _ other]
        rfl
    · exact (if_neg (not_denied may)).trans (if_pos same)
  case cfg =>
    refine ⟨_, pinRow_next (fun s => s.writePinCfg h i v.toNat) hi up ready, ?_⟩
    unfold State.writePinCfg
    extract_lets H p w adc q
    rw [if_neg (not_denied may), State.pins_senseSeal, State.raisePins_pins, State.half_putHalf]
    exact ⟨Sparse.get_set_same .., rfl⟩
  case hold =>
    change ∃ t, execMfioSwitchHoldEnd h i s = .next t ∧ _
    unfold execMfioSwitchHoldEnd
    dsimp only
    rw [if_neg (Nat.not_le.mpr hi), if_neg (by simp [held])]
    refine ⟨_, rfl, ?_⟩
    rw [State.half_putHalf]
    exact ⟨Sparse.get_set_same noHold (s.half h).pins.holds i none, rfl, rfl, State.putHalf_out ..⟩
  case irq =>
    intro p
    change ∃ t, execPinInterrupt h i level tm s = .next t ∧ _
    unfold execPinInterrupt
    dsimp only
    rw [if_neg (Nat.not_le.mpr hi), State.half_at, if_neg (by simp [show (s.at tm).runs = true from on, boot, up])]
    refine ⟨_, rfl, ?_, fun ⟨digital, holds⟩ => ?_, fun quiet => ?_⟩
    · split
      · rw [State.half_putHalf]
        exact bit_putBit_same _ _ (by omega)
      · rw [State.raisePins_pins, State.half_putHalf]
        exact bit_putBit_same _ _ (by omega)
    · rw [if_neg (by simp [show (s.half h).pins.analog h i = false from digital, show irqHolds (Sparse.get zeroNat (s.half h).pins.irqMode i) (bit (s.half h).pins.pad i) level = true from holds]), State.raisePins_pins]
      exact (bit_or ..).trans (by rw [bit_putBit_same _ _ (by omega), Bool.or_true])
    · rw [if_pos (by rcases quiet with ana | off <;> simp [*, p]), State.half_putHalf]
      exact ⟨rfl, State.putHalf_out ..⟩

end Sys2Proof.Machine
end

section
/-! PROOFS. The bounds of the event buffer, the event ring and the fault log (R429, R455): half by half, and update by update. -/
namespace Sys2Proof.Machine
open Sys2Proof

/-- The bounds of one half. -/
def Half.bounded (H : Half) : Prop :=
  H.ev.buf.length < 64 + 2 ^ 12 ∧ (H.ev.en = true → H.ev.cqlog ≤ 12) ∧ H.sp.records.length ≤ 4096

theorem State.bounded.half {s : State} (b : s.bounded) (h : HalfId) : (s.half h).bounded := b h

/-- A half that keeps its event ring and its records keeps its bounds. -/
theorem Half.bounded.of_parts {H K : Half} (b : H.bounded) (e : K.ev = H.ev) (r : K.sp.records = H.sp.records) : K.bounded := by
  unfold Half.bounded
  rw [e, r]
  exact b
theorem Half.bounded.of_eq {H K : Half} (b : H.bounded) (same : (K.ev, K.sp.records) = (H.ev, H.sp.records)) : K.bounded :=
  b.of_parts (Prod.mk.inj same).1 (Prod.mk.inj same).2

section
variable {s : State} (b : s.bounded)
include b

theorem State.bounded.putHalf {h : HalfId} {H : Half} (w : H.bounded) : (s.putHalf h H).bounded := fun k => by
  by_cases e : k = h
  · subst e
    rw [State.half_putHalf]
    exact w
  · rw [State.half_putHalf_other _ _ _ _ e]
    exact b k

/-- A half replaced by one with the same event ring and records. -/
theorem State.bounded.keepHalf {h : HalfId} {H : Half} (same : (H.ev, H.sp.records) = ((s.half h).ev, (s.half h).sp.records)) :
    (s.putHalf h H).bounded :=
  b.putHalf ((b.half h).of_eq same)

/-- A state with the same halves. -/
theorem State.bounded.of_halves {t : State} (same : (t.east, t.west) = (s.east, s.west)) : t.bounded := fun k => by
  obtain ⟨e, w⟩ := Prod.mk.inj same
  cases k
  case east => exact (b.half .east).of_eq (by rw [State.half, e]; rfl)
  case west => exact (b.half .west).of_eq (by rw [State.half, w]; rfl)

theorem State.bounded.east : s.east.bounded := b .east
theorem State.bounded.west : s.west.bounded := b .west

theorem State.bounded.of_half_eq {t : State} (e : ∀ h, t.half h = s.half h) : t.bounded := fun k => by
  exact (b.half k).of_eq (by rw [e])

theorem State.bounded.putLane {l : Nat} {L : Lane} : (s.putLane l L).bounded := b.keepHalf (by rfl)
theorem State.bounded.at {tm : Nat} : (s.at tm).bounded := b.of_halves (by rfl)
theorem State.bounded.putCmd {c : Cmd} : (s.putCmd c).bounded := b.of_halves (by rfl)
theorem State.bounded.dropCmd {n : Nat} : (s.dropCmd n).bounded := b.of_halves (by rfl)
theorem State.bounded.emit {o : Out} : (s.emit o).bounded := b.of_half_eq (by simp)
theorem State.bounded.emits {l : List Out} : (l.foldl State.emit s).bounded := b.of_half_eq (by simp)
theorem State.bounded.putThread {c : Ctx} {x : Thread} : (s.putThread c x).bounded := by
  cases c
  case game l t => exact b.putLane
  case sys h k z => exact b.keepHalf (by rfl)
theorem State.bounded.tookSlot {c : Ctx} : (s.tookSlot c).bounded := by
  obtain e | ⟨h, _, _, _, _, _, e⟩ := s.tookSlot_cores_only c <;> rw [e]
  · exact b
  · exact b.keepHalf (by rfl)

end

theorem State.bounded.of_both {s : State} (e : s.east.bounded) (w : s.west.bounded) : s.bounded := fun k => by
  cases k
  case east => exact e
  case west => exact w

/-- What keeps the bounds at each element of a list keeps them along the list. -/
theorem State.bounded.foldl {α : Type} {f : State → α → State} (w : ∀ s a, s.bounded → (f s a).bounded) {l : List α} {s : State}
    (b : s.bounded) : (l.foldl f s).bounded := by
  induction l generalizing s with
  | nil => exact b
  | cons a l ih => exact ih (w s a b)

theorem State.bounded.ite {c : Prop} [Decidable c] {s t : State} (b : s.bounded) (d : t.bounded) : (if c then s else t).bounded := by
  split
  · exact b
  · exact d

theorem Half.bounded.ite {c : Prop} [Decidable c] {H K : Half} (b : H.bounded) (d : K.bounded) : (if c then H else K).bounded := by
  split
  · exact b
  · exact d

/-! Events (R429) and what follows them. -/

theorem EventRing.room_lt {x : EventRing} (w : x.en = true → x.cqlog ≤ 12) : x.room < 2 ^ 12 := by
  unfold EventRing.room
  split
  case isTrue en => exact Nat.lt_of_lt_of_le (Nat.mod_lt _ (Nat.two_pow_pos _)) (Nat.pow_le_pow_right (by decide) (w en))
  case isFalse => decide

theorem EventRing.put_buf_lt {x : EventRing} (e : Event) (b : x.buf.length < 64 + 2 ^ 12) (w : x.en = true → x.cqlog ≤ 12) :
    (x.put e).buf.length < 64 + 2 ^ 12 := by
  have room := EventRing.room_lt w
  unfold EventRing.put
  split
  · simp only [List.length_append, List.length_singleton]
    omega
  · exact b

@[simp] theorem EventRing.put_en (x : EventRing) (e : Event) : (x.put e).en = x.en := by unfold EventRing.put; split <;> rfl
@[simp] theorem EventRing.put_cqlog (x : EventRing) (e : Event) : (x.put e).cqlog = x.cqlog := by unfold EventRing.put; split <;> rfl

theorem Half.bounded.controlSend {H : Half} (b : H.bounded) {h : HalfId} {p : Bytes} : (H.controlSend h p).1.bounded := by
  obtain ⟨n, e⟩ := H.controlSend_net_only h p
  rw [e]
  exact b

/-- A noted event goes into the ring's queue; the fault log stays. -/
theorem Half.noteEvent_ev_sp (H : Half) (h : HalfId) (code lane frame time data : Nat) :
    (∃ e, (H.noteEvent h code lane frame time data).1.ev = ({ H.ev with eseq := H.ev.eseq + 1 } : EventRing).put e) ∧
      (H.noteEvent h code lane frame time data).1.sp = H.sp := by
  have sent : ∀ (K : Half) (p : Bytes), (K.controlSend h p).1.ev = K.ev ∧ (K.controlSend h p).1.sp = K.sp := fun K p => by
    obtain ⟨n, e⟩ := K.controlSend_net_only h p
    rw [e]
    exact ⟨rfl, rfl⟩
  unfold Half.noteEvent
  dsimp only
  split
  · split
    · exact ⟨⟨_, (sent _ _).1⟩, (sent _ _).2⟩
    · exact ⟨⟨_, rfl⟩, rfl⟩
  · exact ⟨⟨_, rfl⟩, rfl⟩

theorem Half.bounded.noteEvent {H : Half} (b : H.bounded) {h : HalfId} {code lane frame time data : Nat} :
    (H.noteEvent h code lane frame time data).1.bounded := by
  obtain ⟨buf, ring, log⟩ := b
  obtain ⟨⟨e, he⟩, hs⟩ := H.noteEvent_ev_sp h code lane frame time data
  unfold Half.bounded
  rw [he, hs, EventRing.put_en, EventRing.put_cqlog]
  exact ⟨EventRing.put_buf_lt e buf ring, ring, log⟩

theorem Half.bounded.seqHigh {h : HalfId} {time : Nat} {r : Half × List Out × Option Nat} (b : r.1.bounded) : (seqHigh h time r).1.bounded := by
  unfold Machine.seqHigh
  split
  · exact b
  · exact b.noteEvent

theorem Half.bounded.event {H : Half} (b : H.bounded) {h : HalfId} {code lane frame time data : Nat} :
    (H.event h code lane frame time data).1.bounded := b.noteEvent.seqHigh

theorem Half.bounded.sendReply {H : Half} (b : H.bounded) {h : HalfId} {time : Nat} {p : Bytes} : (H.sendReply h time p).1.bounded :=
  b.controlSend.seqHigh

section
variable {s : State} (b : s.bounded)
include b

theorem State.bounded.event {h : HalfId} {code lane frame data : Nat} : (s.event h code lane frame data).bounded :=
  (b.putHalf (b.half h).event).emits

theorem State.bounded.message {h : HalfId} {vec : Nat} : (s.message h vec).bounded := by
  obtain ⟨m, e⟩ := (s.half h).message_msix_only h vec s.time
  unfold State.message
  dsimp only
  rw [e]
  exact (b.keepHalf (by rfl)).emits

end

theorem Half.bounded.foldl {α : Type} {f : Half → α → Half} (w : ∀ H a, H.bounded → (f H a).bounded) {l : List α} {H : Half}
    (b : H.bounded) : (l.foldl f H).bounded := by
  induction l generalizing H with
  | nil => exact b
  | cons a l ih => exact ih (w H a b)

/-! Updates of a half that come with something else. -/

theorem Half.bounded.cachedLine {H : Half} (b : H.bounded) {h : HalfId} {code : Bool} {k m n : Nat} {d : Bytes} :
    (H.cachedLine h code k m n d).2.bounded := by
  obtain ⟨_, _, _, e⟩ := H.cachedLine_caches_only h code k m n d
  rw [e]
  exact b.of_eq (by rfl)
theorem Half.bounded.cachedRead {H : Half} (b : H.bounded) {h : HalfId} {k m a n : Nat} {rd : Nat → Bytes} :
    (H.cachedRead h k m a n rd).2.bounded := b.cachedLine
theorem Half.bounded.codeWord {H : Half} (b : H.bounded) {h : HalfId} {k m : Nat} {l : Option (Nat × Bytes)} {a : Nat} {rd : Nat → Bytes} :
    (H.codeWord h k m l a rd).2.2.bounded := by
  obtain ⟨_, _, _, e⟩ := H.codeWord_caches_only h k m l a rd
  rw [e]
  exact b.of_eq (by rfl)

/-- A list of choices, each of which keeps the half's bounds. -/
theorem Half.bounded.foldl_fst {α β : Type} {f : Half × β → α → Half × β} (w : ∀ p a, p.1.bounded → (f p a).1.bounded) {l : List α}
    {p : Half × β} (b : p.1.bounded) : (l.foldl f p).1.bounded := by
  induction l generalizing p with
  | nil => exact b
  | cons a l ih => exact ih (w p a b)
theorem Half.bounded.chooseSlots {H : Half} (b : H.bounded) {ks : List Nat} : (H.chooseSlots ks).1.bounded := by
  unfold Half.chooseSlots
  refine foldl_fst (fun _ _ d => ?_) b
  exact d.of_eq (by rfl)
theorem Half.bounded.alignCompat {H : Half} (b : H.bounded) {P : Half} : (H.alignCompat P).1.bounded := by
  unfold Half.alignCompat
  refine foldl_fst (fun p k d => ?_) b
  dsimp only
  split
  · split
    · exact d
    · split
      · exact d.of_eq (by rfl)
      · exact d
  · exact d

theorem Half.bounded.reset (h : HalfId) : (Half.reset h).bounded := by
  refine ⟨?_, ?_, ?_⟩ <;> simp [Half.reset, EventRing.reset, Sparing.reset]

/-! A checkpoint given up is an event each. -/

theorem State.bounded.ckptLost {s : State} (b : s.bounded) {l n : Nat} : (s.ckptLost l n).bounded := by
  induction n generalizing s with
  | zero => exact b
  | succ n ih => exact ih b.event

theorem Half.bounded.withSp {H : Half} (b : H.bounded) {p : Sparing} (w : p.records.length ≤ 4096) : ({ H with sp := p } : Half).bounded := by
  obtain ⟨buf, ring, _⟩ := b
  exact ⟨buf, ring, w⟩

theorem length_drop_to_newest {α : Type} (l : List α) (n : Nat) : (l.drop (l.length - n)).length ≤ n := by
  rw [List.length_drop]
  omega

/-- The fault log keeps its newest 4,096 records (R455). -/
theorem State.bounded.record {s : State} (b : s.bounded) {h : HalfId} {r : FaultRecord} : (s.record h r).bounded :=
  State.bounded.event (b.putHalf ((b.half h).withSp (length_drop_to_newest _ _)))

/-- Changes of the event ring's registers (R415, R416). -/
theorem EventRing.configure_cqlog {x : EventRing} (w : x.en = true → x.cqlog ≤ 12) (v : Nat) :
    (x.configure v).en = true → (x.configure v).cqlog ≤ 12 := by
  unfold EventRing.configure
  dsimp only
  split
  case isTrue en => exact fun _ => w en
  case isFalse off =>
    split
    · exact fun en => absurd en off
    · split
      · exact fun en => absurd en off
      · next range => exact fun _ => Nat.le_of_not_lt fun more => range (.inr more)

end Sys2Proof.Machine
end

section
/-! PROOFS. Every operation on a half or on the state keeps the bounds of the event buffer, the event ring and the fault log (R429, R455). -/
namespace Sys2Proof.Machine
open Sys2Proof

theorem Half.bounded.putLane {H : Half} {i : Nat} {L : Lane} (b : H.bounded) : (H.putLane i L).bounded := by
  unfold Half.putLane
  exact b.of_eq (by rfl)

theorem Half.bounded.release {H : Half} {l : Nat} (b : H.bounded) : (H.release l).bounded := by
  unfold Half.release
  dsimp only
  exact b.of_eq (by rfl)

theorem Half.bounded.dropTitle {H : Half} {id : Nat} (b : H.bounded) : (H.dropTitle id).bounded := by
  unfold Half.dropTitle
  dsimp only
  split
  · exact b
  · exact b.of_eq (by rfl)

theorem State.bounded.writeEntry {s : State} {l : Nat} {e : Bytes} (b : s.bounded) : (s.writeEntry l e).bounded := by
  unfold State.writeEntry
  dsimp only
  exact State.bounded.ite b.emit b

theorem State.bounded.freeLane {s : State} {l : Nat} (b : s.bounded) : (s.freeLane l).bounded := by
  unfold State.freeLane
  extract_lets h H p sp mon drain s₁ s₂
  have same : sp.records = H.sp.records := by
    unfold sp
    split
    · split <;> rfl
    · rfl
  have freed : s₁.bounded := b.putHalf ((b.half h).dropTitle.release.of_parts rfl same)
  exact (State.bounded.ite freed.writeEntry freed).putLane

theorem State.bounded.putNetLane {s : State} {l : Nat} {n : NetLane} (b : s.bounded) : (s.putNetLane l n).bounded := by
  unfold State.putNetLane
  dsimp only
  exact b.keepHalf (by rfl)

theorem State.bounded.reportTiming {s : State} {h : HalfId} {v : Nat} {x : Viewer} (b : s.bounded) : (s.reportTiming h v x).bounded := by
  unfold State.reportTiming
  dsimp only
  exact b.keepHalf (by rfl)

theorem State.bounded.tellLock {s : State} {l old : Nat} (b : s.bounded) : (s.tellLock l old).bounded := by
  unfold State.tellLock
  exact State.bounded.ite b (b.foldl (fun u a w => State.bounded.ite w.reportTiming w))

theorem State.bounded.setLock {s : State} {l : Nat} {k : Lock} (b : s.bounded) : (s.setLock l k).bounded := by
  unfold State.setLock
  dsimp only
  exact b.putNetLane.tellLock

theorem State.bounded.unlock {s : State} {l : Nat} (b : s.bounded) : (s.unlock l).bounded := by
  unfold State.unlock
  dsimp only
  exact b.setLock

theorem State.bounded.finish {s : State} {id status detail : Nat} {result : Bytes} (b : s.bounded) : (s.finish id status detail result).bounded := by
  unfold State.finish
  dsimp only
  split
  · exact b
  · refine State.bounded.ite b ?_
    split
    · exact State.bounded.ite b.dropCmd ((b.dropCmd (n := id)).of_halves (by rfl))
    · exact (b.dropCmd (n := id)).of_halves (by rfl)
    · refine (b.dropCmd.putHalf (Half.bounded.sendReply ?_)).emits
      split
      · exact (b.half _).of_eq (by rfl)
      · exact b.half _

theorem State.bounded.settleKeys {s : State} {h : HalfId} {v : Nat} {frame : Option Nat} (b : s.bounded) : (s.settleKeys h v frame).bounded := by
  unfold State.settleKeys
  dsimp only
  split
  · exact b
  · refine (b.keepHalf (by rfl)).foldl ?_
    intro u a w
    refine State.bounded.ite ?_ ?_
    · split
      · exact State.bounded.ite w.putCmd w
      · exact w
    · refine State.bounded.finish ?_
      split
      · exact State.bounded.ite w.putCmd w
      · exact w

theorem State.bounded.logInput {s : State} {l : Nat} {L : Lane} {vt kind slot : Nat} {data : Bytes} {cmd : Option Nat} (b : s.bounded) : (s.logInput l L vt kind slot data cmd).bounded := by
  unfold State.logInput
  dsimp only
  exact b.putLane.ckptLost

theorem State.bounded.viewerChange {s : State} {l : Nat} {cleared : Option Nat} (b : s.bounded) : (s.viewerChange l cleared).bounded := by
  unfold State.viewerChange
  dsimp only
  exact State.bounded.ite b b.logInput

theorem State.bounded.viewerLeft {s : State} {v : Nat} {x y : Viewer} (b : s.bounded) : (s.viewerLeft v x y).bounded := by
  unfold State.viewerLeft
  extract_lets l n pacer s₁ s₂ s₃
  have b₁ : s₁.bounded := State.bounded.ite b.putNetLane b
  have b₂ : s₂.bounded := State.bounded.ite b₁.unlock b₁
  have b₃ : s₃.bounded := State.bounded.ite b₂.settleKeys b₂
  exact State.bounded.ite b₃.viewerChange (State.bounded.ite b₃.viewerChange b₃)

theorem State.bounded.sentBy {s : State} {h : HalfId} {v : Nat} {r : Sent} (b : s.bounded) : (s.sentBy h v r).bounded := by
  unfold State.sentBy
  dsimp only
  split
  · refine State.bounded.event ?_
    split
    · exact State.bounded.ite (b.keepHalf (by rfl)).emits.viewerLeft (b.keepHalf (by rfl)).emits
    · exact (b.keepHalf (by rfl)).emits
  · split
    · exact State.bounded.ite (b.keepHalf (by rfl)).emits.viewerLeft (b.keepHalf (by rfl)).emits
    · exact (b.keepHalf (by rfl)).emits

theorem State.bounded.leaveAll {s : State} {l reason : Nat} (b : s.bounded) : (s.leaveAll l reason).bounded := by
  unfold State.leaveAll
  dsimp only
  exact b.foldl (fun u a w => w.sentBy)

theorem State.bounded.abortAll {s : State} {l : Nat} {except : Option Nat} (b : s.bounded) : (s.abortAll l except).bounded := by
  unfold State.abortAll
  exact b.foldl (fun u a w => w.finish)

theorem State.bounded.stopLane {s : State} {l : Nat} {except : Option Nat} (b : s.bounded) : (s.stopLane l except).bounded := by
  unfold State.stopLane
  exact b.abortAll.leaveAll.freeLane

theorem State.bounded.settleStop {s : State} {l : Nat} (b : s.bounded) : (s.settleStop l).bounded := by
  unfold State.settleStop
  exact State.bounded.ite b.stopLane b

theorem State.bounded.afterThread {s : State} {a : Ctx} (b : s.bounded) : (s.afterThread a).bounded := by
  unfold State.afterThread
  dsimp only
  split
  · exact State.bounded.ite (State.bounded.ite b.event.putLane.settleStop b.event) b
  · exact b

theorem State.bounded.sendReads {s : State} {a : Ctx} (b : s.bounded) : (s.sendReads a).bounded := by
  unfold State.sendReads
  split
  · exact b.putLane
  · exact b

theorem State.bounded.storeThrough {s : State} {l a : Nat} {bs : Bytes} (b : s.bounded) : (s.storeThrough l a bs).bounded := by
  unfold State.storeThrough
  dsimp only
  exact (b.keepHalf (by rfl)).putLane

theorem State.bounded.named {s : State} {c : Ctx} {v n : Nat} (b : s.bounded) : (s.named c v n).bounded := by
  unfold State.named
  split
  · exact State.bounded.ite b b.putLane
  · exact b

theorem State.bounded.dropCode {s : State} {a : Ctx} (b : s.bounded) : (s.dropCode a).bounded := by
  unfold State.dropCode
  dsimp only
  split
  · exact b.keepHalf (by rfl)
  · exact b.keepHalf (by rfl)

theorem State.bounded.settle {s : State} {a : Ctx} (b : s.bounded) : (s.settle a).bounded := by
  unfold State.settle
  split
  · exact b.settleStop
  · exact b

theorem State.bounded.markBoundary {s : State} {l f : Nat} (b : s.bounded) : (s.markBoundary l f).bounded := by
  unfold State.markBoundary
  dsimp only
  exact b.putNetLane

theorem Half.bounded.lifeAdd {H : Half} {off n k : Nat} (b : H.bounded) : (H.lifeAdd off n k).bounded := by
  unfold Half.lifeAdd
  dsimp only
  exact b.of_eq (by rfl)

theorem State.bounded.lifeAdd {s : State} {h : HalfId} {off n k : Nat} (b : s.bounded) : (s.lifeAdd h off n k).bounded := by
  unfold State.lifeAdd
  exact b.keepHalf (by rfl)

theorem State.bounded.lateHist {s : State} {l f : Nat} (b : s.bounded) : (s.lateHist l f).bounded := by
  unfold State.lateHist
  dsimp only
  exact State.bounded.ite b b.lifeAdd

theorem State.bounded.ckptAt {s : State} {l f : Nat} (b : s.bounded) : (s.ckptAt l f).bounded := by
  unfold State.ckptAt
  dsimp only
  exact State.bounded.ite b.putLane b.putLane.putLane

theorem State.bounded.latchLane {s : State} {l f : Nat} (b : s.bounded) : (s.latchLane l f).bounded := by
  unfold State.latchLane
  dsimp only
  exact State.bounded.ite b.putLane.putNetLane b.putLane

theorem State.bounded.mapViewer {s : State} {h : HalfId} {v : Nat} {f : Viewer → Viewer} (b : s.bounded) : (s.mapViewer h v f).bounded := by
  unfold State.mapViewer
  split
  · exact b.keepHalf (by rfl)
  · exact b

theorem State.bounded.keyAll {s : State} {l reason : Nat} (b : s.bounded) : (s.keyAll l reason).bounded := by
  unfold State.keyAll
  exact b.foldl (fun u a w => w.mapViewer)

theorem State.bounded.applyBound {s : State} {l f : Nat} {i : LaneInput} (b : s.bounded) : (s.applyBound l f i).bounded := by
  unfold State.applyBound
  dsimp only
  split
  · refine State.bounded.finish ?_
    refine State.bounded.putLane ?_
    split
    · exact State.bounded.ite b.putLane.keyAll b.putLane
    · exact State.bounded.ite b.putLane.putNetLane.keyAll (State.bounded.ite b.putLane.putNetLane b.putLane)
  · refine State.bounded.putLane ?_
    split
    · exact State.bounded.ite b.putLane.keyAll b.putLane
    · exact State.bounded.ite b.putLane.putNetLane.keyAll (State.bounded.ite b.putLane.putNetLane b.putLane)

theorem State.bounded.applyBounds {s : State} {l f : Nat} (b : s.bounded) : (s.applyBounds l f).bounded := by
  unfold State.applyBounds
  exact b.foldl (fun u a w => w.applyBound)

theorem State.bounded.dropLate {s : State} {l f : Nat} (b : s.bounded) : (s.dropLate l f).bounded := by
  unfold State.dropLate
  exact b.foldl (fun u a w => w.finish)

theorem State.bounded.viewerBoundary {s : State} {l v f : Nat} (b : s.bounded) : (s.viewerBoundary l v f).bounded := by
  unfold State.viewerBoundary
  dsimp only
  split
  · exact b
  · refine State.bounded.ite ?_ ((State.bounded.ite b.lifeAdd b).keepHalf (by rfl))
    split
    · exact (((State.bounded.ite b.lifeAdd b).keepHalf (by rfl)).settleKeys).reportTiming
    · exact ((State.bounded.ite b.lifeAdd b).keepHalf (by rfl)).settleKeys

theorem State.bounded.boundary {s : State} {l f : Nat} (b : s.bounded) : (s.boundary l f).bounded := by
  unfold State.boundary
  dsimp only
  exact ((b.markBoundary.ckptAt.lateHist.putLane.applyBounds.latchLane.putLane.tellLock.foldl (fun u a w => w.viewerBoundary)).dropLate).putLane

theorem State.bounded.countFault {s : State} {h : HalfId} {k : Nat} {masked : Bool} (b : s.bounded) : (s.countFault h k masked).bounded := by
  unfold State.countFault
  dsimp only
  exact b.putHalf (Half.bounded.lifeAdd ((b.half h).of_parts (by rfl) (by dsimp only; split <;> rfl)))

theorem State.bounded.recordFault {s : State} {f : FaultInfo} {action levee flags more : Nat} (b : s.bounded) : (s.recordFault f action levee flags more).bounded := by
  unfold State.recordFault
  dsimp only
  exact b.record

theorem State.bounded.report {s : State} {f : FaultInfo} {action levee flags : Nat} (b : s.bounded) : (s.report f action levee flags).bounded := by
  unfold State.report
  dsimp only
  refine State.bounded.recordFault (b.countFault.putHalf ((b.countFault.half f.half).of_parts (by rfl) ?_))
  dsimp only
  split
  · split <;> rfl
  · rfl

theorem State.bounded.hbmCorrected {s : State} {f : FaultInfo} {row flags : Nat} (b : s.bounded) : (s.hbmCorrected f row flags).bounded := by
  unfold State.hbmCorrected
  dsimp only
  exact State.bounded.ite (b.keepHalf (by rfl)).report (State.bounded.ite (b.keepHalf (by rfl)).report (b.keepHalf (by rfl)).countFault)

theorem State.bounded.noteHalt {s : State} {h : HalfId} {next : Nat} (b : s.bounded) : (s.noteHalt h next).bounded := by
  unfold State.noteHalt
  exact b.countFault.recordFault

theorem State.bounded.checkHalt {s : State} {h : HalfId} (b : s.bounded) : (s.checkHalt h).bounded := by
  unfold State.checkHalt
  dsimp only
  exact State.bounded.ite ((State.bounded.ite (b.keepHalf (by rfl)).noteHalt (b.keepHalf (by rfl))).noteHalt) (State.bounded.ite (b.keepHalf (by rfl)).noteHalt (b.keepHalf (by rfl)))

theorem Half.bounded.lifeDue {H : Half} (b : H.bounded) : (H.lifeDue).bounded := by
  unfold Half.lifeDue
  dsimp only
  exact b.of_eq (by rfl)

theorem Half.bounded.lifePut {H : Half} {off n v : Nat} (b : H.bounded) : (H.lifePut off n v).bounded := by
  unfold Half.lifePut
  dsimp only
  exact b.of_eq (by rfl)

theorem Half.bounded.lifeBit {H : Half} {off i : Nat} (b : H.bounded) : (H.lifeBit off i).bounded := by
  unfold Half.lifeBit
  exact b.lifePut

theorem State.bounded.retire {s : State} {h : HalfId} {u : UnitKind} {i : Nat} (b : s.bounded) : (s.retire h u i).bounded := by
  unfold State.retire
  dsimp only
  exact State.bounded.ite b (b.keepHalf (by rfl)).checkHalt

theorem State.bounded.freed {s : State} {h : HalfId} {u : UnitKind} {i : Nat} (b : s.bounded) : (s.freed h u i).bounded := by
  unfold State.freed
  dsimp only
  exact State.bounded.ite b.retire (State.bounded.ite b.checkHalt (b.keepHalf (by rfl)).checkHalt)

theorem State.bounded.dropImage {s : State} {l rec : Nat} (b : s.bounded) : (s.dropImage l rec).bounded := by
  unfold State.dropImage
  dsimp only
  split
  · exact b
  · refine State.bounded.putLane ?_
    split
    · exact b.finish
    · exact b

theorem State.bounded.ripen {s : State} {l : Nat} (b : s.bounded) : (s.ripen l).bounded := by
  unfold State.ripen
  dsimp only
  exact State.bounded.ite b.putLane b

theorem State.bounded.rollLane {s : State} {l : Nat} {pause : Bool} (b : s.bounded) : (s.rollLane l pause).bounded := by
  unfold State.rollLane
  dsimp only
  exact State.bounded.ite b (State.bounded.ite b.ripen.dropImage.putLane b.ripen.dropImage.stopLane)

theorem Half.bounded.restartSystem {H : Half} {c : Nat} (b : H.bounded) : (H.restartSystem c).bounded := by
  unfold Half.restartSystem
  exact b.of_eq (by rfl)

theorem Half.bounded.seat {H : Half} {l : Nat} {z : Seats} (b : H.bounded) : (H.seat l z).bounded := by
  unfold Half.seat
  refine b.foldl fun K a d => ?_
  exact d.of_eq (by rfl)

theorem State.bounded.readmit {s : State} {f : FaultInfo} {flags l : Nat} (b : s.bounded) : (s.readmit f flags l).bounded := by
  unfold State.readmit
  dsimp only
  split
  · exact ((b.putHalf (((b.half _).release).seat)).putLane).rollLane
  · exact (b.keepHalf (by rfl)).recordFault.rollLane

theorem State.bounded.leaveCore {s : State} {f : FaultInfo} {flags : Nat} (b : s.bounded) : (s.leaveCore f flags).bounded := by
  unfold State.leaveCore
  dsimp only
  split
  · exact b
  · split
    · refine State.bounded.foldl (fun t l d => d.rollLane) (b.putHalf (Half.bounded.restartSystem ((b.half f.half).of_parts (by rfl) ?_)))
      dsimp only
      split <;> rfl
    · exact b.foldl fun t l d => d.readmit

theorem State.bounded.coreFault {s : State} {f : FaultInfo} {flags : Nat} (b : s.bounded) : (s.coreFault f flags).bounded := by
  unfold State.coreFault
  dsimp only
  exact State.bounded.ite (State.bounded.ite (b.report.keepHalf (by rfl)).freed b.report) (State.bounded.ite b.report.leaveCore.freed b.report.freed.leaveCore)

theorem State.bounded.laneFault {s : State} {f : FaultInfo} {flags : Nat} (b : s.bounded) : (s.laneFault f flags).bounded := by
  unfold State.laneFault
  split
  · exact b.report.rollLane
  · exact b.report

theorem State.bounded.memoryFault {s : State} {f : FaultInfo} {addr flags : Nat} (b : s.bounded) : (s.memoryFault f addr flags).bounded := by
  unfold State.memoryFault
  dsimp only
  split
  · exact b.report
  · exact State.bounded.ite b.report (State.bounded.ite ((State.bounded.ite b.report.retire b.report).rollLane) b.report.dropImage.stopLane.event)

theorem State.bounded.titleFault {s : State} {f : FaultInfo} {id page flags : Nat} (b : s.bounded) : (s.titleFault f id page flags).bounded := by
  unfold State.titleFault
  dsimp only
  refine State.bounded.foldl (fun u a w => w.rollLane) ?_
  refine State.bounded.ite ?_ ?_
  · split
    · exact (b.of_halves (by rfl)).report
    · exact (b.of_halves (by rfl)).report
  · refine State.bounded.event ?_
    refine State.bounded.keepHalf ?_ (by rfl)
    split
    · exact (b.of_halves (by rfl)).report
    · exact (b.of_halves (by rfl)).report

theorem State.bounded.recover {s : State} {f : FaultInfo} {flags : Nat} (b : s.bounded) : (s.recover f flags).bounded := by
  unfold State.recover
  dsimp only
  exact (b.report.keepHalf (by rfl)).foldl (fun u a w => w.rollLane)

theorem State.bounded.dropHandoff {s : State} {l : Nat} (b : s.bounded) : (s.dropHandoff l).bounded := by
  unfold State.dropHandoff
  dsimp only
  split
  · exact State.bounded.ite (b.keepHalf (by rfl)) b
  · exact b

theorem State.bounded.mapUnit {s : State} {h : HalfId} {n u : Nat} (b : s.bounded) : (s.mapUnit h n u).bounded := by
  unfold State.mapUnit
  dsimp only
  exact b.keepHalf (by rfl)

theorem State.bounded.unitFault {s : State} {f : FaultInfo} {flags : Nat} (b : s.bounded) : (s.unitFault f flags).bounded := by
  unfold State.unitFault
  dsimp only
  split
  · exact State.bounded.ite (b.report.keepHalf (by rfl)).freed b.report
  · split
    · exact b.dropHandoff.report.mapUnit.freed.rollLane
    · exact (State.bounded.ite b.dropHandoff.report.retire (State.bounded.ite (b.dropHandoff.report.keepHalf (by rfl)) b.dropHandoff.report)).rollLane

theorem Half.bounded.putSub {H : Half} {k : Nat} {p : SubPort} (b : H.bounded) : (H.putSub k p).bounded := by
  unfold Half.putSub
  dsimp only
  exact b.of_eq (by rfl)

theorem State.bounded.settleSub {s : State} {g : HalfId} {k : Nat} (b : s.bounded) : (s.settleSub g k).bounded := by
  unfold State.settleSub
  dsimp only
  exact State.bounded.ite b (State.bounded.ite (b.keepHalf (by rfl)).event (b.keepHalf (by rfl)))

theorem State.bounded.failSub {s : State} {h : HalfId} {k : Nat} (b : s.bounded) : (s.failSub h k).bounded := by
  unfold State.failSub
  dsimp only
  exact ((b.of_halves (by rfl)).keepHalf (by rfl)).settleSub.settleSub

theorem State.bounded.portFault {s : State} {f : FaultInfo} {flags : Nat} (b : s.bounded) : (s.portFault f flags).bounded := by
  unfold State.portFault
  dsimp only
  split
  · exact State.bounded.ite b.report.failSub (b.report.foldl (fun u a w => w.failSub))
  · exact b.report.foldl (fun u a w => w.failSub)

theorem State.bounded.spStop {s : State} {f : FaultInfo} {flags : Nat} (b : s.bounded) : (s.spStop f flags).bounded := by
  unfold State.spStop
  dsimp only
  exact b.keepHalf (by rfl)

theorem State.bounded.clockFault {s : State} {f : FaultInfo} {flags : Nat} (b : s.bounded) : (s.clockFault f flags).bounded := by
  unfold State.clockFault
  dsimp only
  exact State.bounded.ite b.unitFault (State.bounded.ite b.portFault (State.bounded.ite b.report (State.bounded.ite b.spStop (State.bounded.ite b.recover b.countFault))))

theorem State.bounded.act {s : State} {g : FaultInfo} {flags : Nat} (b : s.bounded) : (s.act g flags).bounded := by
  unfold State.act
  dsimp only
  split
  · exact State.bounded.ite b.report b.countFault
  · exact b.countFault
  · exact b.report
  · exact b.report
  · exact State.bounded.ite b.coreFault b.laneFault
  · exact b.memoryFault
  · exact b.titleFault
  · exact b.recover
  · split
    · exact b.coreFault
    · exact b.memoryFault
    · exact b.unitFault
    · exact b.laneFault
    · exact State.bounded.ite b.laneFault b.recover
    · exact b.portFault
    · exact b.report
    · exact b.spStop
    · exact b.clockFault
    · exact b.recover
    · exact b.laneFault
    · exact b.report
  · split
    · exact b.coreFault
    · exact b.memoryFault
    · exact b.unitFault
    · exact b.laneFault
    · exact State.bounded.ite b.laneFault b.recover
    · exact b.portFault
    · exact b.report
    · exact b.spStop
    · exact b.clockFault
    · exact b.recover
    · exact b.laneFault
    · exact b.report
  · split
    · exact b.coreFault
    · exact b.memoryFault
    · exact b.unitFault
    · exact b.laneFault
    · exact State.bounded.ite b.laneFault b.recover
    · exact b.portFault
    · exact b.report
    · exact b.spStop
    · exact b.clockFault
    · exact b.recover
    · exact b.laneFault
    · exact b.report

theorem State.bounded.retireThird {s : State} {h : HalfId} {u : UnitKind} {i : Nat} (b : s.bounded) : (s.retireThird h u i).bounded := by
  unfold State.retireThird
  exact State.bounded.ite b.retire b

theorem State.bounded.failPc {s : State} {f : FaultInfo} {flags : Nat} (b : s.bounded) : (s.failPc f flags).bounded := by
  unfold State.failPc
  dsimp only
  exact State.bounded.ite b (State.bounded.ite (State.bounded.ite b.report b.recover) (b.keepHalf (by rfl)).report)

theorem State.bounded.hbmUncorrected {s : State} {f : FaultInfo} {flags : Nat} (b : s.bounded) : (s.hbmUncorrected f flags).bounded := by
  unfold State.hbmUncorrected
  dsimp only
  exact State.bounded.ite ((b.keepHalf (by rfl)).retireThird.keepHalf (by rfl)).failPc (b.keepHalf (by rfl)).retireThird

theorem State.bounded.countEcc {s : State} {f : FaultInfo} (b : s.bounded) : (s.countEcc f).bounded := by
  unfold State.countEcc
  dsimp only
  refine b.putHalf ((b.half f.half).of_parts (by rfl) ?_)
  dsimp only
  split
  · rfl
  · split <;> rfl

theorem State.bounded.fault {s : State} {f : FaultInfo} {flags : Nat} (b : s.bounded) : (s.fault f flags).bounded := by
  unfold State.fault
  dsimp only
  refine State.bounded.ite ?_ ?_
  · split
    · exact (b.of_halves (by rfl)).hbmCorrected
    · exact (b.of_halves (by rfl)).hbmCorrected
    · exact b.act
    · exact b.act
    · exact b.act.hbmUncorrected
    · exact b.act.hbmUncorrected
    · exact b.act.hbmUncorrected
    · exact b.act.hbmUncorrected
    · exact b.act.hbmUncorrected
    · exact b.act.hbmUncorrected
    · exact b.act.hbmUncorrected
  · split
    · exact b.countEcc.act.retireThird
    · exact b.countEcc.act

theorem State.bounded.detect {s : State} {f : FaultInfo} (b : s.bounded) : (s.detect f).bounded := by
  unfold State.detect
  exact State.bounded.ite (b.keepHalf (by rfl)) b.fault

theorem State.bounded.pointFault {s : State} {l syndrome : Nat} (b : s.bounded) : (s.pointFault l syndrome).bounded := by
  unfold State.pointFault
  dsimp only
  exact b.detect

theorem State.bounded.resumeLane {s : State} {l cause : Nat} (b : s.bounded) : (s.resumeLane l cause).bounded := by
  unfold State.resumeLane
  dsimp only
  exact b.logInput.keepHalf (by rfl)

theorem State.bounded.mismatch {s : State} {l : Nat} {ws : List Nat} (b : s.bounded) : (s.mismatch l ws).bounded := by
  unfold State.mismatch
  exact b.foldl (fun u a w => w.event)

theorem State.bounded.dropWritten {s : State} {l a n : Nat} (b : s.bounded) : (s.dropWritten l a n).bounded := by
  unfold State.dropWritten
  dsimp only
  exact b.keepHalf (by rfl)

theorem State.bounded.portEmpty {s : State} {h : HalfId} (b : s.bounded) : (s.portEmpty h).bounded := by
  unfold State.portEmpty
  dsimp only
  exact State.bounded.ite b ((b.keepHalf (by rfl)).foldl (fun u a w => w.finish))

theorem State.bounded.endFlow {s : State} {h : HalfId} {v : Nat} (b : s.bounded) : (s.endFlow h v).bounded := by
  unfold State.endFlow
  exact (b.keepHalf (by rfl)).portEmpty

theorem State.bounded.leftBy {s : State} {h : HalfId} {v : Nat} {r : Sent} (b : s.bounded) : (s.leftBy h v r).bounded := by
  unfold State.leftBy
  dsimp only
  split
  · exact State.bounded.ite b.sentBy.endFlow b.sentBy
  · exact b.sentBy
  · exact b.sentBy

theorem State.bounded.discard {s : State} {h : HalfId} {k : Nat} (b : s.bounded) : (s.discard h k).bounded := by
  unfold State.discard
  dsimp only
  exact State.bounded.ite b (b.keepHalf (by rfl))

theorem State.bounded.refreshEntry {s : State} {h : HalfId} {v l : Nat} {e : Bytes} (b : s.bounded) : (s.refreshEntry h v l e).bounded := by
  unfold State.refreshEntry
  dsimp only
  split
  · exact b
  · exact State.bounded.ite b.setLock (State.bounded.ite b (b.keepHalf (by rfl)).setLock)

theorem State.bounded.busy {s : State} {src : Source} {bs p : Bytes} (b : s.bounded) : (s.busy src bs p).bounded := by
  unfold State.busy
  dsimp only
  exact (b.of_halves (by rfl)).finish

theorem State.bounded.accept {s : State} {src : Source} {bs p : Bytes} (b : s.bounded) : (s.accept src bs p).bounded := by
  unfold State.accept
  dsimp only
  split
  · exact (b.of_halves (by rfl)).finish
  · exact b.of_halves (by rfl)

theorem State.bounded.offer {s : State} {src : Source} {most : Nat} {bs p : Bytes} (b : s.bounded) : (s.offer src most bs p).bounded := by
  unfold State.offer
  exact State.bounded.ite b.busy b.accept

theorem State.bounded.controlPacket {s : State} {o : HalfId} {c : Control} {p : Bytes} (b : s.bounded) : (s.controlPacket o c p).bounded := by
  unfold State.controlPacket
  dsimp only
  split
  · exact (b.putHalf ((b.half _).sendReply)).emits
  · exact State.bounded.ite b b.offer

theorem State.bounded.dropAllLines {s : State} {l : Nat} (b : s.bounded) : (s.dropAllLines l).bounded := by
  unfold State.dropAllLines
  dsimp only
  exact b.keepHalf (by rfl)

theorem State.bounded.hbmHit {s : State} {h : HalfId} {f : FaultInfo} (b : s.bounded) : (s.hbmHit h f).1.bounded := by
  unfold State.hbmHit
  dsimp only
  split
  · exact b.of_halves (by rfl)
  · split
    · exact b.of_halves (by rfl)
    · split
      · exact b.of_halves (by rfl)
      · split
        · exact b.of_halves (by rfl)
        · exact b.of_halves (by rfl)

theorem State.bounded.hbmDouble {s : State} {h : HalfId} {q flags : Nat} (b : s.bounded) : (s.hbmDouble h q flags).bounded := by
  unfold State.hbmDouble
  dsimp only
  exact State.bounded.ite (b.of_halves (by rfl)).hbmHit.act.hbmUncorrected (State.bounded.ite (b.of_halves (by rfl)).hbmHit.report.hbmUncorrected (b.of_halves (by rfl)).hbmHit.fault)

theorem State.bounded.hbmRead {s : State} {h : HalfId} {q row : Nat} {e : HbmError} {flags : Nat} (b : s.bounded) : (s.hbmRead h q row e flags).bounded := by
  unfold State.hbmRead
  dsimp only
  split
  · exact b.of_halves (by rfl)
  · exact (b.of_halves (by rfl)).hbmCorrected
  · exact (b.of_halves (by rfl)).hbmDouble
  · exact State.bounded.ite (b.of_halves (by rfl)) (State.bounded.ite (b.of_halves (by rfl)).countFault (State.bounded.ite (b.of_halves (by rfl)).report (b.of_halves (by rfl)).failPc))

theorem State.bounded.firstBoundary {s : State} {l f : Nat} (b : s.bounded) : (s.firstBoundary l f).bounded := by
  unfold State.firstBoundary
  dsimp only
  exact b.putLane.ckptAt.putNetLane.putLane

theorem State.bounded.launch {s : State} {l : Nat} (b : s.bounded) : (s.launch l).bounded := by
  unfold State.launch
  dsimp only
  exact (b.putLane.firstBoundary.keepHalf (by rfl)).putLane

theorem State.bounded.putQp {s : State} {h : HalfId} {q : Nat} {x : QueuePair} (b : s.bounded) : (s.putQp h q x).bounded := by
  unfold State.putQp
  exact b.keepHalf (by rfl)

theorem State.bounded.discardReplies {s : State} {p : Source → Bool} (b : s.bounded) : (s.discardReplies p).bounded := by
  unfold State.discardReplies
  exact b.of_halves (by rfl)

theorem State.bounded.writeQpCfg {s : State} {h : HalfId} {q v : Nat} (b : s.bounded) : (s.writeQpCfg h q v).bounded := by
  unfold State.writeQpCfg
  dsimp only
  exact State.bounded.ite b.putQp.discardReplies b.putQp

theorem State.bounded.sendPending {s : State} {h : HalfId} {vec : Nat} (b : s.bounded) : (s.sendPending h vec).bounded := by
  unfold State.sendPending
  dsimp only
  exact State.bounded.ite (b.keepHalf (by rfl)).message b

theorem State.bounded.unmask {s : State} {h : HalfId} {vec : Nat} (b : s.bounded) : (s.unmask h vec).bounded := by
  unfold State.unmask
  dsimp only
  exact (b.keepHalf (by rfl)).sendPending

theorem State.bounded.fail {s : State} {c : Cmd} {status detail : Nat} (b : s.bounded) : (s.fail c status detail).bounded := by
  unfold State.fail
  exact b.finish

theorem State.bounded.failLane {s : State} {c : Cmd} (b : s.bounded) : (s.failLane c).bounded := by
  unfold State.failLane
  exact b.fail

theorem State.bounded.takeTitle {s : State} {h : HalfId} {id : Nat} (b : s.bounded) : (s.takeTitle h id).bounded := by
  unfold State.takeTitle
  dsimp only
  exact b.keepHalf (by rfl)

theorem State.bounded.place {s : State} {l : Nat} {L : Lane} {z : Seats} (b : s.bounded) : (s.place l L z).bounded := by
  unfold State.place
  extract_lets h s₁ s₂
  have b₁ : s₁.bounded := b.takeTitle.foldl fun u a w => State.bounded.ite w (w.keepHalf (by rfl))
  have b₂ : s₂.bounded := ((b₁.putHalf (b₁.half _).seat).putLane).dropAllLines
  exact b₂.putNetLane.portEmpty

theorem State.bounded.laneStart {s : State} {c : Cmd} (b : s.bounded) : (s.laneStart c).bounded := by
  unfold State.laneStart
  dsimp only
  refine State.bounded.ite b.failLane ?_
  split
  · exact b.fail
  · split
    · exact b.fail
    · split
      · exact b.fail
      · split
        · exact b.fail
        · exact State.bounded.ite b.place.launch b.place

theorem State.bounded.done {s : State} {c : Cmd} {result : Bytes} (b : s.bounded) : (s.done c result).bounded := by
  unfold State.done
  exact b.finish

theorem State.bounded.lanePause {s : State} {c : Cmd} (b : s.bounded) : (s.lanePause c).bounded := by
  unfold State.lanePause
  dsimp only
  split
  · exact b.putLane
  · exact b.putLane
  · exact State.bounded.ite b.failLane b.putLane.done
  · exact b.failLane
  · exact b.failLane

theorem State.bounded.laneResume {s : State} {c : Cmd} (b : s.bounded) : (s.laneResume c).bounded := by
  unfold State.laneResume
  dsimp only
  exact State.bounded.ite b.fail (State.bounded.ite b.failLane b.resumeLane.done)

theorem State.bounded.laneNotify {s : State} {c : Cmd} (b : s.bounded) : (s.laneNotify c).bounded := by
  unfold State.laneNotify
  dsimp only
  exact State.bounded.ite b.failLane b.logInput.done

theorem State.bounded.viewerAdd {s : State} {c : Cmd} {h : HalfId} (b : s.bounded) : (s.viewerAdd c h).bounded := by
  unfold State.viewerAdd
  dsimp only
  split
  · exact b.fail
  · refine State.bounded.ite b.fail ?_
    refine State.bounded.ite b.fail ?_
    refine State.bounded.ite b.failLane ?_
    split
    · exact b.fail
    · exact State.bounded.ite b.fail ((State.bounded.ite (b.keepHalf (by rfl)).putLane.putNetLane (b.keepHalf (by rfl)).putLane).done)

theorem State.bounded.bind {s : State} {c : Cmd} {kind slot : Nat} {data : Bytes} (b : s.bounded) : (s.bind c kind slot data).bounded := by
  unfold State.bind
  dsimp only
  exact State.bounded.ite b.fail b.logInput

theorem State.bounded.opCommit {s : State} {c : Cmd} {h : HalfId} (b : s.bounded) : (s.opCommit c h).bounded := by
  unfold State.opCommit
  dsimp only
  exact State.bounded.ite b.failLane (State.bounded.ite b.fail b.bind)

theorem State.bounded.putTitle {s : State} {h : HalfId} {id : Nat} {t : Option Title} (b : s.bounded) : (s.putTitle h id t).bounded := by
  unfold State.putTitle
  dsimp only
  exact b.keepHalf (by rfl)

theorem State.bounded.dropTitle {s : State} {h : HalfId} {id a n : Nat} (b : s.bounded) : (s.dropTitle h id a n).bounded := by
  unfold State.dropTitle
  exact b.foldl (fun u k w => w.dropWritten)

theorem State.bounded.beginSnap {s : State} {l : Nat} {cmd : Option Nat} {live drain : Bool} (b : s.bounded) : (s.beginSnap l cmd live drain).bounded := by
  unfold State.beginSnap
  dsimp only
  exact b.putLane

theorem State.bounded.startImage {s : State} {l : Nat} {bs : Bytes} {z : Seats} {titleLen : Nat} {pause : Bool} (b : s.bounded) : (s.startImage l bs z titleLen pause).bounded := by
  unfold State.startImage
  dsimp only
  exact b.place.putLane

theorem Half.bounded.setMon {H : Half} {m : Monitors} (b : H.bounded) : (H.setMon m).bounded := by
  unfold Half.setMon
  exact b.of_eq (by rfl)

theorem State.bounded.setMon {s : State} {h : HalfId} {m : Monitors} (b : s.bounded) : (s.setMon h m).bounded := by
  unfold State.setMon
  exact b.keepHalf (by rfl)

theorem Half.bounded.flush {H : Half} {h : HalfId} {safe : Bool} (b : H.bounded) : (H.flush h safe).bounded := by
  unfold Half.flush
  dsimp only
  exact b.of_eq (by rfl)

theorem State.bounded.flush {s : State} {h : HalfId} {safe : Bool} (b : s.bounded) : (s.flush h safe).bounded := by
  unfold State.flush
  exact b.keepHalf (by rfl)

theorem State.bounded.addTest {s : State} {h : HalfId} {u : UnitKind} {i id : Nat} {retire : Bool} (b : s.bounded) : (s.addTest h u i id retire).bounded := by
  unfold State.addTest
  dsimp only
  exact (b.keepHalf (by rfl)).checkHalt

theorem State.bounded.pauseForTest {s : State} {l : Nat} (b : s.bounded) : (s.pauseForTest l).bounded := by
  unfold State.pauseForTest
  dsimp only
  split
  · exact b
  · exact b.putLane
  · exact b.putLane
  · exact b.putLane
  · exact b.putLane

theorem State.bounded.forceTest {s : State} {c : Cmd} {h : HalfId} {u : UnitKind} {i : Nat} {force retire : Bool} (b : s.bounded) : (s.forceTest c h u i force retire).bounded := by
  unfold State.forceTest
  exact State.bounded.ite ((b.foldl (fun u a w => w.pauseForTest)).addTest) b.fail

theorem State.bounded.askTest {s : State} {c : Cmd} {h : HalfId} {u : UnitKind} {i : Nat} {force retire : Bool} (b : s.bounded) : (s.askTest c h u i force retire).bounded := by
  unfold State.askTest
  dsimp only
  split
  · exact State.bounded.ite (b.keepHalf (by rfl)).addTest (State.bounded.ite b.forceTest (b.keepHalf (by rfl)).addTest)
  · exact State.bounded.ite (b.keepHalf (by rfl)).addTest (State.bounded.ite b.forceTest (b.keepHalf (by rfl)).addTest)
  · exact State.bounded.ite b.addTest (State.bounded.ite b.fail b.fail)
  · exact State.bounded.ite b.fail b.addTest
  · exact State.bounded.ite b.addTest b.forceTest
  · exact b

theorem State.bounded.afterInject {s : State} {f : FaultInfo} (b : s.bounded) : (s.afterInject f).bounded := by
  unfold State.afterInject
  exact (b.of_halves (by rfl)).fault

theorem Half.bounded.withAuth {H : Half} (b : H.bounded) (x : Authority) : ({ H with auth := x } : Half).bounded := b

theorem State.bounded.loseWire {s : State} {w : Nat} (b : s.bounded) : (s.loseWire w).bounded := by
  unfold State.loseWire
  extract_lets off
  exact State.bounded.of_both (b.east.withAuth _) (b.west.withAuth _)

theorem State.bounded.injectOne {s : State} {h : HalfId} {site idx x : Nat} (b : s.bounded) : (s.injectOne h site idx x).bounded := by
  unfold State.injectOne
  refine State.bounded.ite b ?_
  refine State.bounded.ite (b.of_halves (by rfl)).hbmRead ?_
  refine State.bounded.ite b.hbmRead ?_
  split
  · exact (State.bounded.ite b.loseWire b).afterInject
  · exact b

theorem State.bounded.presEvent {s : State} {kind source left : Nat} (b : s.bounded) : (s.presEvent kind source left).bounded := by
  unfold State.presEvent
  split
  · exact b.event
  · exact b

theorem State.bounded.chargeDue {s : State} (b : s.bounded) : (s.chargeDue).bounded := by
  unfold State.chargeDue
  split
  · exact b.keepHalf (by rfl)
  · exact b

theorem State.bounded.chargeCount {s : State} {off : Nat} (b : s.bounded) : (s.chargeCount off).bounded := by
  unfold State.chargeCount
  split
  · exact b.lifeAdd
  · exact b

theorem State.bounded.tamper {s : State} (b : s.bounded) : (s.tamper).bounded := by
  unfold State.tamper
  refine State.bounded.ite b ?_
  extract_lets src was s₁ s₂ s₃ lock s₄
  have told : s₂.bounded := State.bounded.ite (State.bounded.presEvent (b.of_halves (by rfl))) (b.of_halves (by rfl))
  have counted : s₃.bounded := told.chargeCount.chargeDue
  have locked : s₄.bounded := State.bounded.of_both (counted.east.of_eq (by rfl)) (counted.west.of_eq (by rfl))
  exact locked.foldl fun t id d => d.finish

theorem State.bounded.endGrant {s : State} {kind : Nat} (b : s.bounded) : (s.endGrant kind).bounded := by
  unfold State.endGrant
  dsimp only
  split
  · exact b
  · exact State.bounded.ite (b.of_halves (by rfl)).presEvent.tamper (b.of_halves (by rfl)).presEvent

theorem Half.bounded.setControl {H : Half} {k : Option Control} (b : H.bounded) : (H.setControl k).bounded := by
  unfold Half.setControl
  dsimp only
  exact b.of_eq (by rfl)

theorem State.bounded.settlePorts {s : State} (b : s.bounded) : (s.settlePorts).bounded := by
  unfold State.settlePorts
  exact b.foldl (fun u a w => w.settleSub.settleSub)

theorem Half.bounded.saveSettings {H : Half} (b : H.bounded) : (H.saveSettings).bounded := by
  unfold Half.saveSettings
  dsimp only
  exact b.of_eq (by rfl)

theorem State.bounded.drainLane {s : State} {l : Nat} (b : s.bounded) : (s.drainLane l).bounded := by
  unfold State.drainLane
  dsimp only
  split
  · exact State.bounded.ite b b.putLane
  · exact State.bounded.ite b (State.bounded.ite b.beginSnap b.putLane)

theorem State.bounded.drainMore {s : State} {h : HalfId} (b : s.bounded) : (s.drainMore h).bounded := by
  unfold State.drainMore
  exact State.bounded.ite b (b.foldl (fun u a w => w.drainLane))

theorem State.bounded.setDrain {s : State} {h : HalfId} {d : Drain} (b : s.bounded) : (s.setDrain h d).bounded := by
  unfold State.setDrain
  exact b.keepHalf (by rfl)

theorem State.bounded.beginDrain {s : State} {h : HalfId} {eject cmd : Bool} {began : Nat} (b : s.bounded) : (s.beginDrain h eject cmd began).bounded := by
  unfold State.beginDrain
  dsimp only
  exact b.setDrain.drainMore

theorem State.bounded.drainEvent {s : State} {h : HalfId} {kind lane data : Nat} (b : s.bounded) : (s.drainEvent h kind lane data).bounded := by
  unfold State.drainEvent
  exact b.event

theorem State.bounded.writeDirectory {s : State} {h : HalfId} (b : s.bounded) : (s.writeDirectory h).bounded := by
  unfold State.writeDirectory
  dsimp only
  exact State.bounded.ite b b.emit

theorem State.bounded.setBuffer {s : State} {h : HalfId} {dest addr size : Nat} (b : s.bounded) : (s.setBuffer h dest addr size).bounded := by
  unfold State.setBuffer
  dsimp only
  exact b.setDrain.writeDirectory

theorem State.bounded.bufferEverywhere {s : State} {h : HalfId} {dest addr size : Nat} (b : s.bounded) : (s.bufferEverywhere h dest addr size).bounded := by
  unfold State.bufferEverywhere
  dsimp only
  exact (b.foldl (fun u a w => State.bounded.ite w.setBuffer w)).drainEvent

theorem State.bounded.recordOwn {s : State} {h : HalfId} {f : FaultInfo} {time flags : Nat} (b : s.bounded) : (s.recordOwn h f time flags).bounded := by
  unfold State.recordOwn
  dsimp only
  exact b.countFault.record

theorem State.bounded.thaw {s : State} {l : Nat} {command : Bool} (b : s.bounded) : (s.thaw l command).bounded := by
  unfold State.thaw
  dsimp only
  split
  · exact b.putLane
  · exact State.bounded.ite b.putLane b.putLane.resumeLane

theorem State.bounded.abandonSnap {s : State} {l : Nat} (b : s.bounded) : (s.abandonSnap l).bounded := by
  unfold State.abandonSnap
  dsimp only
  split
  · exact b
  · exact State.bounded.ite b (State.bounded.ite b.thaw (State.bounded.ite b.putLane b.putLane))

theorem State.bounded.faultBegun {s : State} {h : HalfId} {rec' : Nat} (b : s.bounded) : (s.faultBegun h rec').bounded := by
  unfold State.faultBegun
  dsimp only
  exact (((b.foldl (fun u a w => w.abandonSnap)).keepHalf (by rfl))).foldl (fun u a w => w.finish)

theorem Half.heldInReset_bounded (H : Half) (h : HalfId) : (H.heldInReset h).bounded := (Half.bounded.reset h).of_eq (by rfl)

theorem State.bounded.recordOther {s : State} {h of : HalfId} {cls action levee : Nat} (b : s.bounded) : (s.recordOther h of cls action levee).bounded := by
  unfold State.recordOther
  dsimp only
  exact b.countFault.record

theorem State.bounded.noteDown {s : State} {h : HalfId} {cls : Nat} (b : s.bounded) : (s.noteDown h cls).bounded := by
  unfold State.noteDown
  dsimp only
  exact State.bounded.ite b b.recordOther

theorem State.bounded.goDown {s : State} {h : HalfId} (b : s.bounded) : (s.goDown h).bounded := by
  unfold State.goDown
  dsimp only
  refine State.bounded.of_halves (State.bounded.foldl (fun t id d => d.finish) (State.bounded.noteDown (b.putHalf ?_))) (by rfl)
  exact ((s.half h).heldInReset_bounded h).of_eq (by rfl)

theorem State.bounded.endTest {s : State} {l : Nat} (b : s.bounded) : (s.endTest l).bounded := by
  unfold State.endTest
  dsimp only
  exact State.bounded.ite b (State.bounded.ite b.putLane b.putLane.resumeLane)

theorem State.bounded.passUnit {s : State} {h : HalfId} {u : UnitKind} {i : Nat} (b : s.bounded) : (s.passUnit h u i).bounded := by
  unfold State.passUnit Half.setSp
  dsimp only
  refine State.bounded.checkHalt (b.putHalf ((b.half h).of_parts (by rfl) ?_))
  dsimp only
  split
  · split <;> rfl
  · split <;> rfl
  · rfl

theorem State.bounded.keepPaused {s : State} {h : HalfId} {l unitNo : Nat} (b : s.bounded) : (s.keepPaused h l unitNo).bounded := by
  unfold State.keepPaused
  dsimp only
  exact State.bounded.ite b b.putLane.recordFault

theorem State.bounded.takeOut {s : State} {h : HalfId} {u : UnitKind} {i : Nat} (b : s.bounded) : (s.takeOut h u i).bounded := by
  unfold State.takeOut
  dsimp only
  split
  · split
    · exact b.retire.mapUnit.checkHalt
    · exact b.retire.foldl (fun u a w => w.keepPaused)
  · exact ((b.retire.foldl (fun u a w => w.putLane)).leaveCore).checkHalt
  · exact b.retire.foldl (fun u a w => w.keepPaused)
  · exact b.retire.keepHalf (by rfl)
  · exact b.retire
  · exact b.retire

theorem Half.bounded.lifeHot {H : Half} (b : H.bounded) : (H.lifeHot).bounded := by
  unfold Half.lifeHot
  exact Half.bounded.ite b.lifePut b

theorem State.bounded.monEventAt {s : State} {h : HalfId} {stage kind cls idx : Nat} {value : Int} {source : Nat} (b : s.bounded) : (s.monEventAt h stage kind cls idx value source).bounded := by
  unfold State.monEventAt
  exact b.event

theorem State.bounded.monEvent {s : State} {h : HalfId} {kind cls idx : Nat} {value : Int} {source : Nat} (b : s.bounded) : (s.monEvent h kind cls idx value source).bounded := by
  unfold State.monEvent
  exact b.monEventAt

theorem State.bounded.setStage {s : State} {h : HalfId} {k : Nat} (b : s.bounded) : (s.setStage h k).bounded := by
  unfold State.setStage
  dsimp only
  exact State.bounded.ite b b.setMon.monEvent

theorem Half.bounded.frozen {H : Half} (b : H.bounded) : (H.frozen).bounded := by
  unfold Half.frozen
  dsimp only
  exact b.foldl (fun K a w => Half.bounded.ite w.putLane w)

theorem Half.device_bounded (H : Half) (h : HalfId) (p : Pins) (t : Boot) : (H.device h p t).bounded := (Half.bounded.reset h).of_eq (by rfl)

theorem State.bounded.device {s : State} {e w : Half} (d : e.bounded) (d' : w.bounded) : (s.device e w).bounded :=
  State.bounded.of_both d d'

theorem State.bounded.unlockdown {s : State} (b : s.bounded) : (s.unlockdown).bounded := by
  unfold State.unlockdown
  extract_lets free
  refine State.bounded.presEvent (State.bounded.of_both ?_ ?_)
  · exact b.east.of_eq (by rfl)
  · exact b.west.of_eq (by rfl)

theorem State.bounded.powerDown {s : State} : (s.powerDown).bounded := by
  unfold State.powerDown
  extract_lets _ t
  have down : (s.device (s.east.device .east (.reset .east) t) (s.west.device .west (.reset .west) t)).bounded :=
    State.bounded.device (Half.device_bounded ..) (Half.device_bounded ..)
  exact down.of_halves (by rfl)

theorem Half.bounded.setBoot {H : Half} {bs : Boot} (b : H.bounded) : (H.setBoot bs).bounded := by
  unfold Half.setBoot
  exact b.of_eq (by rfl)

theorem State.bounded.failBoot {s : State} {h : HalfId} {err : Nat} (b : s.bounded) : (s.failBoot h err).bounded := by
  unfold State.failBoot
  dsimp only
  exact (b.putHalf ((s.half h).heldInReset_bounded h).setBoot).noteDown

theorem Half.bounded.loadSettings {H : Half} (b : H.bounded) : (H.loadSettings).bounded := by
  unfold Half.loadSettings
  dsimp only
  exact b.of_eq (by rfl)

theorem Half.bounded.listens {H : Half} {time : Nat} (b : H.bounded) : (H.listens time).bounded := by
  unfold Half.listens
  dsimp only
  exact b.of_eq (by rfl)

theorem State.bounded.compareStraps {s : State} {h : HalfId} (b : s.bounded) : (s.compareStraps h).bounded := by
  unfold State.compareStraps
  dsimp only
  exact b.keepHalf (by rfl)

theorem State.bounded.loadLife {s : State} {h : HalfId} (b : s.bounded) : (s.loadLife h).bounded := by
  unfold State.loadLife
  extract_lets H P own mirror src image m safe _ H₁ H₂ H₃ H₄ _ _ H₅ old us new H₆ us' pcs spares core _ p H₇ s₁
  have read : H₂.bounded := ((b.half h).of_eq (by rfl)).lifeAdd
  have cycled : H₃.bounded := Half.bounded.ite read.lifeAdd read
  have counted : H₄.bounded := Half.bounded.ite cycled.lifeAdd cycled
  have joined : H₆.bounded := Half.bounded.foldl (fun K u d => d.lifeBit) (counted.of_eq (by rfl))
  have loaded : s₁.bounded := b.putHalf (joined.of_eq (by rfl))
  exact State.bounded.ite loaded loaded.monEvent

theorem Half.bounded.startSystem {H : Half} (b : H.bounded) : (H.startSystem).bounded := by
  unfold Half.startSystem
  exact b.foldl (fun K a w => w.restartSystem)

theorem Half.bounded.replaceRetired {H : Half} {h : HalfId} (b : H.bounded) : (H.replaceRetired h).bounded := by
  unfold Half.replaceRetired
  dsimp only
  refine Half.bounded.foldl ?_ ?_
  · intro K a w
    refine Half.bounded.ite ?_ w
    split
    · exact w.of_eq (by rfl)
    · exact w
  · refine b.foldl ?_
    intro K a w
    refine Half.bounded.ite ?_ w
    split
    · exact w.of_eq (by rfl)
    · exact w

theorem State.bounded.grantAction {s : State} {source : Nat} (b : s.bounded) : (s.grantAction source).bounded := by
  unfold State.grantAction
  extract_lets s₁
  have settled : s₁.bounded := State.bounded.ite b.endGrant b
  refine State.bounded.ite settled ?_
  split
  · exact State.bounded.ite settled (State.bounded.presEvent (settled.of_halves (by rfl)))
  · exact State.bounded.presEvent (State.bounded.chargeCount (settled.of_halves (by rfl)))

theorem State.bounded.giveUpBuffer {s : State} {h : HalfId} (b : s.bounded) : (s.giveUpBuffer h).bounded := by
  unfold State.giveUpBuffer
  dsimp only
  exact State.bounded.ite b (b.setDrain.foldl (fun u a w => w.putLane))

theorem State.bounded.makeImage {s : State} {l : Nat} {c : Checkpoint} {live : Bool} (b : s.bounded) : (s.makeImage l c live).1.bounded := by
  unfold State.makeImage
  dsimp only
  exact b.of_halves (by rfl)

theorem State.bounded.sendViewers {s : State} {l : Nat} {plans : Bool} {reason frame : Nat} (b : s.bounded) : (s.sendViewers l plans reason frame).bounded := by
  unfold State.sendViewers
  dsimp only
  refine b.foldl ?_
  intro u a w
  split
  · exact State.bounded.ite w w.sentBy
  · exact w.sentBy

theorem State.bounded.finishSnapshot {s : State} {l : Nat} {k : Checkpoint} {c : Cmd} {live : Bool} (b : s.bounded) : (s.finishSnapshot l k c live).bounded := by
  unfold State.finishSnapshot
  dsimp only
  refine State.bounded.ite b.fail.thaw ?_
  split
  · exact b.makeImage.emit.done.thaw
  · exact b.makeImage.emit.done.thaw
  · exact b.makeImage.emit.done.stopLane

theorem State.bounded.loseImage {s : State} {l : Nat} (b : s.bounded) : (s.loseImage l).bounded := by
  unfold State.loseImage
  dsimp only
  exact b.writeEntry.putLane.setDrain.drainEvent.sendViewers

theorem State.bounded.writeImage {s : State} {l : Nat} {bs : Bytes} (b : s.bounded) : (s.writeImage l bs).bounded := by
  unfold State.writeImage
  dsimp only
  exact State.bounded.ite b.emit.emit.putLane.setDrain.drainEvent.sendViewers b.emit.emit.putLane.setDrain.drainEvent.sendViewers

theorem State.bounded.setBand {s : State} {h : HalfId} {band ohms : Nat} (b : s.bounded) : (s.setBand h band ohms).bounded := by
  unfold State.setBand
  dsimp only
  exact State.bounded.ite (b.keepHalf (by rfl)).tamper (b.keepHalf (by rfl))

theorem State.bounded.senseSeal {s : State} {h : HalfId} (b : s.bounded) : (s.senseSeal h).bounded := by
  unfold State.senseSeal
  exact State.bounded.ite b.setBand b

theorem State.bounded.deny {s : State} {h : HalfId} (b : s.bounded) : (s.deny h).bounded := by
  unfold State.deny
  dsimp only
  exact b.keepHalf (by rfl)

theorem State.bounded.switchPin {s : State} {h : HalfId} {i sel : Nat} (b : s.bounded) : (s.switchPin h i sel).bounded := by
  unfold State.switchPin
  dsimp only
  exact (b.keepHalf (by rfl)).senseSeal

theorem State.bounded.writeMux {s : State} {h : HalfId} {i v : Nat} (b : s.bounded) : (s.writeMux h i v).bounded := by
  unfold State.writeMux
  dsimp only
  exact State.bounded.ite b.deny (State.bounded.ite b b.switchPin)

theorem State.bounded.raisePins {s : State} {h : HalfId} {m : Word} (b : s.bounded) : (s.raisePins h m).bounded := by
  unfold State.raisePins
  dsimp only
  exact State.bounded.ite (b.keepHalf (by rfl)).message (b.keepHalf (by rfl))

theorem State.bounded.writePinCfg {s : State} {h : HalfId} {i v : Nat} (b : s.bounded) : (s.writePinCfg h i v).bounded := by
  unfold State.writePinCfg
  dsimp only
  exact State.bounded.ite b.deny (b.keepHalf (by rfl)).raisePins.senseSeal

theorem State.bounded.writePin {s : State} {h : HalfId} {off v : Nat} (b : s.bounded) : (s.writePin h off v).bounded := by
  unfold State.writePin
  dsimp only
  split
  · exact b.writeMux
  · exact b.writePinCfg
  · exact (b.keepHalf (by rfl)).raisePins
  · split
    · exact b.keepHalf (by rfl)
    · exact b.keepHalf (by rfl)
    · exact b.keepHalf (by rfl)
    · exact b.keepHalf (by rfl)
    · exact b.keepHalf (by rfl)
    · exact b.keepHalf (by rfl)
    · exact b

theorem State.bounded.writeMsix {s : State} {h : HalfId} {off v : Nat} (b : s.bounded) : (s.writeMsix h off v).bounded := by
  unfold State.writeMsix
  dsimp only
  refine State.bounded.ite b ?_
  split
  · exact b.keepHalf (by rfl)
  · exact b.keepHalf (by rfl)
  · exact b.keepHalf (by rfl)
  · exact State.bounded.ite (b.keepHalf (by rfl)) (State.bounded.ite b.unmask b)
  · exact b

theorem State.bounded.writeMsixControl {s : State} {h : HalfId} {v : Nat} (b : s.bounded) : (s.writeMsixControl h v).bounded := by
  unfold State.writeMsixControl
  dsimp only
  exact (b.keepHalf (by rfl)).foldl (fun u a w => w.sendPending)

end Sys2Proof.Machine
end

section
/-! PROOFS. Operations that run others, the start of a half, and the registers of the event ring keep the bounds (R429, R455). -/
namespace Sys2Proof.Machine
open Sys2Proof

theorem State.bounded.checked {s : State} {c : Cmd} {l : List (Bool × Nat)} {f : State → State} (b : s.bounded)
    (w : ∀ t : State, t.bounded → (f t).bounded) : (s.checked c l f).bounded := by
  unfold State.checked
  split
  · exact b.fail
  · exact w s b
theorem State.bounded.onViewer {s : State} {c : Cmd} {l : List (Bool × Nat)} {f : State → Nat → Viewer → State} (b : s.bounded)
    (w : ∀ (t : State) v x, t.bounded → (f t v x).bounded) : (s.onViewer c l f).bounded := by
  unfold State.onViewer
  refine b.checked fun t d => ?_
  split
  · exact w t _ _ d
  · exact d.fail

theorem State.bounded.injectMore {s : State} {h : HalfId} {site idx x n : Nat} (b : s.bounded) : (s.injectMore h site idx x n).bounded := by
  induction n generalizing s with
  | zero => exact b
  | succ n ih => exact ih b.at.injectOne
theorem State.bounded.faultsLater {s : State} {h : HalfId} {l : List (Nat × LateFault)} (b : s.bounded) : (s.faultsLater h l).bounded := by
  induction l generalizing s with
  | nil => exact b
  | cons p rest ih =>
    unfold State.faultsLater
    refine State.bounded.ite (b.keepHalf (by rfl)) (ih ?_)
    have then' : ({ s with time := p.1 } : State).bounded := b.of_halves (by rfl)
    cases p.2 with
    | fault f => exact then'.fault.of_halves (by rfl)
    | hbm q row e => exact then'.hbmRead.of_halves (by rfl)

/-! The event ring. -/
theorem Half.bounded.putEv {H : Half} (b : H.bounded) {e : EventRing} (buf : e.buf.length < 64 + 2 ^ 12) (ring : e.en = true → e.cqlog ≤ 12) :
    (H.putEv e).bounded := ⟨buf, ring, b.2.2⟩
theorem EventRing.configure_buf (x : EventRing) (v : Nat) : (x.configure v).buf = x.buf := by
  unfold configure
  dsimp only
  split
  · rfl
  · split
    · rfl
    · split <;> rfl
theorem Half.bounded.configure {H : Half} (b : H.bounded) {v : Nat} : (H.putEv (H.ev.configure v)).bounded := by
  obtain ⟨buf, ring, _⟩ := id b
  exact b.putEv (by rw [EventRing.configure_buf]; exact buf) (EventRing.configure_cqlog ring v)
theorem State.bounded.resetFunction {s : State} {h : HalfId} (b : s.bounded) : (s.resetFunction h).bounded := by
  obtain ⟨buf, _, log⟩ := b.half h
  exact State.bounded.discardReplies (b.putHalf ⟨buf, nofun, log⟩)
theorem State.bounded.writeQueue {s : State} {h : HalfId} {off v : Nat} (b : s.bounded) : (s.writeQueue h off v).bounded := by
  unfold State.writeQueue
  dsimp only
  split
  · split
    · exact State.bounded.ite b b.putQp
    · exact State.bounded.ite b b.putQp
    · exact b.writeQpCfg
    · exact b.putQp
    · exact b.putQp
    · exact b
  · obtain ⟨buf, ring, _⟩ := b.half h
    split
    · exact State.bounded.ite b (b.putHalf ((b.half h).putEv buf ring))
    · exact b.putHalf (b.half h).configure
    · exact b.putHalf ((b.half h).putEv buf ring)
    · exact b

/-! Boot, the monitors and a move. -/
theorem Half.bounded.thermal {H : Half} {i : Nat} (b : H.bounded) : (H.thermal i).1.bounded := by
  unfold Half.thermal
  dsimp only
  exact b.setMon.lifeHot
theorem State.bounded.endStage {s : State} {h : HalfId} {full : Bool} (b : s.bounded) : (s.endStage h full).bounded := by
  unfold State.endStage
  extract_lets +onlyGivenNames H k _ s₁ K
  have begun : s₁.bounded := b.putHalf (b.half h).setBoot
  have half : K.bounded := begun.half h
  clear_value k K s₁
  have chosen (l : List Nat) : (K.chooseSlots l).1.bounded := half.chooseSlots
  dsimp only
  split
  · exact State.bounded.ite (begun.putHalf ((chosen [1]).of_eq (by rfl))) (State.bounded.failBoot (begun.putHalf (chosen [1]).setBoot))
  · exact begun.putHalf (chosen [5]).setBoot
  · exact begun.putHalf (Half.bounded.listens (half.of_eq (by rfl)))
  · have compared := State.bounded.compareStraps (h := h) begun
    have aligned := compared.putHalf (h := h) ((compared.half h).alignCompat (P := (s₁.compareStraps h).half (HalfId.peer h)))
    exact State.bounded.ite (State.bounded.ite aligned (State.bounded.failBoot (aligned.putHalf (aligned.half h).setBoot))) compared
  · have loaded := State.bounded.loadLife (h := h) (begun.putHalf (h := h) (chosen [2, 3, 4]))
    exact State.bounded.ite (State.bounded.checkHalt (loaded.putHalf (loaded.half h).replaceRetired.startSystem))
      (State.bounded.failBoot (begun.putHalf (chosen [2, 3, 4]).setBoot))
  · exact begun.putHalf half.loadSettings.setBoot
  · exact begun.putHalf (Half.bounded.flush (half.of_eq (by rfl)))
  · exact begun
theorem State.bounded.finishMove {s t : State} {l : Nat} {k : Checkpoint} {c : Cmd} (b : s.bounded) (e : s.finishMove l k c = some t) : t.bounded := by
  unfold State.finishMove at e
  extract_lets L g back at e
  have thawed (x : Nat × Nat) : (back x).bounded := b.fail.thaw
  split at e
  · cases e
    exact thawed _
  · split at e
    · cases e
    · split at e
      · cases e
        exact thawed _
      · cases e
        refine State.bounded.freeLane (State.bounded.abortAll (State.bounded.done (State.bounded.sendViewers ?_)))
        exact State.bounded.ite b.makeImage.startImage.putLane b.makeImage.startImage
theorem State.bounded.laneData {s t : State} {l v : Nat} {p : LoadPend} (b : s.bounded) (e : s.laneData l p = some (v, t)) : t.bounded := by
  unfold State.laneData at e
  dsimp only at e
  split at e
  · cases e
  · split at e
    · split at e
      · cases e
        exact b
      · cases e
    · split at e
      · cases e
        exact b
      · split at e
        · cases e
          exact b
        · cases e
          exact b.putHalf (b.half _).cachedRead

end Sys2Proof.Machine
end

section
/-! PROOFS. The commands of the host keep the bounds of the event buffer, the event ring and the fault log (R429, R455). -/
namespace Sys2Proof.Machine
open Sys2Proof

theorem State.bounded.viewerSet {s : State} {c : Cmd} {h : HalfId} (b : s.bounded) : (s.viewerSet c h).bounded := by
  unfold State.viewerSet
  dsimp only
  exact b.onViewer (fun t v x w => State.bounded.ite w.fail (w.keepHalf (by rfl)).done)
theorem State.bounded.viewerKeyframe {s : State} {c : Cmd} {h : HalfId} (b : s.bounded) : (s.viewerKeyframe c h).bounded := by
  unfold State.viewerKeyframe
  dsimp only
  refine b.checked fun t w => ?_
  split
  · exact w.fail
  · exact State.bounded.ite ((w.putCmd.foldl (fun u a d => d.mapViewer)).done) (w.putCmd.foldl (fun u a d => d.mapViewer))
theorem State.bounded.lanePacer {s : State} {c : Cmd} (b : s.bounded) : (s.lanePacer c).bounded := by
  unfold State.lanePacer
  dsimp only
  exact b.onViewer (fun t v x w => (State.bounded.ite w.putNetLane.unlock w.putNetLane).done)
theorem State.bounded.timingSet {s : State} {c : Cmd} {h : HalfId} (b : s.bounded) : (s.timingSet c h).bounded := by
  unfold State.timingSet
  dsimp only
  refine State.bounded.ite b.failLane ?_
  refine b.checked fun t w => ?_
  split
  · exact w.fail
  · split
    · exact w.fail
    · exact w.bind
theorem State.bounded.laneTune {s : State} {c : Cmd} (b : s.bounded) : (s.laneTune c).bounded := by
  unfold State.laneTune
  dsimp only
  exact b.checked (fun t w => State.bounded.ite w.failLane w.bind)
theorem State.bounded.opSet {s : State} {c : Cmd} (b : s.bounded) : (s.opSet c).bounded := by
  unfold State.opSet
  dsimp only
  refine b.checked fun t w => ?_
  split
  · exact w.fail
  · exact w.putLane.done
theorem State.bounded.xptSet {s : State} {c : Cmd} (b : s.bounded) : (s.xptSet c).bounded := by
  unfold State.xptSet
  dsimp only
  exact b.checked (fun t w => w.putLane.done)
theorem State.bounded.titleLoad {s : State} {c : Cmd} {h : HalfId} {data : Bytes} (b : s.bounded) : (s.titleLoad c h data).bounded := by
  unfold State.titleLoad
  dsimp only
  refine b.checked fun t w => ?_
  split
  · exact State.bounded.ite w.done w.fail
  · exact State.bounded.ite w.fail (State.bounded.ite w.fail (State.bounded.ite w.fail (State.bounded.ite w.fail w.putTitle.done)))
theorem State.bounded.titleUnload {s : State} {c : Cmd} {h : HalfId} (b : s.bounded) : (s.titleUnload c h).bounded := by
  unfold State.titleUnload
  dsimp only
  refine b.checked fun t w => ?_
  split
  · exact w.fail
  · exact w.putTitle.done
theorem State.bounded.titleRepair {s : State} {c : Cmd} {h : HalfId} {data : Bytes} (b : s.bounded) : (s.titleRepair c h data).bounded := by
  unfold State.titleRepair
  dsimp only
  refine b.checked fun t w => ?_
  split
  · exact w.fail
  · exact State.bounded.ite w.fail (State.bounded.ite w.fail (State.bounded.ite w.fail w.putTitle.dropTitle.done))
theorem State.bounded.laneSnapshot {s : State} {c : Cmd} (b : s.bounded) : (s.laneSnapshot c).bounded := by
  unfold State.laneSnapshot
  dsimp only
  exact b.checked (fun t w => State.bounded.ite w.failLane w.beginSnap)
theorem State.bounded.laneRestore {s : State} {c : Cmd} {h : HalfId} {image : Bytes} (b : s.bounded) : (s.laneRestore c h image).bounded := by
  unfold State.laneRestore
  dsimp only
  refine b.checked fun t w => ?_
  refine State.bounded.ite w.failLane ?_
  split
  · exact w.fail
  · split
    · exact w.fail
    · refine State.bounded.ite w.fail ?_
      split
      · exact w.fail
      · split
        · exact w.fail
        · split
          · exact w.fail
          · exact w.startImage.done
theorem State.bounded.movePlan {s : State} {c : Cmd} (b : s.bounded) : (s.movePlan c).bounded := by
  unfold State.movePlan
  dsimp only
  exact b.checked (fun t w => State.bounded.ite w.putNetLane.done w.fail)
theorem State.bounded.laneMove {s : State} {c : Cmd} (b : s.bounded) : (s.laneMove c).bounded := by
  unfold State.laneMove
  dsimp only
  refine b.checked fun t w => ?_
  refine State.bounded.ite w.failLane ?_
  split
  · exact w.fail
  · refine State.bounded.beginSnap ?_
    split
    · exact w.putTitle
    · exact w
theorem State.bounded.monRead {s : State} {c : Cmd} {h : HalfId} (b : s.bounded) : (s.monRead c h).bounded := by
  unfold State.monRead
  dsimp only
  exact b.checked (fun t w => w.done)
theorem State.bounded.monLimits {s : State} {c : Cmd} {h : HalfId} (b : s.bounded) : (s.monLimits c h).bounded := by
  unfold State.monLimits
  dsimp only
  exact b.checked (fun t w => w.setMon.done)
theorem State.bounded.lifeRead {s : State} {c : Cmd} {h : HalfId} (b : s.bounded) : (s.lifeRead c h).bounded := by
  unfold State.lifeRead
  dsimp only
  exact b.checked (fun t w => State.bounded.ite w.fail w.done)
theorem State.bounded.unitCmd {s : State} {c : Cmd} {h : HalfId} {flags : Nat} {retire : Bool} (b : s.bounded) : (s.unitCmd c h flags retire).bounded := by
  unfold State.unitCmd
  dsimp only
  exact b.checked (fun t w => w.askTest)
theorem State.bounded.faultRead {s : State} {c : Cmd} {h : HalfId} (b : s.bounded) : (s.faultRead c h).bounded := by
  unfold State.faultRead
  dsimp only
  exact b.checked (fun t w => State.bounded.ite w.done w.fail)
theorem State.bounded.faultInject {s : State} {c : Cmd} {h : HalfId} (b : s.bounded) : (s.faultInject c h).bounded := by
  unfold State.faultInject
  dsimp only
  exact b.checked (fun t w => State.bounded.ite w.injectOne.injectMore w.injectOne.injectMore.done)
theorem State.bounded.fwStage {s : State} {c : Cmd} {h : HalfId} {data : Bytes} (b : s.bounded) : (s.fwStage c h data).bounded := by
  unfold State.fwStage
  dsimp only
  exact b.checked (fun t w => State.bounded.ite w.fail (State.bounded.ite w.fail (State.bounded.ite w.done ((w.putHalf ((b.half _).of_eq (by rfl))).done))))
theorem State.bounded.fwCommit {s : State} {c : Cmd} {h : HalfId} (b : s.bounded) : (s.fwCommit c h).bounded := by
  unfold State.fwCommit
  dsimp only
  refine b.checked fun t w => ?_
  split
  · exact State.bounded.ite w.fail w.fail
  · split
    · exact w.fail
    · exact (w.putHalf ((((b.half _).of_eq (by rfl)).lifeAdd).lifeDue)).done
theorem State.bounded.fwQuery {s : State} {c : Cmd} {h : HalfId} (b : s.bounded) : (s.fwQuery c h).bounded := by
  unfold State.fwQuery
  exact b.checked (fun t w => w.done)
theorem State.bounded.ctrlFlow {s : State} {c : Cmd} {h : HalfId} (b : s.bounded) : (s.ctrlFlow c h).bounded := by
  unfold State.ctrlFlow
  dsimp only
  refine b.checked fun t w => ?_
  refine State.bounded.ite ((w.putHalf ((b.half _).setControl)).done) ?_
  split
  · exact w.fail
  · exact (w.putHalf ((b.half _).setControl)).done
  · exact (w.putHalf ((b.half _).setControl)).done
theorem State.bounded.portCfg {s : State} {c : Cmd} {h : HalfId} (b : s.bounded) : (s.portCfg c h).bounded := by
  unfold State.portCfg
  dsimp only
  exact b.checked (fun t w => State.bounded.ite w.fail (((w.putHalf (((b.half _).of_eq (by rfl)).saveSettings)).settlePorts).done))
theorem State.bounded.portAddr {s : State} {c : Cmd} {h : HalfId} (b : s.bounded) : (s.portAddr c h).bounded := by
  unfold State.portAddr
  dsimp only
  exact b.checked (fun t w => (w.putHalf (((b.half _).putSub).saveSettings)).done)
theorem State.bounded.portDrain {s : State} {c : Cmd} {h : HalfId} (b : s.bounded) : (s.portDrain c h).bounded := by
  unfold State.portDrain
  dsimp only
  exact b.checked (fun t w => State.bounded.ite ((w.putHalf ((b.half _).of_eq (by rfl))).done) ((w.putHalf ((b.half _).of_eq (by rfl))).portEmpty))
theorem State.bounded.regRead {s : State} {c : Cmd} {h : HalfId} (b : s.bounded) : (s.regRead c h).bounded := by
  unfold State.regRead
  dsimp only
  exact b.checked (fun t w => w.done)
theorem State.bounded.drainCmd {s : State} {c : Cmd} {h : HalfId} (b : s.bounded) : (s.drainCmd c h).bounded := by
  unfold State.drainCmd
  dsimp only
  refine b.checked fun t w => ?_
  refine State.bounded.ite (State.bounded.done ?_) (State.bounded.ite w.bufferEverywhere.done w.fail)
  exact State.bounded.ite w.beginDrain.drainEvent w.beginDrain.drainEvent.bufferEverywhere
theorem State.bounded.eventSub {s : State} {c : Cmd} (b : s.bounded) : (s.eventSub c).bounded := by
  unfold State.eventSub
  refine b.checked fun t w => ?_
  split
  · split
    · exact (w.keepHalf (by rfl)).done
    · exact w.done
  · exact w.fail
  · exact w.fail

end Sys2Proof.Machine
end

section
/-! PROOFS. What a command answers: where it faults, and that any other one goes on within the bounds (R429, R455). -/
namespace Sys2Proof.Machine
open Sys2Proof

/-- A next state, with the bounds where `s` has them. -/
def Res.leads (s : State) (r : Res) : Prop := ∃ t, r = .next t ∧ (s.bounded → t.bounded)
/-- No unit exactly where `bad`, and a next state elsewhere. -/
def Res.sound (s : State) (bad : Prop) (r : Res) : Prop := (bad → r = .fault .noUnit) ∧ (¬ bad → r.leads s)

theorem Res.leads.next {s t : State} (w : s.bounded → t.bounded) : Res.leads s (.next t) := ⟨t, rfl, w⟩
theorem Res.leads.stay {s t : State} (w : s.bounded → t.bounded) : Res.leads s (stay t) := .next w
theorem Res.leads.ite {s : State} {c : Prop} [Decidable c] {r q : Res} (w : r.leads s) (d : q.leads s) : Res.leads s (if c then r else q) := by
  split
  · exact w
  · exact d
theorem Res.leads.sound {s : State} {r : Res} (w : r.leads s) : r.sound s False := ⟨False.elim, fun _ => w⟩
theorem Res.sound.last {s : State} {c : Prop} [Decidable c] {r : Res} (w : r.leads s) : Res.sound s c (if c then noUnit else r) :=
  ⟨fun bad => if_pos bad, fun good => by rw [if_neg good]; exact w⟩
theorem Res.sound.guard {s : State} {c bad : Prop} [Decidable c] {r : Res} (w : r.sound s bad) : Res.sound s (c ∨ bad) (if c then noUnit else r) := by
  refine ⟨fun either => ?_, fun good => ?_⟩
  · split
    · rfl
    · next no => exact w.1 (either.resolve_left no)
  · rw [if_neg fun c => good (.inl c)]
    exact w.2 fun d => good (.inr d)
theorem Res.sound.both {s : State} {c : Prop} [Decidable c] {bad : Prop} {r q : Res} (w : r.sound s bad) (d : q.sound s bad) :
    Res.sound s bad (if c then r else q) := by
  split
  · exact w
  · exact d

theorem Res.sound.iff {s : State} {bad bad' : Prop} {r : Res} (w : r.sound s bad) (e : bad' ↔ bad) : r.sound s bad' :=
  ⟨fun no => w.1 (e.mp no), fun ok => w.2 fun no => ok (e.mpr no)⟩
/-- A command of a state that has the bounds where `s` has them. -/
theorem Res.sound.onState {s u : State} {bad : Prop} {r : Res} (b : s.bounded → u.bounded) (w : r.sound u bad) : r.sound s bad :=
  ⟨w.1, fun ok => let ⟨t, e, d⟩ := w.2 ok; ⟨t, e, fun i => d (b i)⟩⟩

/-! The operands that name no unit. -/
theorem Res.sound.ctx {s : State} {c : Ctx} {r : Res} (w : r.sound s ((!ctxOk c) = true)) : r.sound s (c.ok = false) := by
  refine w.iff ?_
  rw [Bool.not_eq_true']
  cases c <;> rfl
theorem Res.sound.unit {s : State} {n k : Nat} {r : Res} (w : r.sound s (n ≤ k)) : r.sound s (below n k = false) := w.iff (by simp [below])
theorem Res.sound.lane {s : State} {l : Nat} {r : Res} (w : r.sound s (256 ≤ l)) : r.sound s (laneOk l = false) := w.unit
theorem Res.sound.laneUnit {s : State} {n k l : Nat} {r : Res} (w : r.sound s (n ≤ k ∨ 256 ≤ l)) : r.sound s ((laneOk l && below n k) = false) :=
  w.iff (by simp [laneOk, below]; omega)
theorem Res.leads.always {s : State} {r : Res} (w : r.leads s) : r.sound s (true = false) := w.sound.iff (by simp)

/-! The forms of a command. -/
theorem Res.sound.onLane {s : State} {l : Nat} {f : Lane → Option (Lane × Nat)} : (s.onLane l f).sound s (256 ≤ l) := by
  unfold State.onLane
  refine .last ?_
  split
  · exact .stay id
  · exact .next fun b => b.putLane.ckptLost
theorem Res.sound.issue {s : State} {c : Ctx} {i : NInstr} {f : CoreEnv → Thread → Thread} : (s.issue c i f).sound s ((!ctxOk c) = true) := by
  unfold State.issue
  exact .last (.ite (.next fun b => b.tookSlot.putThread) (.stay id))
theorem Res.leads.except {s : State} {c : Ctx} {k : Cause} : (s.except c k).leads s := by
  unfold State.except
  exact .ite (.next fun b => b.tookSlot.putThread.afterThread) (.next fun b => b.tookSlot.putThread)
theorem Res.sound.fails {s : State} {c : Ctx} {i : NInstr} {k : Cause} : (s.fails c i k).sound s ((!ctxOk c) = true) := by
  unfold State.fails
  exact .last (.ite .except (.stay id))
theorem Res.leads.goOn {s : State} {l t : Nat} {q : Entering} : (s.goOn l t q).leads s := by
  unfold State.goOn
  dsimp only
  refine .ite ?_ (.stay id)
  split
  · refine .next fun b => State.bounded.afterThread ?_
    split
    · exact b.putThread.named
    · exact b.putThread
  · exact .stay id
theorem Res.leads.client {s : State} {h : HalfId} {rx : Rx} {tm type : Nat} {f : State → HalfId → Nat → Viewer → Bytes → State}
    (w : ∀ (t : State) h v x p, t.bounded → (f t h v x p).bounded) : (s.client h rx tm type f).leads s := by
  unfold State.client
  dsimp only
  split
  · exact .next fun b => b.at.discard
  · exact .stay fun b => b.at
  · refine .ite (.stay fun b => b.at) (.ite (.next fun b => ?_) (.next fun b => ?_))
    · exact State.bounded.discard (b.at.keepHalf (by rfl))
    · exact State.bounded.ite (w _ _ _ _ _ (b.at.keepHalf (by rfl))) (w _ _ _ _ _ ((b.at.keepHalf (by rfl)).keepHalf (by rfl)))
theorem Res.leads.opcode {op id tm : Nat} {f : State → Cmd → HalfId → State} {s : State}
    (w : ∀ (t : State) c h, t.bounded → (f t c h).bounded) : (opcode op id tm f s).leads s := by
  unfold Machine.opcode
  dsimp only
  split
  · exact .stay fun b => b.at
  · split
    · exact .stay fun b => b.at
    · split
      · exact .next fun b => b.at.finish
      · exact .next fun b => w _ _ _ b.at.putCmd
theorem Res.leads.hostWrite {s : State} {h : HalfId} {reg : Option RegValue} {width : Nat} {f : State → State}
    (w : ∀ t : State, t.bounded → (f t).bounded) : (s.hostWrite h reg width f).leads s := by
  unfold State.hostWrite
  refine .ite (.stay id) ?_
  split
  · exact .ite (.next (w s)) (.stay id)
  · exact .stay id
theorem Res.sound.licRow {off width v l w stamp : Nat} {s : State} : (licRow off width v l w stamp s).sound s (4 ≤ w ∨ 256 ≤ l) := by
  unfold Machine.licRow
  exact .guard .onLane
theorem Res.sound.timRow {off v vt l : Nat} {s : State} : (timRow off v vt l s).sound s (256 ≤ l) := .onLane
theorem Res.sound.timReadRow {off l : Nat} {s : State} : (timReadRow off l s).sound s (256 ≤ l) := .onLane
theorem Res.sound.sndRow {off v l : Nat} {s : State} : (sndRow off v l s).sound s (256 ≤ l) := .onLane
theorem Res.sound.inputRow {kind : Nat} {f : Lane → LaneInput → Lane} {l : Nat} {s : State} : (inputRow kind f l s).sound s (256 ≤ l) := .onLane
theorem Res.sound.queueRow {h : HalfId} {q : Nat} {c : Bool} {f : State → State} {s : State} (w : ∀ t : State, t.bounded → (f t).bounded) :
    (queueRow h q c f s).sound s (32 ≤ q) := by
  unfold Machine.queueRow
  exact .last (.ite (.stay id) (.next (w s)))
theorem Res.leads.eventRow {h : HalfId} {c : Bool} {f : EventRing → EventRing} {s : State}
    (w : ∀ t : State, t.bounded → ((t.half h).putEv (f (t.half h).ev)).bounded) : (eventRow h c f s).leads s := by
  unfold Machine.eventRow
  exact .ite (.stay id) (.next fun b => b.putHalf (w s b))
theorem Res.sound.pinRow {h : HalfId} {i : Nat} {f : State → State} {s : State} (w : ∀ t : State, t.bounded → (f t).bounded) :
    (pinRow h i f s).sound s (32 ≤ i) := by
  unfold Machine.pinRow
  exact .last (.ite (.stay id) (.next (w s)))

end Sys2Proof.Machine
end

section
/-! PROOFS. Where each command of the block faults, and that it keeps the bounds otherwise (R107, R429, R455). -/
namespace Sys2Proof.Machine
open Sys2Proof

theorem EventRing.take_keeps {e f : EventRing} {time : Nat} {x : Event} (taken : e.take time = some (x, f)) :
    f.buf.length ≤ e.buf.length ∧ f.en = e.en ∧ f.cqlog = e.cqlog := by
  unfold take at taken
  split at taken
  · cases taken
    exact ⟨Nat.le_refl _, rfl, rfl⟩
  · split at taken
    · cases taken
    · next queued =>
      cases taken
      exact ⟨by rw [queued]; exact Nat.le_succ _, rfl, rfl⟩

/-! The commands that are of one form. -/
theorem execAluOp_sound {c : Ctx} {fn : AluFn} {rd ra rb rc : RegNo} {s : State} : (execAluOp c fn rd ra rb rc s).sound s ((!ctxOk c) = true) := .issue
theorem execImmediateOp_sound {c : Ctx} {fn : ImmFn} {rd ra : RegNo} {imm : BitVec 16} {s : State} : (execImmediateOp c fn rd ra imm s).sound s ((!ctxOk c) = true) := .issue
theorem execMulOp_sound {c : Ctx} {fn : MulFn} {rd ra rb rc : RegNo} {s : State} : (execMulOp c fn rd ra rb rc s).sound s ((!ctxOk c) = true) := .issue
theorem execDivOp_sound {c : Ctx} {fn : DivFn} {rd ra rb rc : RegNo} {s : State} : (execDivOp c fn rd ra rb rc s).sound s ((!ctxOk c) = true) := .issue
theorem execFpOp_sound {c : Ctx} {p : FpPrec} {fn : FpFn} {rd ra rb rc : RegNo} {s : State} : (execFpOp c p fn rd ra rb rc s).sound s ((!ctxOk c) = true) := .issue
theorem execFmaOp_sound {c : Ctx} {p : FpPrec} {np na : Bool} {rd ra rb rc : RegNo} {s : State} : (execFmaOp c p np na rd ra rb rc s).sound s ((!ctxOk c) = true) := .issue
theorem execCompareAndBranch_sound {c : Ctx} {fn : BrFn} {ra rb : RegNo} {off : BitVec 16} {s : State} : (execCompareAndBranch c fn ra rb off s).sound s ((!ctxOk c) = true) := .issue
theorem execJ_sound {c : Ctx} {off : BitVec 26} {s : State} : (execJ c off s).sound s ((!ctxOk c) = true) := .issue
theorem execJal_sound {c : Ctx} {off : BitVec 26} {s : State} : (execJal c off s).sound s ((!ctxOk c) = true) := .issue
theorem execJalr_sound {c : Ctx} {rd ra : RegNo} {imm : BitVec 16} {s : State} : (execJalr c rd ra imm s).sound s ((!ctxOk c) = true) := .both .fails .issue
theorem execEcall_sound {c : Ctx} {n : BitVec 12} {s : State} : (execEcall c n s).sound s ((!ctxOk c) = true) := .fails
theorem execEbreak_sound {c : Ctx} {s : State} : (execEbreak c s).sound s ((!ctxOk c) = true) := .fails
theorem execWait_sound {c : Ctx} {s : State} : (execWait c s).sound s ((!ctxOk c) = true) := by
  unfold execWait
  exact .issue
theorem execVideoGateWrite_sound {l : Nat} {s : State} : (execVideoGateWrite l s).sound s (256 ≤ l) := .onLane
theorem execBeamWriteApply_sound {l : Nat} {s : State} : (execBeamWriteApply l s).sound s (256 ≤ l) := .onLane
theorem execStampedReadRelease_sound {l t : Nat} {s : State} : (execStampedReadRelease l t s).sound s (256 ≤ l) := .onLane
theorem execMilestone_sound {l : Nat} {s : State} : (execMilestone l s).sound s (256 ≤ l) := .onLane
theorem execSlackHold_sound {l v tm : Nat} {s : State} : (execSlackHold l v tm s).sound s (256 ≤ l) := .onLane
theorem execSlackHoldEnd_sound {l tm : Nat} {s : State} : (execSlackHoldEnd l tm s).sound s (256 ≤ l) := .onLane
theorem execVblankHoldEnd_sound {l tm : Nat} {s : State} : (execVblankHoldEnd l tm s).sound s (256 ≤ l) := by
  unfold execVblankHoldEnd
  exact .onLane
theorem execCrossThreadEffect_sound {l : Nat} {s : State} : (execCrossThreadEffect l s).sound s (256 ≤ l) := .onLane
theorem execThrCtlStart_sound {l w t stamp : Nat} {s : State} : (execThrCtlStart l w t stamp s).sound s ((4 ≤ w ∨ 4 ≤ t) ∨ 256 ≤ l) := .guard .onLane
theorem execThrCtlExit_sound {l w t stamp : Nat} {s : State} : (execThrCtlExit l w t stamp s).sound s ((4 ≤ w ∨ 4 ≤ t) ∨ 256 ≤ l) := .guard .onLane
theorem execLicSourcePending_sound {l n : Nat} {s : State} : (execLicSourcePending l n s).sound s (64 ≤ n ∨ 256 ≤ l) := .guard .onLane
theorem execLicEoi_sound {l w stamp : Nat} {v : BitVec 32} {s : State} : (execLicEoi l w stamp v s).sound s (4 ≤ w ∨ 256 ≤ l) := .licRow
theorem execLicEnableSet_sound {l w stamp : Nat} {v : BitVec 64} {s : State} : (execLicEnableSet l w stamp v s).sound s (4 ≤ w ∨ 256 ≤ l) := .licRow
theorem execLicEnableClr_sound {l w stamp : Nat} {v : BitVec 64} {s : State} : (execLicEnableClr l w stamp v s).sound s (4 ≤ w ∨ 256 ≤ l) := .licRow
theorem execLicPendClear_sound {l w stamp : Nat} {v : BitVec 64} {s : State} : (execLicPendClear l w stamp v s).sound s (4 ≤ w ∨ 256 ≤ l) := .licRow
theorem execLicPendSet_sound {l w stamp : Nat} {v : BitVec 64} {s : State} : (execLicPendSet l w stamp v s).sound s (4 ≤ w ∨ 256 ≤ l) := .licRow
theorem execTimerTick_sound {l n : Nat} {s : State} : (execTimerTick l n s).sound s (8 ≤ n ∨ 256 ≤ l) := .guard .onLane
theorem execTimerWrap_sound {l n : Nat} {s : State} : (execTimerWrap l n s).sound s (8 ≤ n ∨ 256 ≤ l) := .guard .onLane
theorem execTimerCompare_sound {l n vt : Nat} {s : State} : (execTimerCompare l n vt s).sound s (8 ≤ n ∨ 256 ≤ l) := .guard .onLane
theorem execTimCtlWrite_sound {l n : Nat} {v : BitVec 32} {vt : Nat} {s : State} : (execTimCtlWrite l n v vt s).sound s (8 ≤ n ∨ 256 ≤ l) := .guard .timRow
theorem execTimCntWrite_sound {l n : Nat} {v : BitVec 32} {vt : Nat} {s : State} : (execTimCntWrite l n v vt s).sound s (8 ≤ n ∨ 256 ≤ l) := .guard .timRow
theorem execTimCmpWrite_sound {l n : Nat} {v : BitVec 32} {vt : Nat} {s : State} : (execTimCmpWrite l n v vt s).sound s (8 ≤ n ∨ 256 ≤ l) := .guard .timRow
theorem execTimerStart_sound {l n : Nat} {v : BitVec 32} {vt : Nat} {s : State} : (execTimerStart l n v vt s).sound s (8 ≤ n ∨ 256 ≤ l) := .guard (.both .timRow .onLane)
theorem execTimerStop_sound {l n : Nat} {v : BitVec 32} {vt : Nat} {s : State} : (execTimerStop l n v vt s).sound s (8 ≤ n ∨ 256 ≤ l) := .guard (.both .timRow .onLane)
theorem execTimCapTrig_sound {l : Nat} {v : BitVec 32} {vt : Nat} {s : State} : (execTimCapTrig l v vt s).sound s (256 ≤ l) := .timRow
theorem execTimCapRead_sound {l n : Nat} {s : State} : (execTimCapRead l n s).sound s (8 ≤ n ∨ 256 ≤ l) := .guard .timReadRow
theorem execTimCntPairRead_sound {l k : Nat} {s : State} : (execTimCntPairRead l k s).sound s (4 ≤ k ∨ 256 ≤ l) := .guard .timReadRow
theorem execLineFetchStart_sound {l : Nat} {p : Pass} {s : State} : (execLineFetchStart l p s).sound s (256 ≤ l) := .onLane
theorem execLineFetchComplete_sound {l : Nat} {p : Pass} {s : State} : (execLineFetchComplete l p s).sound s (256 ≤ l) := .onLane
theorem execOpacityRescan_sound {l : Nat} {s : State} : (execOpacityRescan l s).sound s (256 ≤ l) := .onLane
theorem execRasOpqWrite_sound {l j : Nat} {v : BitVec 64} {s : State} : (execRasOpqWrite l j v s).sound s (2 ≤ j ∨ 256 ≤ l) := .guard .onLane
theorem execTapFrameEnd_sound {l : Nat} {s : State} : (execTapFrameEnd l s).sound s (256 ≤ l) := .onLane
theorem execCpsCommitReq_sound {l : Nat} {v : BitVec 32} {vt : Nat} {s : State} : (execCpsCommitReq l v vt s).sound s (256 ≤ l) := .onLane
theorem execOverlayCopy_sound {l : Nat} {s : State} : (execOverlayCopy l s).sound s (256 ≤ l) := .onLane
theorem execCpsTapIdxWrite_sound {l : Nat} {v : BitVec 64} {s : State} : (execCpsTapIdxWrite l v s).sound s (256 ≤ l) := .onLane
theorem execBltStart_sound {l : Nat} {v : BitVec 32} {vt : Nat} {s : State} : (execBltStart l v vt s).sound s (256 ≤ l) := .onLane
theorem execBltEnd_sound {l : Nat} {s : State} : (execBltEnd l s).sound s (256 ≤ l) := .onLane
theorem execSoundFetchStart_sound {l : Nat} {s : State} : (execSoundFetchStart l s).sound s (256 ≤ l) := .onLane
theorem execSndGateSet_sound {l : Nat} {v : BitVec 64} {s : State} : (execSndGateSet l v s).sound s (256 ≤ l) := .sndRow
theorem execSndGateClr_sound {l : Nat} {v : BitVec 64} {s : State} : (execSndGateClr l v s).sound s (256 ≤ l) := .sndRow
theorem execSndRetrig_sound {l : Nat} {v : BitVec 64} {s : State} : (execSndRetrig l v s).sound s (256 ≤ l) := .sndRow
theorem execSndEchoCtlWrite_sound {l : Nat} {v : BitVec 64} {s : State} : (execSndEchoCtlWrite l v s).sound s (256 ≤ l) := .sndRow
theorem execWeirInput_sound {l w : Nat} {s : State} : (execWeirInput l w s).sound s (5 ≤ w ∨ 256 ≤ l) := .guard .onLane
theorem execStreamSample_sound {l : Nat} {s : State} : (execStreamSample l s).sound s (256 ≤ l) := .onLane
theorem execNodeTimeout_sound {l o i : Nat} {s : State} : (execNodeTimeout l o i s).sound s ((6 ≤ o ∨ 8 ≤ i) ∨ 256 ≤ l) := .guard .onLane
theorem execOpusFrameEncode_sound {l o : Nat} {s : State} : (execOpusFrameEncode l o s).sound s (5 ≤ o ∨ 256 ≤ l) := .guard .onLane
theorem execAck_leads {h : HalfId} {rx : Rx} {tm : Nat} {s : State} : (execAck h rx tm s).leads s := .client fun _ _ _ _ _ b => b.keepHalf (by rfl)
theorem execPadInputApply_sound {l : Nat} {s : State} : (execPadInputApply l s).sound s (256 ≤ l) := .inputRow
theorem execAccessoryApply_sound {l : Nat} {s : State} : (execAccessoryApply l s).sound s (256 ≤ l) := .inputRow
theorem execViewerChangeApply_sound {l : Nat} {s : State} : (execViewerChangeApply l s).sound s (256 ≤ l) := .inputRow
theorem execNotifyApply_sound {l : Nat} {s : State} : (execNotifyApply l s).sound s (256 ≤ l) := .inputRow
theorem execContextCapture_sound {l t : Nat} {s : State} : (execContextCapture l t s).sound s (4 ≤ t ∨ 256 ≤ l) := .guard .onLane
theorem execNearSramPageCopy_sound {l : Nat} {s : State} : (execNearSramPageCopy l s).sound s (256 ≤ l) := .onLane
theorem execLaneUnitStateRecord_sound {l : Nat} {s : State} : (execLaneUnitStateRecord l s).sound s (256 ≤ l) := .onLane
theorem execCheckpointGood_sound {l tm : Nat} {s : State} : (execCheckpointGood l tm s).sound s (256 ≤ l) := by
  unfold execCheckpointGood
  exact .onLane
theorem execSqTailWrite_sound {h : HalfId} {q : Nat} {v : BitVec 32} {s : State} : (execSqTailWrite h q v s).sound s (32 ≤ q) := .queueRow fun _ b => b.putQp
theorem execCqHeadWrite_sound {h : HalfId} {q : Nat} {v : BitVec 32} {s : State} : (execCqHeadWrite h q v s).sound s (32 ≤ q) := .queueRow fun _ b => b.putQp
theorem execQueuePairEnable_sound {h : HalfId} {q : Nat} {v : BitVec 32} {s : State} : (execQueuePairEnable h q v s).sound s (32 ≤ q) := .queueRow fun _ b => b.writeQpCfg
theorem execQueuePairDisable_sound {h : HalfId} {q : Nat} {v : BitVec 32} {s : State} : (execQueuePairDisable h q v s).sound s (32 ≤ q) := .queueRow fun _ b => b.writeQpCfg
theorem execLanePause_leads {id tm : Nat} {s : State} : (execLanePause id tm s).leads s := .opcode fun _ _ _ b => b.lanePause
theorem execLaneResume_leads {id tm : Nat} {s : State} : (execLaneResume id tm s).leads s := .opcode fun _ _ _ b => b.laneResume
theorem execLaneNotify_leads {id tm : Nat} {s : State} : (execLaneNotify id tm s).leads s := .opcode fun _ _ _ b => b.laneNotify
theorem execLaneQuery_leads {id tm : Nat} {s : State} : (execLaneQuery id tm s).leads s := .opcode fun _ _ _ b => b.done
theorem execViewerAdd_leads {id tm : Nat} {s : State} : (execViewerAdd id tm s).leads s := .opcode fun _ _ _ b => b.viewerAdd
theorem execViewerRemove_leads {id tm : Nat} {s : State} : (execViewerRemove id tm s).leads s := .opcode fun _ _ _ b => b.onViewer (fun _ _ _ w => w.sentBy.done)
theorem execViewerSet_leads {id tm : Nat} {s : State} : (execViewerSet id tm s).leads s := .opcode fun _ _ _ b => b.viewerSet
theorem execViewerKeyframe_leads {id tm : Nat} {s : State} : (execViewerKeyframe id tm s).leads s := .opcode fun _ _ _ b => b.viewerKeyframe
theorem execLanePacer_leads {id tm : Nat} {s : State} : (execLanePacer id tm s).leads s := .opcode fun _ _ _ b => b.lanePacer
theorem execTimingSet_leads {id tm : Nat} {s : State} : (execTimingSet id tm s).leads s := .opcode fun _ _ _ b => b.timingSet
theorem execLaneTune_leads {id tm : Nat} {s : State} : (execLaneTune id tm s).leads s := .opcode fun _ _ _ b => b.laneTune
theorem execOpSet_leads {id tm : Nat} {s : State} : (execOpSet id tm s).leads s := .opcode fun _ _ _ b => b.opSet
theorem execOpCommit_leads {id tm : Nat} {s : State} : (execOpCommit id tm s).leads s := .opcode fun _ _ _ b => b.opCommit
theorem execXptSet_leads {id tm : Nat} {s : State} : (execXptSet id tm s).leads s := .opcode fun _ _ _ b => b.xptSet
theorem execAnnounceRing_leads {id tm : Nat} {s : State} : (execAnnounceRing id tm s).leads s := .opcode fun _ _ _ b => b.checked (fun _ w => w.putLane.done)
theorem execTitleLoad_leads {id : Nat} {data : Bytes} {tm : Nat} {s : State} : (execTitleLoad id data tm s).leads s := .opcode fun _ _ _ b => b.titleLoad
theorem execTitleUnload_leads {id tm : Nat} {s : State} : (execTitleUnload id tm s).leads s := .opcode fun _ _ _ b => b.titleUnload
theorem execTitleRepair_leads {id : Nat} {data : Bytes} {tm : Nat} {s : State} : (execTitleRepair id data tm s).leads s := .opcode fun _ _ _ b => b.titleRepair
theorem execLaneSnapshot_leads {id tm : Nat} {s : State} : (execLaneSnapshot id tm s).leads s := .opcode fun _ _ _ b => b.laneSnapshot
theorem execLaneRestore_leads {id : Nat} {image : Bytes} {tm : Nat} {s : State} : (execLaneRestore id image tm s).leads s := .opcode fun _ _ _ b => b.laneRestore
theorem execMovePlan_leads {id tm : Nat} {s : State} : (execMovePlan id tm s).leads s := .opcode fun _ _ _ b => b.movePlan
theorem execLaneMove_leads {id tm : Nat} {s : State} : (execLaneMove id tm s).leads s := .opcode fun _ _ _ b => b.laneMove
theorem execMonRead_leads {id tm : Nat} {s : State} : (execMonRead id tm s).leads s := .opcode fun _ _ _ b => b.monRead
theorem execMonLimits_leads {id tm : Nat} {s : State} : (execMonLimits id tm s).leads s := .opcode fun _ _ _ b => b.monLimits
theorem execLifeRead_leads {id tm : Nat} {s : State} : (execLifeRead id tm s).leads s := .opcode fun _ _ _ b => b.lifeRead
theorem execLifeFlush_leads {id tm : Nat} {s : State} : (execLifeFlush id tm s).leads s := .opcode fun _ _ _ b => b.flush.flush.done
theorem execSelftest_leads {id tm : Nat} {s : State} : (execSelftest id tm s).leads s := .opcode fun _ _ _ b => b.unitCmd
theorem execFaultRead_leads {id tm : Nat} {s : State} : (execFaultRead id tm s).leads s := .opcode fun _ _ _ b => b.faultRead
theorem execUnitRetire_leads {id tm : Nat} {s : State} : (execUnitRetire id tm s).leads s := .opcode fun _ _ _ b => b.unitCmd
theorem execFaultInject_leads {id tm : Nat} {s : State} : (execFaultInject id tm s).leads s := .opcode fun _ _ _ b => b.faultInject
theorem execFwStage_leads {id : Nat} {data : Bytes} {tm : Nat} {s : State} : (execFwStage id data tm s).leads s := .opcode fun _ _ _ b => b.fwStage
theorem execFwCommit_leads {id tm : Nat} {s : State} : (execFwCommit id tm s).leads s := .opcode fun _ _ _ b => b.fwCommit
theorem execFwQuery_leads {id tm : Nat} {s : State} : (execFwQuery id tm s).leads s := .opcode fun _ _ _ b => b.fwQuery
theorem execPresenceStatus_leads {id tm : Nat} {s : State} : (execPresenceStatus id tm s).leads s := .opcode fun _ _ _ b => b.done
theorem execPresenceEnd_leads {id tm : Nat} {s : State} : (execPresenceEnd id tm s).leads s := .opcode fun _ _ _ b => b.endGrant.done
theorem execCtrlFlow_leads {id tm : Nat} {s : State} : (execCtrlFlow id tm s).leads s := .opcode fun _ _ _ b => b.ctrlFlow
theorem execDevInfo_leads {id tm : Nat} {s : State} : (execDevInfo id tm s).leads s := .opcode fun _ _ _ b => b.done
theorem execPortCfg_leads {id tm : Nat} {s : State} : (execPortCfg id tm s).leads s := .opcode fun _ _ _ b => b.portCfg
theorem execPortAddr_leads {id tm : Nat} {s : State} : (execPortAddr id tm s).leads s := .opcode fun _ _ _ b => b.portAddr
theorem execPortDrain_leads {id tm : Nat} {s : State} : (execPortDrain id tm s).leads s := .opcode fun _ _ _ b => b.portDrain
theorem execRegRead_leads {id tm : Nat} {s : State} : (execRegRead id tm s).leads s := .opcode fun _ _ _ b => b.regRead
theorem execDrain_leads {id tm : Nat} {s : State} : (execDrain id tm s).leads s := .opcode fun _ _ _ b => b.drainCmd
theorem execDrainStatus_leads {id tm : Nat} {s : State} : (execDrainStatus id tm s).leads s := .opcode fun _ _ _ b => b.done
theorem execEventSub_leads {id tm : Nat} {s : State} : (execEventSub id tm s).leads s := .opcode fun _ _ _ b => b.eventSub
theorem execNop_leads {id tm : Nat} {s : State} : (execNop id tm s).leads s := .opcode fun _ _ _ b => b.done
theorem execMfioMuxWrite_sound {h : HalfId} {i : Nat} {v : BitVec 32} {s : State} : (execMfioMuxWrite h i v s).sound s (32 ≤ i) := .pinRow fun _ b => b.writeMux
theorem execMfioCfgWrite_sound {h : HalfId} {i : Nat} {v : BitVec 32} {s : State} : (execMfioCfgWrite h i v s).sound s (32 ≤ i) := .pinRow fun _ b => b.writePinCfg

/-! The others. -/
theorem domainHalf_eq_east {n : Nat} : domainHalf n = .east ↔ n < 132 ∨ (264 ≤ n ∧ n < 283) := by
  unfold domainHalf
  split
  · exact iff_of_true rfl (by omega)
  · split
    · exact iff_of_false nofun (by omega)
    · split
      · exact iff_of_true rfl (by omega)
      · exact iff_of_false nofun (by omega)
theorem domainHalf_eq_west {n : Nat} : domainHalf n = .west ↔ (132 ≤ n ∧ n < 264) ∨ 283 ≤ n := by
  unfold domainHalf
  split
  · exact iff_of_false nofun (by omega)
  · split
    · exact iff_of_true rfl (by omega)
    · split
      · exact iff_of_false nofun (by omega)
      · exact iff_of_true rfl (by omega)
theorem FaultInfo.unit_ok (h : HalfId) (cls n : Nat) : faultUnitOk h cls n = unitOk h cls n := by
  match cls with
  | 0 | 1 | 2 | 4 | 5 | 6 | 7 | 8 | 9 | 10 | _ + 12 => rfl
  | 3 =>
    rw [Bool.eq_iff_iff]
    cases h
    · simp [faultUnitOk, unitOk, below, luBase]
    · simp [faultUnitOk, unitOk, below, luBase]
  | 11 =>
    rw [Bool.eq_iff_iff]
    cases h
    · simp only [faultUnitOk, unitOk, below, Bool.or_eq_true, Bool.and_eq_true, Bool.not_eq_true', decide_eq_true_eq,
        decide_eq_false_iff_not, domainHalf_eq_east]
      omega
    · simp only [faultUnitOk, unitOk, below, Bool.or_eq_true, Bool.and_eq_true, Bool.not_eq_true', decide_eq_true_eq,
        decide_eq_false_iff_not, domainHalf_eq_west]
      omega
/-- The faults of units that exist, as the machine and the manual's numbers say it. -/
theorem FaultInfo.ok_iff (f : FaultInfo) : f.ok = false ↔ 16 ≤ f.cls ∨ unitOk f.half f.cls f.unitNo = false ∨
    (match f.lane with | some l => decide (256 ≤ l ∨ halfOf l ≠ f.half) | none => false) = true := by
  unfold FaultInfo.ok
  rw [FaultInfo.unit_ok, Bool.and_eq_false_iff, Bool.and_eq_false_iff, or_assoc]
  refine or_congr (by simp [below]) (or_congr Iff.rfl ?_)
  cases f.lane with
  | none => simp
  | some l =>
    rw [decide_eq_true_eq, Bool.and_eq_false_iff]
    unfold halfOf
    refine or_congr (by simp [laneOk, below]) ?_
    cases f.half
    · simp [below]
    · simp [below]

theorem execUnitResultWrite_sound {c : Ctx} {k : Nat} {s : State} : (execUnitResultWrite c k s).sound s ((!ctxOk c) = true) := by
  unfold execUnitResultWrite
  dsimp only
  refine .last ?_
  split
  · exact .ite (.next fun b => b.putThread) (.stay id)
  · exact .stay id
theorem execLoad_sound {c : Ctx} {fn : LoadFn} {rt base : RegNo} {off : BitVec 16} {s : State} : (execLoad c fn rt base off s).sound s ((!ctxOk c) = true) := by
  unfold execLoad
  dsimp only
  refine .last (.ite (.stay id) ?_)
  split
  · split
    · exact .except
    · exact .next fun b => b.tookSlot.putThread.sendReads
  · split
    · exact .except
    · exact .next fun b => b.tookSlot.putThread
theorem execStore_sound {c : Ctx} {fn : StoreFn} {rt base : RegNo} {off : BitVec 16} {s : State} : (execStore c fn rt base off s).sound s ((!ctxOk c) = true) := by
  unfold execStore
  dsimp only
  refine .last (.ite (.stay id) ?_)
  split
  · split
    · exact .except
    · exact .ite (.stay id) (.next fun b => b.tookSlot.putThread)
  · split
    · exact .except
    · exact .ite (.stay id) (.next fun b => b.tookSlot.putThread)
theorem execAmo_sound {c : Ctx} {fn : AmoFn} {w32 : Bool} {rd ra rb rc : RegNo} {s : State} : (execAmo c fn w32 rd ra rb rc s).sound s ((!ctxOk c) = true) := by
  unfold execAmo
  dsimp only
  refine .last (.ite (.stay id) ?_)
  split
  · split
    · exact .except
    · exact .ite (.stay id) (.ite (.ite (.next fun b => b.tookSlot.putLane) (.stay id)) (.next fun b => b.tookSlot.putLane.storeThrough.ckptLost))
  · split
    · exact .except
    · exact .ite (.stay id) (.ite (.next fun b => b.tookSlot.putThread) (.next fun b => (b.tookSlot.putThread.keepHalf (by rfl))))
theorem execEret_sound {c : Ctx} {s : State} : (execEret c s).sound s ((!ctxOk c) = true) := by
  unfold execEret
  dsimp only
  refine .both .fails (.last ?_)
  refine .ite (.stay id) ?_
  split
  · refine .ite (.next fun b => b.tookSlot.putThread) ?_
    split
    · exact .next fun b => b.tookSlot.putThread.named.afterThread
    · exact .next fun b => b.tookSlot.putThread
  · exact .next fun b => b.tookSlot.putThread
theorem execWaitResume_sound {c : Ctx} {s : State} : (execWaitResume c s).sound s ((!ctxOk c) = true) := by
  unfold execWaitResume
  dsimp only
  refine .last (.ite (.stay id) ?_)
  split
  · refine .ite ?_ (.ite (.next fun b => b.putThread) (.stay id))
    split
    · exact .ite (.next fun b => b.putThread) (.stay id)
    · exact .stay id
  · exact .next fun b => b.putThread
theorem execMbar_sound {c : Ctx} {s : State} : (execMbar c s).sound s ((!ctxOk c) = true) := by
  unfold execMbar
  exact .both .issue (.last (.stay id))
theorem execIsync_sound {c : Ctx} {s : State} : (execIsync c s).sound s ((!ctxOk c) = true) := by
  unfold execIsync
  dsimp only
  exact .both (.last (.stay id)) (.last (.ite (.next fun b => b.tookSlot.putThread.dropCode) (.stay id)))
theorem execInterruptEntry_sound {c : Ctx} {s : State} : (execInterruptEntry c s).sound s ((!ctxOk c) = true) := by
  unfold execInterruptEntry
  dsimp only
  refine .last (.ite (.stay id) ?_)
  split
  · split
    · exact .stay id
    · refine .ite (.stay id) (.ite (.next fun b => b.putThread) ?_)
      split
      · exact .stay id
      · exact .next fun b => b.putLane.putThread.named.afterThread
  · exact .ite (.next fun b => (b.of_halves (by rfl)).putThread) (.stay id)
theorem execPrefetchFill_sound {c : Ctx} {s : State} : (execPrefetchFill c s).sound s ((!ctxOk c) = true) := by
  unfold execPrefetchFill
  dsimp only
  refine .last (.ite (.stay id) ?_)
  split
  · split
    · exact .goOn
    · exact .ite (.next fun b => b.putThread) (.ite (.next fun b => b.putThread) (.next fun b => (b.putHalf ((b.half _).codeWord)).putThread))
  · exact .ite (.stay id) (.next fun b => (b.putHalf ((b.half _).codeWord)).putThread)
theorem execStoreBufferDrain_sound {c : Ctx} {s : State} : (execStoreBufferDrain c s).sound s ((!ctxOk c) = true) := by
  unfold execStoreBufferDrain
  dsimp only
  refine .last ?_
  split
  · split
    · exact .next fun b => b.sendReads
    · split
      · exact .stay id
      · exact .next fun b => b.putLane.storeThrough.sendReads.ckptLost.settle
  · split
    · exact .stay id
    · exact .ite (.stay id) (.next fun b => (b.putThread.keepHalf (by rfl)))
theorem execFrameBoundary_sound {l tm : Nat} {s : State} : (execFrameBoundary l tm s).sound s (256 ≤ l) := by
  unfold execFrameBoundary
  dsimp only
  refine .last (.ite (.next fun b => b.at.putLane) (.ite (.stay fun b => b.at) (.ite ?_ (.ite (.stay fun b => b.at) ?_))))
  · exact .next fun b => b.at.markBoundary.putLane
  · exact .next fun b => State.bounded.ite b.at.boundary.putLane b.at.boundary
theorem execFrameLate_sound {l v : Nat} {s : State} : (execFrameLate l v s).sound s (256 ≤ l) := by
  unfold execFrameLate
  exact .last (.ite (.next fun b => b.putLane.lifeAdd) (.stay id))
theorem execHoldFault_sound {l tm : Nat} {s : State} : (execHoldFault l tm s).sound s (256 ≤ l) := by
  unfold execHoldFault
  dsimp only
  exact .last (.ite (.next fun b => b.at.pointFault) (.stay fun b => b.at))
theorem execPauseTakesEffect_sound {l tm : Nat} {s : State} : (execPauseTakesEffect l tm s).sound s (256 ≤ l) := by
  unfold execPauseTakesEffect
  dsimp only
  exact .last (.ite (.next fun b => b.at.markBoundary.putLane.unlock.foldl (fun u a w => w.finish)) (.stay fun b => b.at))
theorem execLaneWake_sound {l tm : Nat} {s : State} : (execLaneWake l tm s).sound s (256 ≤ l) := by
  unfold execLaneWake
  dsimp only
  exact .last (.ite (.next fun b => b.at.resumeLane) (.stay fun b => b.at))
theorem execDotCompose_sound {l : Nat} {p : Pass} {s : State} : (execDotCompose l p s).sound s (256 ≤ l) := by
  unfold execDotCompose
  dsimp only
  refine .last ?_
  split
  · exact .stay id
  · split
    · exact .stay id
    · exact .ite (.next fun b => b.putLane.mismatch) (.stay id)
theorem execPointBRead_sound {l : Nat} {s : State} : (execPointBRead l s).sound s (256 ≤ l) := by
  unfold execPointBRead
  dsimp only
  exact .last (.ite (.next fun b => b.putLane.foldl (fun u a w => w.pointFault)) (.stay id))
theorem execSliceClose_sound {l tm : Nat} {s : State} : (execSliceClose l tm s).sound s (256 ≤ l) := by
  unfold execSliceClose
  refine .last ?_
  extract_lets s₁ h L e read s₂ s₃ x y _ s₄
  refine .ite (.next fun b => ?_) (.stay fun b => b.at)
  have marked : s₂.bounded := State.bounded.foldl (fun u a w => w.mapViewer) b.at
  have taken : s₃.bounded := State.bounded.ite marked (marked.foldl fun u a w => w.mapViewer)
  have closed : s₄.bounded := taken.putLane
  exact State.bounded.ite closed closed.pointFault
theorem execAudioSend_sound {l o tm : Nat} {s : State} : (execAudioSend l o tm s).sound s (256 ≤ l ∨ 5 ≤ o) := by
  unfold execAudioSend
  dsimp only
  refine .last ?_
  split
  · exact .stay fun b => b.at
  · exact .next fun b => b.at.putLane.foldl (fun u a w => State.bounded.ite (w.keepHalf (by rfl)) w)
theorem execAnnounceRead_sound {l wr : Nat} {data : Bytes} {s : State} : (execAnnounceRead l wr data s).sound s (256 ≤ l) := by
  unfold execAnnounceRead
  dsimp only
  exact .last (.ite (.stay id) (.next fun b => b.putLane.emit))
theorem execDatagramTransmit_sound {h : HalfId} {v tm : Nat} {s : State} : (execDatagramTransmit h v tm s).sound s (2048 ≤ v) := by
  unfold execDatagramTransmit
  dsimp only
  refine .last ?_
  split
  · exact .stay fun b => b.at
  · split
    · exact .stay fun b => b.at
    · refine .ite (.stay fun b => b.at) (.ite (.next fun b => b.at.sentBy) ?_)
      split
      · exact .stay fun b => b.at
      · exact .next fun b => b.at.leftBy
theorem execLateTxDiscard_sound {h : HalfId} {v tm : Nat} {s : State} : (execLateTxDiscard h v tm s).sound s (2048 ≤ v) := by
  unfold execLateTxDiscard
  dsimp only
  refine .last ?_
  split
  · exact .stay fun b => b.at
  · split
    · exact .stay fun b => b.at
    · exact .ite (.next fun b => (b.at.keepHalf (by rfl)).leftBy) (.stay fun b => b.at)
theorem execTimingReport_sound {h : HalfId} {v tm : Nat} {s : State} : (execTimingReport h v tm s).sound s (2048 ≤ v) := by
  unfold execTimingReport
  dsimp only
  refine .last ?_
  split
  · exact .ite (.next fun b => b.at.reportTiming) (.stay fun b => b.at)
  · exact .stay fun b => b.at
theorem execMoveRepeat_sound {h : HalfId} {v tm : Nat} {s : State} : (execMoveRepeat h v tm s).sound s (2048 ≤ v) := by
  unfold execMoveRepeat
  dsimp only
  refine .last ?_
  split
  · split
    · exact .ite (.next fun b => b.at.sentBy) (.stay fun b => b.at)
    · exact .stay fun b => b.at
    · exact .stay fun b => b.at
  · exact .stay fun b => b.at
theorem execLeaveRepeat_sound {h : HalfId} {v tm : Nat} {s : State} : (execLeaveRepeat h v tm s).sound s (2048 ≤ v) := by
  unfold execLeaveRepeat
  dsimp only
  refine .last ?_
  split
  · split
    · refine .ite ?_ (.stay fun b => b.at)
      refine .ite (.next fun b => b.at.sentBy) ?_
      split
      · exact .next fun b => b.at.sentBy.endFlow
      · exact .next fun b => b.at.keepHalf (by rfl)
    · exact .stay fun b => b.at
    · exact .stay fun b => b.at
  · exact .stay fun b => b.at
theorem execRefresh_leads {h : HalfId} {rx : Rx} {tm : Nat} {s : State} : (execRefresh h rx tm s).leads s := by
  unfold execRefresh
  dsimp only
  exact .client fun t h_1 v x p b => State.bounded.ite (b.foldl (fun u a w => w.refreshEntry)) b
theorem execInput_leads {h : HalfId} {rx : Rx} {tm : Nat} {s : State} : (execInput h rx tm s).leads s := by
  unfold execInput
  dsimp only
  exact .client fun t h_1 v x p b => State.bounded.ite b.discard (State.bounded.ite (b.keepHalf (by rfl)) (b.keepHalf (by rfl)).logInput)
theorem execAccessory_leads {h : HalfId} {rx : Rx} {tm : Nat} {s : State} : (execAccessory h rx tm s).leads s := by
  unfold execAccessory
  dsimp only
  exact .client fun t h_1 v x p b => State.bounded.ite b.discard (State.bounded.ite b b.logInput)
theorem execVoice_leads {h : HalfId} {rx : Rx} {tm : Nat} {s : State} : (execVoice h rx tm s).leads s := by
  unfold execVoice
  dsimp only
  exact .client fun t h_1 v x p b => State.bounded.ite b.discard (State.bounded.ite b b.putLane)
theorem execJoin_leads {h : HalfId} {rx : Rx} {tm : Nat} {s : State} : (execJoin h rx tm s).leads s := by
  unfold execJoin
  dsimp only
  exact .client fun t h_1 v x p b => State.bounded.ite b (State.bounded.ite (b.keepHalf (by rfl)).reportTiming.viewerChange (b.keepHalf (by rfl)).reportTiming)
theorem execProbe_leads {h : HalfId} {rx : Rx} {tm : Nat} {s : State} : (execProbe h rx tm s).leads s := by
  unfold execProbe
  dsimp only
  exact .client fun t h_1 v x p b => State.bounded.ite b (b.keepHalf (by rfl))
theorem execCommand_leads {h : HalfId} {rx : Rx} {tm : Nat} {s : State} : (execCommand h rx tm s).leads s := by
  unfold execCommand
  dsimp only
  split
  · exact .next fun b => b.at.discard
  · exact .stay fun b => b.at
  · exact .ite (.stay fun b => b.at) (.next fun b => (b.at.keepHalf (by rfl)).controlPacket)
theorem execArpRequest_sound {h : HalfId} {k : Nat} {ip : BitVec 32} {mac : BitVec 48} {s : State} : (execArpRequest h k ip mac s).sound s (4 ≤ k) := by
  unfold execArpRequest
  dsimp only
  exact .last (.ite (.next fun b => b.emit) (.stay id))
theorem execNeighbourSolicitation_sound {h : HalfId} {k : Nat} {ip : BitVec 128} {mac : BitVec 48} {s : State} : (execNeighbourSolicitation h k ip mac s).sound s (4 ≤ k) := by
  unfold execNeighbourSolicitation
  dsimp only
  exact .last (.ite (.next fun b => b.emit) (.stay id))
theorem execViewerIdle_sound {h : HalfId} {v tm : Nat} {s : State} : (execViewerIdle h v tm s).sound s (2048 ≤ v) := by
  unfold execViewerIdle
  dsimp only
  refine .last ?_
  split
  · exact .ite (.next fun b => (b.at.keepHalf (by rfl)).viewerLeft.event) (.stay fun b => b.at)
  · exact .stay fun b => b.at
theorem execLockTimeout_sound {l tm : Nat} {s : State} : (execLockTimeout l tm s).sound s (256 ≤ l) := by
  unfold execLockTimeout
  dsimp only
  exact .last (.ite (.next fun b => b.at.unlock) (.stay fun b => b.at))
theorem execSubportFail_sound {h : HalfId} {k tm : Nat} {s : State} : (execSubportFail h k tm s).sound s (4 ≤ k) := by
  unfold execSubportFail
  exact .last (.next fun b => b.at.failSub)
theorem execGratuitousArp_sound {h : HalfId} {k : Nat} {s : State} : (execGratuitousArp h k s).sound s (4 ≤ k) := by
  unfold execGratuitousArp
  dsimp only
  exact .last (.ite (.stay id) (.next fun b => (b.keepHalf (by rfl)).foldl (fun u a w => w.emit)))
theorem execFailback_sound {h : HalfId} {k tm : Nat} {s : State} : (execFailback h k tm s).sound s (4 ≤ k) := by
  unfold execFailback
  dsimp only
  exact .last (.ite (.next fun b => (b.at.keepHalf (by rfl)).settleSub.event.settleSub) (.stay fun b => b.at))
theorem execRestoreComplete_sound {l tm : Nat} {s : State} : (execRestoreComplete l tm s).sound s (256 ≤ l) := by
  unfold execRestoreComplete
  dsimp only
  refine .last ?_
  split
  · exact .ite (.next fun b => ((State.bounded.ite (b.at.dropAllLines.keepHalf (by rfl)).putLane.unlock (b.at.dropAllLines.keepHalf (by rfl)).putLane).lifeAdd).event) (.stay fun b => b.at)
  · exact .stay fun b => b.at
  · exact .stay fun b => b.at
theorem execScrub_sound {h : HalfId} {addr : Nat} {e : HbmError} {tm : Nat} {s : State} : (execScrub h addr e tm s).sound s (48 * 2 ^ 30 ≤ addr) := by
  unfold execScrub
  dsimp only
  exact .last (.ite (.stay fun b => b.at) (.ite (.next fun b => State.bounded.ite b.at (b.at.keepHalf (by rfl))) (.next fun b => b.at.hbmRead)))
theorem execPseudoChannelSpare_sound {h : HalfId} {pc : Nat} {s : State} : (execPseudoChannelSpare h pc s).sound s (64 ≤ pc) := by
  unfold execPseudoChannelSpare
  dsimp only
  exact .last (.ite (.stay id) (.next fun b => (b.keepHalf (by rfl))))
theorem execTitleCopyComplete_leads {h : HalfId} {title : BitVec 32} {s : State} : (execTitleCopyComplete h title s).leads s := by
  unfold execTitleCopyComplete
  dsimp only
  split
  · exact .stay id
  · exact .ite (.stay id) (.next fun b => (b.keepHalf (by rfl)).foldl (fun u a w => w.launch))
theorem execSnapshotRound_sound {l tm : Nat} {s : State} : (execSnapshotRound l tm s).sound s (256 ≤ l) := by
  unfold execSnapshotRound
  dsimp only
  refine .last ?_
  split
  · exact .stay fun b => b.at
  · exact .ite (.stay fun b => b.at) (.next fun b => b.at.putLane)
theorem execSubmissionFetch_sound {h : HalfId} {q : Nat} {entry params : Option Bytes} {tm : Nat} {s : State} : (execSubmissionFetch h q entry params tm s).sound s (32 ≤ q) := by
  unfold execSubmissionFetch
  dsimp only
  refine .last (.ite (.stay fun b => b.at) ?_)
  split
  · exact .next fun b => b.at.putQp
  · refine .ite (.next fun b => b.at.putQp.accept) (.ite (.next fun b => b.at.putQp.accept) ?_)
    split
    · exact .next fun b => b.at.putQp
    · exact .next fun b => b.at.putQp.accept
theorem execCompletionWrite_sound {h : HalfId} {q : Nat} {ok : Bool} {tm : Nat} {s : State} : (execCompletionWrite h q ok tm s).sound s (32 ≤ q) := by
  unfold execCompletionWrite
  dsimp only
  refine .last (.ite (.stay fun b => b.at) ?_)
  split
  · exact .stay fun b => b.at
  · exact .next fun b => State.bounded.ite (((((State.bounded.ite b.at b.at.emit).dropCmd).emit).putQp).message) ((((State.bounded.ite b.at b.at.emit).dropCmd).emit).putQp)
theorem execMsixVectorUnmask_sound {h : HalfId} {vec tm : Nat} {s : State} : (execMsixVectorUnmask h vec tm s).sound s (64 ≤ vec) := by
  unfold execMsixVectorUnmask
  dsimp only
  exact .last (.ite (.stay fun b => b.at) (.next fun b => b.at.unmask))
theorem execFunctionLevelReset_leads {h : HalfId} {s : State} : (execFunctionLevelReset h s).leads s := by
  unfold execFunctionLevelReset
  exact .ite (.stay id) (.next fun b => b.resetFunction)
theorem execSmbusBlockWrite_leads {packet : Bytes} {pecOk : Bool} {tm : Nat} {s : State} : (execSmbusBlockWrite packet pecOk tm s).leads s := by
  unfold execSmbusBlockWrite
  dsimp only
  split
  · exact .stay fun b => b.at
  · exact .ite (.next fun b => b.at.emit) (.next fun b => b.at.offer)
theorem execSmbusBlockRead_leads {s : State} : (execSmbusBlockRead s).leads s := by
  unfold execSmbusBlockRead
  split
  · exact .stay id
  · split
    · exact .next fun b => b.emit
    · exact .next fun b => (b.of_halves (by rfl)).emit
theorem execSmbusAlertResponse_leads {s : State} : (execSmbusAlertResponse s).leads s := by
  unfold execSmbusAlertResponse
  split
  · exact .stay id
  · exact .ite (.stay id) (.next fun b => b.emit)
theorem execLaneStart_leads {id tm : Nat} {s : State} : (execLaneStart id tm s).leads s := by
  unfold execLaneStart
  dsimp only
  split
  · exact .opcode fun t c h b => b.laneStart
  · exact .ite (.next fun b => b.at.putLane.finish) (.stay fun b => b.at)
theorem execLaneStop_leads {id tm : Nat} {s : State} : (execLaneStop id tm s).leads s := by
  unfold execLaneStop
  exact .ite (.stay fun b => b.at) (.opcode fun t c h b => State.bounded.ite b.failLane b.stopLane.done)
theorem execViewerRekey_leads {id tm : Nat} {s : State} : (execViewerRekey id tm s).leads s := by
  unfold execViewerRekey
  dsimp only
  exact .opcode fun t c h b => State.bounded.onViewer b (fun t_1 v x w => ((State.bounded.ite w.putLane w).keepHalf (by rfl)).done)
theorem execOvLoad_leads {id tm : Nat} {s : State} : (execOvLoad id tm s).leads s := by
  unfold execOvLoad
  dsimp only
  exact .ite (.stay fun b => b.at) (.opcode fun t c h b => State.bounded.checked b (fun t_1 w => w.putLane.done))
theorem execFaultDetected_sound {f : FaultInfo} {tm : Nat} {s : State} : (execFaultDetected f tm s).sound s (f.ok = false) := by
  unfold execFaultDetected
  dsimp only
  exact Res.sound.iff (.last (.ite (.stay fun b => b.at) (.next fun b => b.at.detect))) (FaultInfo.ok_iff f)
theorem execSpRestartComplete_leads {h : HalfId} {tm : Nat} {s : State} : (execSpRestartComplete h tm s).leads s := by
  unfold execSpRestartComplete
  dsimp only
  refine .ite (.stay fun b => b.at) (.next ?_)
  intro b
  refine State.bounded.faultsLater ?_
  split
  · exact (b.at.keepHalf (by rfl)).faultBegun.recordOwn
  · exact (b.at.keepHalf (by rfl)).faultBegun
theorem execHalfRecoveryEnd_leads {h : HalfId} {ok : Bool} {tm : Nat} {s : State} : (execHalfRecoveryEnd h ok tm s).leads s := by
  unfold execHalfRecoveryEnd
  dsimp only
  exact .ite (.stay fun b => b.at) (.ite (.next fun b => b.at.goDown) (.ite (.stay fun b => b.at) (.next fun b => (b.at.keepHalf (by rfl)))))
theorem execLaneUnitRotation_leads {h : HalfId} {tm : Nat} {s : State} : (execLaneUnitRotation h tm s).leads s := by
  unfold execLaneUnitRotation
  dsimp only
  refine .ite (.stay fun b => b.at) ?_
  split
  · split
    · exact .stay fun b => b.at
    · exact .ite (.next fun b => (b.at.keepHalf (by rfl))) (.next fun b => (b.at.keepHalf (by rfl)).mapUnit.freed)
  · exact .stay fun b => b.at
theorem execSpareHandoff_sound {l tm : Nat} {s : State} : (execSpareHandoff l tm s).sound s (256 ≤ l) := by
  unfold execSpareHandoff
  dsimp only
  refine .last ?_
  split
  · exact .stay fun b => b.at
  · exact .ite (.stay fun b => b.at) (.next fun b => (b.at.keepHalf (by rfl)).mapUnit.freed)
theorem execUnitTestComplete_sound {h : HalfId} {u : UnitKind} {idx : Nat} {pass : Bool} {tm : Nat} {s : State} :
    (execUnitTestComplete h u idx pass tm s).sound s (unitCount u ≤ idx) := by
  unfold execUnitTestComplete
  refine .last ?_
  extract_lets s₁ H mine ls _ s₂ ask out s₃ rec' s₄ s₅
  refine .ite (.stay fun b => b.at) (.next fun b => ?_)
  have tested : s₂.bounded := b.at.keepHalf (by rfl)
  have told : s₃.bounded := State.bounded.ite tested tested.report
  have placed : s₄.bounded := State.bounded.ite (told.passUnit.foldl fun u a w => w.endTest) told.takeOut
  have answered : s₅.bounded := placed.foldl fun u a w => w.finish
  exact answered.foldl fun u a w => w.finish
theorem execCoreSwap_leads {h : HalfId} {tm : Nat} {s : State} : (execCoreSwap h tm s).leads s := by
  unfold execCoreSwap
  dsimp only
  refine .ite (.stay fun b => b.at) ?_
  split
  · split
    · exact .stay fun b => b.at
    · exact .ite (.stay fun b => b.at) (.next fun b => (b.at.keepHalf (by rfl)).freed)
  · exact .stay fun b => b.at
theorem execHeartbeatSend_leads {h : HalfId} {tm : Nat} {s : State} : (execHeartbeatSend h tm s).leads s := by
  unfold execHeartbeatSend
  dsimp only
  exact .ite (.stay fun b => b.at) (.next fun b => (b.at.keepHalf (by rfl)).emit.emit)
theorem execHeartbeatReceive_sound {h : HalfId} {wire : Nat} {word : BitVec 32} {tm : Nat} {s : State} : (execHeartbeatReceive h wire word tm s).sound s (2 ≤ wire) := by
  unfold execHeartbeatReceive
  dsimp only
  exact .last (.ite (.stay fun b => b.at) (.next fun b => (b.at.keepHalf (by rfl))))
theorem execHeartbeatMiss_leads {h : HalfId} {tm : Nat} {s : State} : (execHeartbeatMiss h tm s).leads s := by
  unfold execHeartbeatMiss
  dsimp only
  refine .ite (.stay fun b => b.at) ?_
  split
  · exact .next fun b => b.at.keepHalf (by rfl)
  · exact .ite (.stay fun b => b.at) (.next fun b => (b.at.keepHalf (by rfl)).recordOther)
  · exact .stay fun b => b.at
  · exact .stay fun b => b.at
theorem execClaimResolve_leads {h : HalfId} {up down : Bool} {tm : Nat} {s : State} : (execClaimResolve h up down tm s).leads s := by
  unfold execClaimResolve
  dsimp only
  split
  · exact .stay fun b => b.at
  · refine .ite (.stay fun b => b.at) (.next ?_)
    intro b
    split
    · exact (b.at.keepHalf (by rfl)).recordOther
    · exact (b.at.keepHalf (by rfl)).recordOther
    · exact State.bounded.ite (b.at.keepHalf (by rfl)).recordOther (b.at.keepHalf (by rfl))
theorem execRoleListenEnd_leads {h : HalfId} {tm : Nat} {s : State} : (execRoleListenEnd h tm s).leads s := by
  unfold execRoleListenEnd
  dsimp only
  exact .ite (.stay fun b => b.at) (.next fun b => (b.at.keepHalf (by rfl)))
theorem execAuthoritySample_leads {h : HalfId} {up down : Bool} {s : State} : (execAuthoritySample h up down s).leads s := by
  unfold execAuthoritySample
  dsimp only
  exact .ite (.stay id) (.next fun b => (b.keepHalf (by rfl)))
theorem execMonitorUpdate_sound {h : HalfId} {cls idx : Nat} {value : Int} {tm : Nat} {s : State} : (execMonitorUpdate h cls idx value tm s).sound s (3 ≤ cls ∨ monCount cls ≤ idx) := by
  unfold execMonitorUpdate
  dsimp only
  refine .last (.ite (.stay fun b => b.at) ?_)
  refine .next ?_
  intro b
  refine State.bounded.setStage (State.bounded.ite ?_ ?_)
  · refine State.bounded.monEventAt (State.bounded.ite ?_ ?_)
    · refine State.bounded.monEventAt (b.at.putHalf ?_)
      split
      · exact ((b.at.half _).setMon).thermal
      · exact (b.at.half _).setMon
    · refine b.at.putHalf ?_
      split
      · exact ((b.at.half _).setMon).thermal
      · exact (b.at.half _).setMon
  · refine State.bounded.ite ?_ ?_
    · refine State.bounded.monEventAt (b.at.putHalf ?_)
      split
      · exact ((b.at.half _).setMon).thermal
      · exact (b.at.half _).setMon
    · refine b.at.putHalf ?_
      split
      · exact ((b.at.half _).setMon).thermal
      · exact (b.at.half _).setMon
theorem execLadderPause_leads {h : HalfId} {tm : Nat} {s : State} : (execLadderPause h tm s).leads s := by
  unfold execLadderPause
  dsimp only
  refine .ite (.stay fun b => b.at) ?_
  split
  · exact .stay fun b => b.at
  · exact .next fun b => b.at.putLane.setMon
theorem execLadderResume_leads {h : HalfId} {tm : Nat} {s : State} : (execLadderResume h tm s).leads s := by
  unfold execLadderResume
  dsimp only
  split
  · exact .stay fun b => b.at
  · exact .ite (.stay fun b => b.at) (.ite (.ite (.next fun b => b.at.setMon.putLane) (.next fun b => b.at.setMon.resumeLane)) (.next fun b => b.at.setMon.putLane))
theorem execAvsUpdate_leads {h : HalfId} {acked : Bool} {readback tm : Nat} {s : State} : (execAvsUpdate h acked readback tm s).leads s := by
  unfold execAvsUpdate
  dsimp only
  exact .ite (.stay fun b => b.at) (.next fun b => State.bounded.ite b.at.emit.setMon.monEventAt.setStage b.at.emit.setMon)
theorem execAvsRetry_leads {h : HalfId} {acked : Bool} {readback tm : Nat} {s : State} : (execAvsRetry h acked readback tm s).leads s := by
  unfold execAvsRetry
  dsimp only
  exact .ite (.stay fun b => b.at) (.next fun b => b.at.emit.setMon)
theorem execDroopStart_sound {h : HalfId} {rail tm : Nat} {s : State} : (execDroopStart h rail tm s).sound s (8 ≤ rail) := by
  unfold execDroopStart
  dsimp only
  exact .last (.ite (.stay fun b => b.at) (.next fun b => b.at.setMon))
theorem execDroopEnd_sound {h : HalfId} {rail depth tm : Nat} {s : State} : (execDroopEnd h rail depth tm s).sound s (8 ≤ rail) := by
  unfold execDroopEnd
  dsimp only
  refine .last ?_
  split
  · exact .stay fun b => b.at
  · exact .ite (.stay fun b => b.at) (.next fun b => b.at.setMon.lifeAdd)
theorem execThermtrip_leads {tm : Nat} {s : State} : (execThermtrip tm s).leads s := by
  unfold execThermtrip
  dsimp only
  exact .ite (.stay fun b => b.at) (.next fun b => State.bounded.of_both (b.at.east.frozen.of_eq (by rfl)) (b.at.west.frozen.of_eq (by rfl)))
theorem execLifeSecond_leads {h : HalfId} {tm : Nat} {s : State} : (execLifeSecond h tm s).leads s := by
  unfold execLifeSecond
  dsimp only
  exact .ite (.stay fun b => b.at) (.next fun b => b.at.putHalf (((Half.bounded.ite (((b.at.half _).lifeAdd).lifeAdd) ((((b.at.half _).lifeAdd).lifeAdd).lifeAdd)).of_eq (by rfl))))
theorem execLifetimeFlush_leads {h : HalfId} {tm : Nat} {s : State} : (execLifetimeFlush h tm s).leads s := by
  unfold execLifetimeFlush
  dsimp only
  exact .ite (.next fun b => b.at.flush) (.stay fun b => b.at)
theorem execMirrorWrite_leads {h : HalfId} {reached : Bool} {s : State} : (execMirrorWrite h reached s).leads s := by
  unfold execMirrorWrite
  dsimp only
  split
  · exact .stay id
  · exact .ite (.next fun b => ((b.keepHalf (by rfl)).keepHalf (by rfl))) (.next fun b => (b.keepHalf (by rfl)))
theorem execPwrgdRise_leads {pins : PinLevels} {tm : Nat} {s : State} : (execPwrgdRise pins tm s).leads s := by
  unfold execPwrgdRise
  dsimp only
  refine .ite (.stay fun b => b.at) (.next fun b => State.bounded.ite (State.bounded.unlockdown ?_) ?_)
  · exact .of_both ((Half.bounded.reset .east).of_eq (by rfl)) ((Half.bounded.reset .west).of_eq (by rfl))
  · exact .of_both ((Half.bounded.reset .east).of_eq (by rfl)) ((Half.bounded.reset .west).of_eq (by rfl))
theorem execPwrgdFall_leads {s : State} : (execPwrgdFall s).leads s := by
  unfold execPwrgdFall
  exact .ite (.next fun b => State.bounded.powerDown) (.stay id)
theorem execResetNAssert_leads {tm : Nat} {s : State} : (execResetNAssert tm s).leads s := by
  unfold execResetNAssert
  dsimp only
  exact .ite (.stay fun b => b.at) (.next fun b => .of_both ((Half.bounded.reset .east).of_eq (by rfl)) ((Half.bounded.reset .west).of_eq (by rfl)))
theorem execResetNRelease_leads {pins : PinLevels} {tm : Nat} {s : State} : (execResetNRelease pins tm s).leads s := by
  unfold execResetNRelease
  dsimp only
  exact .ite (.stay fun b => b.at) (.next fun b => .of_both ((Half.bounded.reset .east).of_eq (by rfl)) ((Half.bounded.reset .west).of_eq (by rfl)))
theorem execBootStageComplete_leads {h : HalfId} {r : StageResult} {tm : Nat} {s : State} : (execBootStageComplete h r tm s).leads s := by
  unfold execBootStageComplete
  dsimp only
  refine .ite (.stay fun b => b.at) ?_
  split
  · exact .ite (.next fun b => b.at.failBoot) (.stay fun b => b.at)
  · exact .ite (.next fun b => (b.at.keepHalf (by rfl))) (.stay fun b => b.at)
  · exact .ite (.next fun b => b.at.endStage) (.stay fun b => b.at)
  · exact .ite (.next fun b => b.at.endStage) (.stay fun b => b.at)
theorem execDeviceReady_leads {tm : Nat} {s : State} : (execDeviceReady tm s).leads s := by
  unfold execDeviceReady
  dsimp only
  split
  · exact .stay fun b => b.at
  · refine .ite (.stay fun b => b.at) (.next fun b => ?_)
    have ready : ({ s.at tm with ready := true } : State).bounded := b.at (tm := tm)
    exact State.bounded.ite ready.grantAction ready
theorem execPerstAssert_leads {h : HalfId} {s : State} : (execPerstAssert h s).leads s := by
  unfold execPerstAssert
  dsimp only
  exact .next fun b => b.resetFunction.giveUpBuffer.keepHalf (by rfl)
theorem execPerstRelease_leads {h : HalfId} {tm : Nat} {s : State} : (execPerstRelease h tm s).leads s := by
  unfold execPerstRelease
  dsimp only
  exact .next fun b => b.at.keepHalf (by rfl)
theorem execRefclkLoss_leads {clk : RefClk} {s : State} : (execRefclkLoss clk s).leads s := by
  unfold execRefclkLoss
  dsimp only
  split
  · exact .ite (.next fun b => State.bounded.powerDown) (.stay id)
  · exact .next fun b => b.keepHalf (by rfl)
  · exact .next fun b => b.resetFunction.giveUpBuffer.keepHalf (by rfl)
theorem execEject_leads {h : HalfId} {tm : Nat} {s : State} : (execEject h tm s).leads s := by
  unfold execEject
  dsimp only
  refine .ite (.stay fun b => b.at) ?_
  split
  · exact .stay fun b => b.at
  · exact .ite (.stay fun b => b.at) (.next fun b => b.at.beginDrain.drainEvent)
theorem execDrainNotice_leads {h : HalfId} {tm : Nat} {s : State} : (execDrainNotice h tm s).leads s := by
  unfold execDrainNotice
  dsimp only
  exact .ite (.stay fun b => b.at) (.next fun b => State.bounded.ite b.at.beginDrain.setBuffer b.at.beginDrain)
theorem execImageWriteOut_sound {l tm : Nat} {s : State} : (execImageWriteOut l tm s).sound s (256 ≤ l) := by
  unfold execImageWriteOut
  dsimp only
  refine .last (.ite (.stay fun b => b.at) ?_)
  refine .ite (.next fun b => b.at.loseImage) ?_
  split
  · exact .stay fun b => b.at
  · exact .ite (.next fun b => b.at.loseImage.drainMore) (.ite (.stay fun b => b.at) (.ite (.next fun b => b.at.loseImage.drainMore) (.next fun b => b.at.writeImage.drainMore)))
theorem execDrainBufferTimeout_leads {tm : Nat} {s : State} : (execDrainBufferTimeout tm s).leads s := by
  unfold execDrainBufferTimeout
  dsimp only
  split
  · exact .stay fun b => b.at
  · exact .ite (.stay fun b => b.at) (.next fun b => b.at.giveUpBuffer.giveUpBuffer.setDrain.setDrain.drainEvent)
theorem execSafe_leads {tm : Nat} {s : State} : (execSafe tm s).leads s := by
  unfold execSafe
  dsimp only
  split
  · exact .stay fun b => b.at
  · next h _ =>
    refine .ite (.stay fun b => b.at) (.next fun b => State.bounded.drainEvent ?_)
    have done (u : State) (k : HalfId) (d : Drain) (x : u.bounded) : (u.putHalf k (((u.half k).flush k true).endMoves.setDrain d)).bounded := x.keepHalf (by rfl)
    split
    · exact (done _ _ _ (done (s.at tm) h _ b.at)).of_halves (by rfl)
    · exact (done (s.at tm) h _ b.at).of_halves (by rfl)
theorem execFwCopy_leads {h : HalfId} {tm : Nat} {s : State} : (execFwCopy h tm s).leads s := by
  unfold execFwCopy
  dsimp only
  exact .ite (.stay fun b => b.at) (.next fun b => (b.at.keepHalf (by rfl)))
theorem execTrialRestart_leads {h : HalfId} {tm : Nat} {s : State} : (execTrialRestart h tm s).leads s := by
  unfold execTrialRestart
  dsimp only
  exact .ite (.stay fun b => b.at) (.ite (.next fun b => (b.at.keepHalf (by rfl))) (.next fun b => (b.at.keepHalf (by rfl))))
theorem execTrialRestartTimeout_leads {h : HalfId} {tm : Nat} {s : State} : (execTrialRestartTimeout h tm s).leads s := by
  unfold execTrialRestartTimeout
  dsimp only
  split
  · exact .stay fun b => b.at
  · exact .ite (.stay fun b => b.at) (.next fun b => (b.at.keepHalf (by rfl)))
theorem execPresenceAction_leads {h : HalfId} {tm : Nat} {s : State} : (execPresenceAction h tm s).leads s := by
  unfold execPresenceAction
  dsimp only
  refine .ite (.stay fun b => b.at) ?_
  split
  · exact .ite (.next fun b => b.at.grantAction) (.stay fun b => b.at)
  · exact .ite (.next fun b => b.at.grantAction) (.stay fun b => b.at)
  · exact .stay fun b => b.at
theorem execGrantExpiry_leads {tm : Nat} {s : State} : (execGrantExpiry tm s).leads s := by
  unfold execGrantExpiry
  dsimp only
  exact .ite (.next fun b => b.at.endGrant) (.stay fun b => b.at)
theorem execSealBandChange_leads {h : HalfId} {code : Option (BitVec 12)} {tm : Nat} {s : State} : (execSealBandChange h code tm s).leads s := by
  unfold execSealBandChange
  dsimp only
  refine .ite (.stay fun b => b.at) ?_
  split
  · exact .ite (.stay fun b => b.at) (.next fun b => (b.at.keepHalf (by rfl)).setBand)
  · exact .next fun b => b.at.senseSeal
  · exact .stay fun b => b.at
theorem execMfioSwitchHoldEnd_sound {h : HalfId} {i : Nat} {s : State} : (execMfioSwitchHoldEnd h i s).sound s (32 ≤ i) := by
  unfold execMfioSwitchHoldEnd
  dsimp only
  exact .last (.ite (.stay id) (.next fun b => (b.keepHalf (by rfl))))
theorem execPinInterrupt_sound {h : HalfId} {i : Nat} {level : Bool} {tm : Nat} {s : State} : (execPinInterrupt h i level tm s).sound s (32 ≤ i) := by
  unfold execPinInterrupt
  dsimp only
  exact .last (.ite (.stay fun b => b.at) (.next fun b => State.bounded.ite (b.at.keepHalf (by rfl)) (b.at.keepHalf (by rfl)).raisePins))
theorem execIllegalInstruction_sound {c : Ctx} {w : BitVec 32} {s : State} : (execIllegalInstruction c w s).sound s ((!ctxOk c) = true) := by
  unfold execIllegalInstruction
  dsimp only
  exact .last (.ite .except (.stay id))
theorem execInstructionAccessFault_sound {c : Ctx} {s : State} : (execInstructionAccessFault c s).sound s ((!ctxOk c) = true) := by
  unfold execInstructionAccessFault
  dsimp only
  refine .last ?_
  split
  · exact .ite .except (.stay id)
  · exact .stay id
theorem execReceivedFrameDiscard_leads {h : HalfId} {f : RxFrame} {tm : Nat} {s : State} : (execReceivedFrameDiscard h f tm s).leads s := by
  unfold execReceivedFrameDiscard
  dsimp only
  split
  · exact .next fun b => b.at.discard
  · exact .stay fun b => b.at
theorem execSubportLinkUp_sound {h : HalfId} {k tm : Nat} {s : State} : (execSubportLinkUp h k tm s).sound s (4 ≤ k) := by
  unfold execSubportLinkUp
  dsimp only
  exact .last (.ite (.stay fun b => b.at) (.next fun b => b.at.putHalf ((Half.bounded.ite ((b.at.half _).foldl (fun H a w => w.lifeAdd)) (b.at.half _)).putSub)))
theorem execMsixDeferredSend_sound {h : HalfId} {vec tm : Nat} {s : State} : (execMsixDeferredSend h vec tm s).sound s (64 ≤ vec) := by
  unfold execMsixDeferredSend
  dsimp only
  exact .last (.ite (.stay fun b => b.at) (.next fun b => (b.at.keepHalf (by rfl)).message))
theorem execTrainingTablesWrite_leads {h : HalfId} {version : BitVec 32} {body : Bytes} {tm : Nat} {s : State} : (execTrainingTablesWrite h version body tm s).leads s := by
  unfold execTrainingTablesWrite
  dsimp only
  exact .ite (.stay fun b => b.at) (.next fun b => (b.at.keepHalf (by rfl)))
theorem execLoadDataReturn_sound {c : Ctx} {k : Nat} {s : State} : (execLoadDataReturn c k s).sound s ((!ctxOk c) = true) := by
  unfold execLoadDataReturn
  extract_lets x
  refine .last ?_
  split
  · exact .stay id
  · next p _ =>
    extract_lets done
    have settled {u : State} {v : Nat} (b : u.bounded) : (done u v).bounded := b.putThread.settle
    cases c with
    | game l t =>
      refine .ite ?_ ?_
      · split
        · exact .next fun b => settled b.putLane
        · exact .stay id
      · split
        · next r e => exact .next fun b => settled (b.laneData e)
        · exact .stay id
    | sys h core y =>
      dsimp -zeta only
      extract_lets rd
      have read (a n : Nat) (b : s.bounded) : (rd a n).2.bounded := by
        unfold rd
        dsimp only
        split
        · exact b
        · exact b.putHalf (b.half h).cachedRead
      refine .ite (.stay id) ?_
      split
      · exact .next fun b => settled b
      · exact .next fun b => settled (read _ _ b)
      · exact .next fun b => (read _ _ b).putThread
      · exact .next fun b => settled (read _ _ b)
      · exact .stay id
theorem execBltGroup_sound {l : Nat} {s : State} : (execBltGroup l s).sound s (256 ≤ l) := by
  unfold execBltGroup
  split
  · exact .onLane
  · exact .both (.onState (fun b => b.dropWritten) .onLane) .onLane
theorem execSoundTick_sound {l : Nat} {s : State} : (execSoundTick l s).sound s (256 ≤ l) := by
  unfold execSoundTick
  split
  · exact .onLane
  · exact .both .onLane (.onState (fun b => State.bounded.ite b.dropWritten b) .onLane)
theorem execEventRingWrite_leads {h : HalfId} {tm : Nat} {s : State} : (execEventRingWrite h tm s).leads s := by
  unfold execEventRingWrite
  extract_lets s₁ H e
  refine .ite (.stay fun b => b.at) ?_
  split
  · exact .stay fun b => b.at
  · next x f taken =>
    extract_lets s₂ s₃ r s₄
    refine .next fun b => ?_
    have half : H.bounded := State.bounded.half b.at h
    obtain ⟨less, same, size⟩ := EventRing.take_keeps taken
    have left : s₂.bounded := State.bounded.putHalf b.at (half.putEv (Nat.lt_of_le_of_lt less half.1) (by rw [same, size]; exact half.2.1))
    have written : s₃.bounded := left.emit
    have told : s₄.bounded := by
      refine State.bounded.ite ?_ written
      split
      · exact State.bounded.ite (written.putHalf (written.half h).sendReply).emits written
      · exact written
    exact State.bounded.ite told.message told
theorem execEvHeadWrite_leads {h : HalfId} {v : BitVec 32} {s : State} : (execEvHeadWrite h v s).leads s := by
  unfold execEvHeadWrite
  refine .eventRow fun t b => ?_
  obtain ⟨buf, ring, _⟩ := b.half h
  exact (b.half h).putEv buf ring
theorem execEventRingEnable_leads {h : HalfId} {v : BitVec 32} {s : State} : (execEventRingEnable h v s).leads s := by
  unfold execEventRingEnable
  exact .eventRow fun t b => (b.half h).configure
theorem execFinalRound_sound {l tm : Nat} {s : State} : (execFinalRound l tm s).sound s (256 ≤ l) := by
  unfold execFinalRound
  dsimp only
  refine .last ?_
  split
  · exact .stay fun b => b.at
  · refine .ite (.stay fun b => b.at) ?_
    split
    · exact .next fun b => b.at.ckptAt
    · split
      · refine .ite ?_ (.next fun b => b.at.finishSnapshot)
        split
        · next t moved => exact .next fun b => b.at.finishMove moved
        · exact .stay fun b => b.at
      · exact .next fun b => b.at.makeImage.putLane
theorem execRegisterWrite_sound {w : RegWrite} {s : State} : (execRegisterWrite w s).sound s (w.space.ok = false) := by
  unfold execRegisterWrite
  dsimp only
  cases w.space with
  | thread l t stamp => exact Res.sound.laneUnit (.guard .onLane)
  | aperture l =>
    refine Res.sound.lane ?_
    by_cases there : 256 ≤ l
    · exact ⟨fun _ => if_pos there, fun ok => absurd there ok⟩
    · dsimp only
      rw [if_neg there]
      exact .both .onLane ⟨fun bad => absurd bad there, fun _ => .stay id⟩
  | svc h => exact (Res.leads.hostWrite fun t b => b.writePin).always
  | queue h => exact (Res.leads.hostWrite fun t b => b.writeQueue).always
  | net h => exact (Res.leads.stay id).always
  | tap l => exact (Res.sound.last (.stay id)).lane
  | msix h => exact (Res.leads.hostWrite fun t b => b.writeMsix).always
  | msixControl h => exact (Res.leads.hostWrite fun t b => b.writeMsixControl).always

end Sys2Proof.Machine
end

section
/-! PROOFS. Which commands stop the block, and that every step keeps the bounds (R107, R429, R455). -/
namespace Sys2Proof.Machine
open Sys2Proof

/-- A command that would run firmware's own instructions or registers (R107). -/
def firmwares : Instr → Bool
  | .mfs (.sys _ _ _) _ m | .mts (.sys _ _ _) _ m => decide (0x800 ≤ m.toNat)
  | .sysx (.sys _ _ _) _ => true
  | _ => false

theorem execMfs_sound {c : Ctx} {rd : RegNo} {n : BitVec 12} {s : State} (own : firmwares (.mfs c rd n) = false) : (execMfs c rd n s).sound s ((!ctxOk c) = true) := by
  unfold execMfs
  dsimp only
  by_cases high : 0x800 ≤ n.toNat
  · rw [if_pos high]
    cases c with
    | game l t => exact .fails
    | sys h k z => exact absurd high (of_decide_eq_false own)
  · rw [if_neg high]
    exact .both .issue .fails
theorem execMts_sound {c : Ctx} {ra : RegNo} {n : BitVec 12} {s : State} (own : firmwares (.mts c ra n) = false) : (execMts c ra n s).sound s ((!ctxOk c) = true) := by
  unfold execMts
  dsimp only
  by_cases high : 0x800 ≤ n.toNat
  · rw [if_pos high]
    cases c with
    | game l t => exact .fails
    | sys h k z => exact absurd high (of_decide_eq_false own)
  · rw [if_neg high]
    exact .both .issue .fails
theorem execSysx_sound {c : Ctx} {b : BitVec 26} {s : State} (own : firmwares (.sysx c b) = false) : (execSysx c b s).sound s ((!ctxOk c) = true) := by
  cases c with
  | game l t => exact .fails
  | sys h k z => exact absurd own nofun
theorem unitsOf_eq (u : UnitKind) : unitsOf u = unitCount u := by cases u <;> rfl
theorem monitorsOf_eq (k : Nat) : monitorsOf k = monCount k := by
  match k with
  | 0 | 1 | _ + 2 => rfl

/-- Every command but firmware's own faults exactly where it is ill-formed, and answers a next state within the bounds elsewhere. -/
theorem exec_sound (i : Instr) (s : State) (own : firmwares i = false) : Res.sound s (i.wellFormed = false) (exec i s) := by
  cases i with
  | aluOp => exact execAluOp_sound.ctx
  | immediateOp => exact execImmediateOp_sound.ctx
  | mulOp => exact execMulOp_sound.ctx
  | divOp => exact execDivOp_sound.ctx
  | unitResultWrite => exact execUnitResultWrite_sound.ctx
  | fpOp => exact execFpOp_sound.ctx
  | fmaOp => exact execFmaOp_sound.ctx
  | compareAndBranch => exact execCompareAndBranch_sound.ctx
  | j => exact execJ_sound.ctx
  | jal => exact execJal_sound.ctx
  | jalr => exact execJalr_sound.ctx
  | load => exact execLoad_sound.ctx
  | store => exact execStore_sound.ctx
  | amo => exact execAmo_sound.ctx
  | mfs c rd n => exact (execMfs_sound own).ctx
  | mts c ra n => exact (execMts_sound own).ctx
  | ecall => exact execEcall_sound.ctx
  | ebreak => exact execEbreak_sound.ctx
  | eret => exact execEret_sound.ctx
  | wait => exact execWait_sound.ctx
  | waitResume => exact execWaitResume_sound.ctx
  | mbar => exact execMbar_sound.ctx
  | isync => exact execIsync_sound.ctx
  | sysx c b => exact (execSysx_sound own).ctx
  | interruptEntry => exact execInterruptEntry_sound.ctx
  | loadDataReturn => exact execLoadDataReturn_sound.ctx
  | prefetchFill => exact execPrefetchFill_sound.ctx
  | storeBufferDrain => exact execStoreBufferDrain_sound.ctx
  | videoGateWrite => exact execVideoGateWrite_sound.lane
  | beamWriteApply => exact execBeamWriteApply_sound.lane
  | stampedReadRelease => exact execStampedReadRelease_sound.lane
  | milestone => exact execMilestone_sound.lane
  | frameBoundary => exact execFrameBoundary_sound.lane
  | frameLate => exact execFrameLate_sound.lane
  | slackHold => exact execSlackHold_sound.lane
  | slackHoldEnd => exact execSlackHoldEnd_sound.lane
  | vblankHoldEnd => exact execVblankHoldEnd_sound.lane
  | holdFault => exact execHoldFault_sound.lane
  | crossThreadEffect => exact execCrossThreadEffect_sound.lane
  | thrCtlStart => exact execThrCtlStart_sound.iff (by simp [Instr.wellFormed, laneOk, below]; omega)
  | thrCtlExit => exact execThrCtlExit_sound.iff (by simp [Instr.wellFormed, laneOk, below]; omega)
  | pauseTakesEffect => exact execPauseTakesEffect_sound.lane
  | laneWake => exact execLaneWake_sound.lane
  | licSourcePending => exact execLicSourcePending_sound.laneUnit
  | licEoi => exact execLicEoi_sound.laneUnit
  | licEnableSet => exact execLicEnableSet_sound.laneUnit
  | licEnableClr => exact execLicEnableClr_sound.laneUnit
  | licPendClear => exact execLicPendClear_sound.laneUnit
  | licPendSet => exact execLicPendSet_sound.laneUnit
  | timerTick => exact execTimerTick_sound.laneUnit
  | timerWrap => exact execTimerWrap_sound.laneUnit
  | timerCompare => exact execTimerCompare_sound.laneUnit
  | timCtlWrite => exact execTimCtlWrite_sound.laneUnit
  | timCntWrite => exact execTimCntWrite_sound.laneUnit
  | timCmpWrite => exact execTimCmpWrite_sound.laneUnit
  | timerStart => exact execTimerStart_sound.laneUnit
  | timerStop => exact execTimerStop_sound.laneUnit
  | timCapTrig => exact execTimCapTrig_sound.lane
  | timCapRead => exact execTimCapRead_sound.laneUnit
  | timCntPairRead => exact execTimCntPairRead_sound.laneUnit
  | lineFetchStart => exact execLineFetchStart_sound.lane
  | lineFetchComplete => exact execLineFetchComplete_sound.lane
  | opacityRescan => exact execOpacityRescan_sound.lane
  | rasOpqWrite => exact execRasOpqWrite_sound.laneUnit
  | dotCompose => exact execDotCompose_sound.lane
  | tapFrameEnd => exact execTapFrameEnd_sound.lane
  | pointBRead => exact execPointBRead_sound.lane
  | sliceClose => exact execSliceClose_sound.lane
  | cpsCommitReq => exact execCpsCommitReq_sound.lane
  | overlayCopy => exact execOverlayCopy_sound.lane
  | cpsTapIdxWrite => exact execCpsTapIdxWrite_sound.lane
  | bltStart => exact execBltStart_sound.lane
  | bltGroup => exact execBltGroup_sound.lane
  | bltEnd => exact execBltEnd_sound.lane
  | soundFetchStart => exact execSoundFetchStart_sound.lane
  | soundTick => exact execSoundTick_sound.lane
  | sndGateSet => exact execSndGateSet_sound.lane
  | sndGateClr => exact execSndGateClr_sound.lane
  | sndRetrig => exact execSndRetrig_sound.lane
  | sndEchoCtlWrite => exact execSndEchoCtlWrite_sound.lane
  | weirInput => exact execWeirInput_sound.laneUnit
  | streamSample => exact execStreamSample_sound.lane
  | nodeTimeout => exact execNodeTimeout_sound.iff (by simp [Instr.wellFormed, laneOk, below]; omega)
  | opusFrameEncode => exact execOpusFrameEncode_sound.laneUnit
  | audioSend => exact execAudioSend_sound.iff (by simp [Instr.wellFormed, laneOk, below]; omega)
  | announceRead => exact execAnnounceRead_sound.lane
  | datagramTransmit => exact execDatagramTransmit_sound.unit
  | lateTxDiscard => exact execLateTxDiscard_sound.unit
  | timingReport => exact execTimingReport_sound.unit
  | moveRepeat => exact execMoveRepeat_sound.unit
  | leaveRepeat => exact execLeaveRepeat_sound.unit
  | ack => exact execAck_leads.always
  | refresh => exact execRefresh_leads.always
  | input => exact execInput_leads.always
  | accessory => exact execAccessory_leads.always
  | voice => exact execVoice_leads.always
  | join => exact execJoin_leads.always
  | probe => exact execProbe_leads.always
  | command => exact execCommand_leads.always
  | arpRequest => exact execArpRequest_sound.unit
  | neighbourSolicitation => exact execNeighbourSolicitation_sound.unit
  | padInputApply => exact execPadInputApply_sound.lane
  | accessoryApply => exact execAccessoryApply_sound.lane
  | viewerChangeApply => exact execViewerChangeApply_sound.lane
  | notifyApply => exact execNotifyApply_sound.lane
  | viewerIdle => exact execViewerIdle_sound.unit
  | lockTimeout => exact execLockTimeout_sound.lane
  | subportFail => exact execSubportFail_sound.unit
  | gratuitousArp => exact execGratuitousArp_sound.unit
  | failback => exact execFailback_sound.unit
  | contextCapture => exact execContextCapture_sound.laneUnit
  | nearSramPageCopy => exact execNearSramPageCopy_sound.lane
  | laneUnitStateRecord => exact execLaneUnitStateRecord_sound.lane
  | checkpointGood => exact execCheckpointGood_sound.lane
  | restoreComplete => exact execRestoreComplete_sound.lane
  | scrub => exact execScrub_sound.unit
  | pseudoChannelSpare => exact execPseudoChannelSpare_sound.unit
  | titleCopyComplete => exact execTitleCopyComplete_leads.always
  | snapshotRound => exact execSnapshotRound_sound.lane
  | submissionFetch => exact execSubmissionFetch_sound.unit
  | completionWrite => exact execCompletionWrite_sound.unit
  | eventRingWrite => exact execEventRingWrite_leads.always
  | sqTailWrite => exact execSqTailWrite_sound.unit
  | cqHeadWrite => exact execCqHeadWrite_sound.unit
  | evHeadWrite => exact execEvHeadWrite_leads.always
  | queuePairEnable => exact execQueuePairEnable_sound.unit
  | queuePairDisable => exact execQueuePairDisable_sound.unit
  | eventRingEnable => exact execEventRingEnable_leads.always
  | msixVectorUnmask => exact execMsixVectorUnmask_sound.unit
  | functionLevelReset => exact execFunctionLevelReset_leads.always
  | smbusBlockWrite => exact execSmbusBlockWrite_leads.always
  | smbusBlockRead => exact execSmbusBlockRead_leads.always
  | smbusAlertResponse => exact execSmbusAlertResponse_leads.always
  | laneStart => exact execLaneStart_leads.always
  | laneStop => exact execLaneStop_leads.always
  | lanePause => exact execLanePause_leads.always
  | laneResume => exact execLaneResume_leads.always
  | laneNotify => exact execLaneNotify_leads.always
  | laneQuery => exact execLaneQuery_leads.always
  | viewerAdd => exact execViewerAdd_leads.always
  | viewerRemove => exact execViewerRemove_leads.always
  | viewerSet => exact execViewerSet_leads.always
  | viewerRekey => exact execViewerRekey_leads.always
  | viewerKeyframe => exact execViewerKeyframe_leads.always
  | lanePacer => exact execLanePacer_leads.always
  | timingSet => exact execTimingSet_leads.always
  | laneTune => exact execLaneTune_leads.always
  | ovLoad => exact execOvLoad_leads.always
  | opSet => exact execOpSet_leads.always
  | opCommit => exact execOpCommit_leads.always
  | xptSet => exact execXptSet_leads.always
  | announceRing => exact execAnnounceRing_leads.always
  | titleLoad => exact execTitleLoad_leads.always
  | titleUnload => exact execTitleUnload_leads.always
  | titleRepair => exact execTitleRepair_leads.always
  | laneSnapshot => exact execLaneSnapshot_leads.always
  | laneRestore => exact execLaneRestore_leads.always
  | movePlan => exact execMovePlan_leads.always
  | laneMove => exact execLaneMove_leads.always
  | monRead => exact execMonRead_leads.always
  | monLimits => exact execMonLimits_leads.always
  | lifeRead => exact execLifeRead_leads.always
  | lifeFlush => exact execLifeFlush_leads.always
  | selftest => exact execSelftest_leads.always
  | faultRead => exact execFaultRead_leads.always
  | unitRetire => exact execUnitRetire_leads.always
  | faultInject => exact execFaultInject_leads.always
  | fwStage => exact execFwStage_leads.always
  | fwCommit => exact execFwCommit_leads.always
  | fwQuery => exact execFwQuery_leads.always
  | presenceStatus => exact execPresenceStatus_leads.always
  | presenceEnd => exact execPresenceEnd_leads.always
  | ctrlFlow => exact execCtrlFlow_leads.always
  | devInfo => exact execDevInfo_leads.always
  | portCfg => exact execPortCfg_leads.always
  | portAddr => exact execPortAddr_leads.always
  | portDrain => exact execPortDrain_leads.always
  | regRead => exact execRegRead_leads.always
  | drain => exact execDrain_leads.always
  | drainStatus => exact execDrainStatus_leads.always
  | eventSub => exact execEventSub_leads.always
  | nop => exact execNop_leads.always
  | faultDetected => exact execFaultDetected_sound
  | spRestartComplete => exact execSpRestartComplete_leads.always
  | halfRecoveryEnd => exact execHalfRecoveryEnd_leads.always
  | laneUnitRotation => exact execLaneUnitRotation_leads.always
  | spareHandoff => exact execSpareHandoff_sound.lane
  | unitTestComplete h u i => exact execUnitTestComplete_sound.iff (by simp [Instr.wellFormed, below, unitsOf_eq])
  | coreSwap => exact execCoreSwap_leads.always
  | heartbeatSend => exact execHeartbeatSend_leads.always
  | heartbeatReceive => exact execHeartbeatReceive_sound.unit
  | heartbeatMiss => exact execHeartbeatMiss_leads.always
  | claimResolve => exact execClaimResolve_leads.always
  | roleListenEnd => exact execRoleListenEnd_leads.always
  | authoritySample => exact execAuthoritySample_leads.always
  | monitorUpdate h k i => exact execMonitorUpdate_sound.iff (by simp [Instr.wellFormed, below, monitorsOf_eq]; omega)
  | ladderPause => exact execLadderPause_leads.always
  | ladderResume => exact execLadderResume_leads.always
  | avsUpdate => exact execAvsUpdate_leads.always
  | avsRetry => exact execAvsRetry_leads.always
  | droopStart => exact execDroopStart_sound.unit
  | droopEnd => exact execDroopEnd_sound.unit
  | thermtrip => exact execThermtrip_leads.always
  | lifeSecond => exact execLifeSecond_leads.always
  | lifetimeFlush => exact execLifetimeFlush_leads.always
  | mirrorWrite => exact execMirrorWrite_leads.always
  | pwrgdRise => exact execPwrgdRise_leads.always
  | pwrgdFall => exact execPwrgdFall_leads.always
  | resetNAssert => exact execResetNAssert_leads.always
  | resetNRelease => exact execResetNRelease_leads.always
  | bootStageComplete => exact execBootStageComplete_leads.always
  | deviceReady => exact execDeviceReady_leads.always
  | perstAssert => exact execPerstAssert_leads.always
  | perstRelease => exact execPerstRelease_leads.always
  | refclkLoss => exact execRefclkLoss_leads.always
  | eject => exact execEject_leads.always
  | drainNotice => exact execDrainNotice_leads.always
  | finalRound => exact execFinalRound_sound.lane
  | imageWriteOut => exact execImageWriteOut_sound.lane
  | drainBufferTimeout => exact execDrainBufferTimeout_leads.always
  | safe => exact execSafe_leads.always
  | fwCopy => exact execFwCopy_leads.always
  | trialRestart => exact execTrialRestart_leads.always
  | trialRestartTimeout => exact execTrialRestartTimeout_leads.always
  | presenceAction => exact execPresenceAction_leads.always
  | grantExpiry => exact execGrantExpiry_leads.always
  | sealBandChange => exact execSealBandChange_leads.always
  | mfioMuxWrite => exact execMfioMuxWrite_sound.unit
  | mfioSwitchHoldEnd => exact execMfioSwitchHoldEnd_sound.unit
  | mfioCfgWrite => exact execMfioCfgWrite_sound.unit
  | pinInterrupt => exact execPinInterrupt_sound.unit
  | registerWrite => exact execRegisterWrite_sound
  | illegalInstruction => exact execIllegalInstruction_sound.ctx
  | instructionAccessFault => exact execInstructionAccessFault_sound.ctx
  | receivedFrameDiscard => exact execReceivedFrameDiscard_leads.always
  | subportLinkUp => exact execSubportLinkUp_sound.unit
  | msixDeferredSend => exact execMsixDeferredSend_sound.unit
  | trainingTablesWrite => exact execTrainingTablesWrite_leads.always

/-- What firmware's own instructions and registers answer at system level. -/
theorem exec_sysx_sys (h : HalfId) (k z : Nat) (b : BitVec 26) (s : State) : exec (.sysx (.sys h k z) b) s =
    if !ctxOk (.sys h k z) then noUnit else if s.issues (.sys h k z) (.sysx b) then .refused .firmware else stay s := rfl
theorem exec_mfs_sys {h : HalfId} {k z : Nat} {rd : RegNo} {m : BitVec 12} (high : 0x800 ≤ m.toNat) (s : State) : exec (.mfs (.sys h k z) rd m) s =
    if !ctxOk (.sys h k z) then noUnit else if s.issues (.sys h k z) (.mfs rd m) then .refused .firmware else stay s := if_pos high
theorem exec_mts_sys {h : HalfId} {k z : Nat} {ra : RegNo} {m : BitVec 12} (high : 0x800 ≤ m.toNat) (s : State) : exec (.mts (.sys h k z) ra m) s =
    if !ctxOk (.sys h k z) then noUnit else if s.issues (.sys h k z) (.mts ra m) then .refused .firmware else stay s := if_pos high
/-- The three of them as one. -/
theorem exec_firmware {i : Instr} (fw : firmwares i = true) : ∃ h k z n, i.wellFormed = ctxOk (.sys h k z) ∧
    ((∃ b, i = .sysx (.sys h k z) b) ∨ (∃ rd m, i = .mfs (.sys h k z) rd m ∧ 0x800 ≤ m.toNat) ∨ (∃ ra m, i = .mts (.sys h k z) ra m ∧ 0x800 ≤ m.toNat)) ∧
    ∀ s, exec i s = if !ctxOk (.sys h k z) then noUnit else if s.issues (.sys h k z) n then .refused .firmware else stay s := by
  unfold firmwares at fw
  split at fw
  · next h k z rd m => exact ⟨h, k, z, _, rfl, .inr (.inl ⟨rd, m, rfl, of_decide_eq_true fw⟩), exec_mfs_sys (of_decide_eq_true fw)⟩
  · next h k z ra m => exact ⟨h, k, z, _, rfl, .inr (.inr ⟨ra, m, rfl, of_decide_eq_true fw⟩), exec_mts_sys (of_decide_eq_true fw)⟩
  · next h k z b => exact ⟨h, k, z, _, rfl, .inl ⟨b, rfl⟩, exec_sysx_sys h k z b⟩
  · cases fw

/-- Settles O55: `exec_sound` for every command but firmware's own, `exec_firmware` for those. -/
theorem stopsExactly : Obligations.StopsExactly := by
  unfold Obligations.StopsExactly
  refine ⟨fun i s bad => ?_, fun i s good f => ?_, fun c i n s ok sys turn own => ?_, fun i s r refused => ?_⟩
  · cases fw : firmwares i with
    | false => exact (exec_sound i s fw).1 bad
    | true =>
      obtain ⟨h, k, z, n, wf, _, acts⟩ := exec_firmware fw
      rw [acts, if_pos (by rw [← wf, bad]; rfl)]
      rfl
  · cases fw : firmwares i with
    | false =>
      obtain ⟨t, next, _⟩ := (exec_sound i s fw).2 (by simp [good])
      rw [next]
      nofun
    | true =>
      obtain ⟨h, k, z, n, wf, _, acts⟩ := exec_firmware fw
      rw [acts, if_neg (by simp [← wf, good])]
      split <;> nofun
  · obtain ⟨h, k, z, rfl⟩ := sys
    have here : ¬ (!ctxOk (.sys h k z)) = true := by
      rw [show ctxOk (.sys h k z) = true from ok]
      exact Bool.false_ne_true
    rcases own with ⟨b, rfl, rfl⟩ | ⟨rd, m, rfl, rfl, high⟩ | ⟨ra, m, rfl, rfl, high⟩
    · rw [exec_sysx_sys, if_neg here, if_pos turn]
    · rw [exec_mfs_sys high, if_neg here, if_pos turn]
    · rw [exec_mts_sys high, if_neg here, if_pos turn]
  · cases fw : firmwares i with
    | false =>
      by_cases bad : i.wellFormed = false
      · rw [(exec_sound i s fw).1 bad] at refused
        cases refused
      · obtain ⟨t, next, _⟩ := (exec_sound i s fw).2 bad
        rw [next] at refused
        cases refused
    | true =>
      obtain ⟨h, k, z, n, _, form, acts⟩ := exec_firmware fw
      rw [acts] at refused
      split at refused
      · cases refused
      · split at refused
        · cases refused
          exact ⟨rfl, h, k, z, form⟩
        · cases refused

/-- Settles O57: the command at the front of the queue keeps the bounds, as every command does (`exec_sound`). -/
theorem stepKeepsBounds : Obligations.StepKeepsBounds := by
  intro s t b next
  unfold step at next
  split at next
  · cases next
    exact b
  · next i rest _ =>
    have left : ({ s with pending := rest } : State).bounded := b.of_halves (by rfl)
    cases fw : firmwares i with
    | false =>
      by_cases bad : i.wellFormed = false
      · rw [(exec_sound i _ fw).1 bad] at next
        cases next
      · obtain ⟨u, goes, keeps⟩ := (exec_sound i _ fw).2 bad
        rw [goes] at next
        cases next
        exact keeps left
    | true =>
      obtain ⟨h, k, z, n, _, _, acts⟩ := exec_firmware fw
      rw [acts] at next
      split at next
      · cases next
      · split at next
        · cases next
        · cases next
          exact left

end Sys2Proof.Machine
end

section
/-! PROOFS. The levee of a lane (R13, R447): the parts of work inside a lane, none of which reaches another lane. -/
namespace Sys2Proof.Machine
open Sys2Proof

/-- The lanes of the device other than `l` are in `t` what they are in `s`. -/
def State.others (l : Nat) (s t : State) : Prop := ∀ m, m < 256 → m ≠ l → t.lane m = s.lane m
/-- So they are as long as lane `l` has not stopped: a stop takes a lane's viewers, commands and placement with it. -/
def State.isolates (l : Nat) (s t : State) : Prop := (t.lane l).phase ≠ .stopped → s.others l t
/-- A command whose next state, if it answers one, leaves the other lanes so. -/
def Res.isolates (l : Nat) (s : State) (r : Res) : Prop := ∀ t, r = .next t → s.isolates l t

section
variable {l : Nat} {s t : State}

theorem State.others.refl : s.others l s := fun _ _ _ => rfl
theorem State.others.ofLanes {u : State} (w : s.others l t) (same : ∀ m, u.lane m = t.lane m) : s.others l u :=
  fun m hm d => (same m).trans (w m hm d)
theorem State.others.isolates (w : s.others l t) : s.isolates l t := fun _ => w

/-! The operations of a lane's work. -/
theorem State.others.putLane (w : s.others l t) (hl : l < 256) (L : Lane) : s.others l (t.putLane l L) :=
  fun m hm d => (t.lane_putLane_other l m L hl hm d).trans (w m hm d)
theorem State.others.putThread (w : s.others l t) (hl : l < 256) (k : Nat) (x : Thread) : s.others l (t.putThread (.game l k) x) :=
  w.putLane hl _
theorem State.others.tookSlot (w : s.others l t) (c : Ctx) : s.others l (t.tookSlot c) := w.ofLanes (t.lane_tookSlot c)
theorem State.others.event (w : s.others l t) (h : HalfId) (code lane frame data : Nat) : s.others l (t.event h code lane frame data) :=
  w.ofLanes (t.lane_event h code lane frame data)
theorem State.others.ckptLost (w : s.others l t) (k n : Nat) : s.others l (t.ckptLost k n) := w.ofLanes fun m => t.lane_ckptLost k n m
theorem State.others.putHalf (w : s.others l t) {h : HalfId} {H : Half} (same : H.lanes = (t.half h).lanes) : s.others l (t.putHalf h H) :=
  w.ofLanes (State.lane_putHalf same)
theorem State.others.sendReads (w : s.others l t) (hl : l < 256) (k : Nat) : s.others l (t.sendReads (.game l k)) := w.putLane hl _
theorem State.others.storeThrough (w : s.others l t) (hl : l < 256) (a : Nat) (b : Bytes) : s.others l (t.storeThrough l a b) :=
  (w.putHalf (h := halfOf l) (H := { t.half (halfOf l) with dcache := writeLine (t.half (halfOf l)).dcache (t.lane l).core (laneSpace l) a b }) rfl).putLane hl _
theorem State.others.named (w : s.others l t) (hl : l < 256) (k v n : Nat) : s.others l (t.named (.game l k) v n) := by
  unfold State.named
  dsimp only
  split
  · exact w
  · exact w.putLane hl _
theorem State.others.dropCode (w : s.others l t) (k : Nat) : s.others l (t.dropCode (.game l k)) := w.putHalf rfl
theorem State.others.dropWritten (w : s.others l t) (k a n : Nat) : s.others l (t.dropWritten k a n) := w.putHalf rfl

/-! The stop of the lane itself. -/
theorem State.phase_stopLane (s : State) (l : Nat) (except : Option Nat) : ((s.stopLane l except).lane l).phase = .stopped := by
  simp only [State.stopLane, State.freeLane, State.lane_putLane]
  rfl
theorem State.others.settleStop (w : s.others l t) : s.isolates l (t.settleStop l) := by
  unfold State.settleStop
  split
  · exact fun runs => absurd (t.phase_stopLane l none) runs
  · exact w.isolates
theorem State.others.afterThread (w : s.others l t) (hl : l < 256) (k : Nat) : s.isolates l (t.afterThread (.game l k)) := by
  unfold State.afterThread
  dsimp only
  split
  · have reported := w.event (halfOf l) 0x0001 l (t.lane l).frameNow (k + ((t.lane l).thread k).vt / 4 * 4)
    split
    · exact (reported.putLane hl _).settleStop
    · exact reported.isolates
  · exact w.isolates

/-! What reads of a lane's memory leave in its half: the caches only. -/
theorem Half.lanes_cachedRead (H : Half) (h : HalfId) (k m a n : Nat) (rd : Nat → Bytes) : (H.cachedRead h k m a n rd).2.lanes = H.lanes := by
  obtain ⟨_, _, _, e⟩ := H.cachedRead_caches_only h k m a n rd
  rw [e]
theorem Half.lanes_codeWord (H : Half) (h : HalfId) (k m : Nat) (b : Option (Nat × Bytes)) (a : Nat) (rd : Nat → Bytes) :
    (H.codeWord h k m b a rd).2.2.lanes = H.lanes := by
  obtain ⟨_, _, _, e⟩ := H.codeWord_caches_only h k m b a rd
  rw [e]
theorem State.others.laneData (w : s.others l t) {k : Nat} {p : LoadPend} {r : Nat × State} (read : t.laneData k p = some r) : s.others l r.2 := by
  unfold State.laneData at read
  dsimp only at read
  split at read
  · cases read
  · split at read
    · split at read <;> cases read
      exact w
    · split at read
      · cases read
        exact w
      · split at read <;> cases read
        · exact w
        · exact w.putHalf (Half.lanes_cachedRead ..)

/-! The forms of a command. -/
theorem Res.isolates.next (w : s.isolates l t) : Res.isolates l s (.next t) := fun _ e => Host.Outcome.next.inj e ▸ w
theorem Res.isolates.stay : Res.isolates l s (stay s) := .next State.others.refl.isolates
theorem Res.isolates.noUnit : Res.isolates l s noUnit := by
  intro t e
  cases e
theorem Res.isolates.ite {c : Prop} [Decidable c] {r q : Res} (w : r.isolates l s) (d : q.isolates l s) : Res.isolates l s (if c then r else q) := by
  split
  · exact w
  · exact d
theorem Res.isolates.given {k : Nat} {r : Res} (w : l < 256 → r.isolates l s) : Res.isolates l s (if !ctxOk (.game l k) then Machine.noUnit else r) := by
  split
  · exact .noUnit
  · next ok => exact w (by simp [ctxOk] at ok; exact ok.1)
theorem Res.isolates.onLane {f : Lane → Option (Lane × Nat)} : (s.onLane l f).isolates l s := fun _ e => State.others.isolates fun _ hm d => State.onLane_other e hm d
theorem Res.isolates.timRow {off v vt : Nat} : (timRow off v vt l s).isolates l s := .onLane
theorem Res.isolates.sndRow {off v : Nat} : (sndRow off v l s).isolates l s := .onLane
theorem Res.isolates.inputRow {kind : Nat} {f : Lane → LaneInput → Lane} : (inputRow kind f l s).isolates l s := .onLane
theorem Res.isolates.issue {k : Nat} {i : NInstr} {f : CoreEnv → Thread → Thread} : (s.issue (.game l k) i f).isolates l s := by
  unfold State.issue
  exact .given fun hl => .ite (.next (State.others.isolates ((State.others.refl.tookSlot _).putThread hl k _))) .stay
theorem Res.isolates.except (hl : l < 256) {k : Nat} {e : Cause} : (s.except (.game l k) e).isolates l s := by
  have entered (x : Thread) := ((State.others.refl (s := s)).tookSlot (.game l k)).putThread hl k x
  unfold State.except
  exact .ite (.next ((entered _).afterThread hl k)) (.next (entered _).isolates)
theorem Res.isolates.fails {k : Nat} {i : NInstr} {e : Cause} : (s.fails (.game l k) i e).isolates l s := by
  unfold State.fails
  exact .given fun hl => .ite (.except hl) .stay
theorem Res.isolates.goOn (hl : l < 256) {k : Nat} {q : Entering} : (s.goOn l k q).isolates l s := by
  unfold State.goOn
  dsimp only
  refine .ite ?_ .stay
  split
  · refine .next (State.others.afterThread ?_ hl k)
    split
    · exact (State.others.refl.putThread hl k _).named hl k _ _
    · exact State.others.refl.putThread hl k _
  · exact .stay

end

end Sys2Proof.Machine
end

section
/-! PROOFS. The levee of a lane (R13, R447): the commands of a game thread, and the isolation of the lanes. -/
namespace Sys2Proof.Machine
open Sys2Proof

section
variable {l k : Nat} {s : State}

theorem execUnitResultWrite_isolates {n : Nat} : (execUnitResultWrite (.game l k) n s).isolates l s := by
  unfold execUnitResultWrite
  refine .given fun hl => ?_
  dsimp only
  split
  · exact .ite (.next (State.others.refl.putThread hl k _).isolates) .stay
  · exact .stay
theorem execLoad_isolates {fn : LoadFn} {rt base : RegNo} {off : BitVec 16} : (execLoad (.game l k) fn rt base off s).isolates l s := by
  unfold execLoad
  refine .given fun hl => .ite .stay ?_
  dsimp only
  split
  · exact .except hl
  · exact .next (((State.others.refl.tookSlot _).putThread hl k _).sendReads hl k).isolates
theorem execStore_isolates {fn : StoreFn} {rt base : RegNo} {off : BitVec 16} : (execStore (.game l k) fn rt base off s).isolates l s := by
  unfold execStore
  refine .given fun hl => .ite .stay ?_
  dsimp only
  split
  · exact .except hl
  · exact .ite .stay (.next ((State.others.refl.tookSlot _).putThread hl k _).isolates)
theorem execAmo_isolates {fn : AmoFn} {w32 : Bool} {rd ra rb rc : RegNo} : (execAmo (.game l k) fn w32 rd ra rb rc s).isolates l s := by
  have issued (L : Lane) := ((State.others.refl (s := s)).tookSlot (.game l k)).putLane (l := l) (L := L)
  unfold execAmo
  refine .given fun hl => .ite .stay ?_
  dsimp only
  split
  · exact .except hl
  · refine .ite .stay (.ite (.ite ?_ .stay) ?_)
    · exact .next (issued _ hl).isolates
    · exact .next (((issued _ hl).storeThrough hl _ _).ckptLost l _).isolates
theorem execMfs_isolates {rd : RegNo} {n : BitVec 12} : (execMfs (.game l k) rd n s).isolates l s := .ite .fails (.ite .issue .fails)
theorem execMts_isolates {ra : RegNo} {n : BitVec 12} : (execMts (.game l k) ra n s).isolates l s := .ite .fails (.ite .issue .fails)
theorem execEret_isolates : (execEret (.game l k) s).isolates l s := by
  have returned (x : Thread) (hl : l < 256) := ((State.others.refl (s := s)).tookSlot (.game l k)).putThread hl k x
  unfold execEret
  refine .ite .fails (.given fun hl => .ite .stay ?_)
  dsimp only
  refine .ite (.next (returned _ hl).isolates) ?_
  split
  · exact .next (((returned _ hl).named hl k _ _).afterThread hl k)
  · exact .next (returned _ hl).isolates
theorem execWait_isolates : (execWait (.game l k) s).isolates l s := by
  unfold execWait
  exact .issue
theorem execWaitResume_isolates : (execWaitResume (.game l k) s).isolates l s := by
  unfold execWaitResume
  refine .given fun hl => ?_
  have resumed (x : Thread) := ((State.others.refl (s := s)).putThread hl k x).isolates
  refine .ite .stay (.ite ?_ (.ite (.next (resumed _)) .stay))
  split
  · exact .ite (.next (resumed _)) .stay
  · exact .stay
theorem execMbar_isolates : (execMbar (.game l k) s).isolates l s := .ite .issue (.given fun _ => .stay)
theorem execIsync_isolates : (execIsync (.game l k) s).isolates l s :=
  .ite (.given fun _ => .stay) (.given fun hl => .ite (.next (((State.others.refl.tookSlot _).putThread hl k _).dropCode k).isolates) .stay)
theorem execInterruptEntry_isolates : (execInterruptEntry (.game l k) s).isolates l s := by
  unfold execInterruptEntry
  refine .given fun hl => .ite .stay ?_
  dsimp only
  split
  · exact .stay
  · refine .ite .stay (.ite (.next (State.others.refl.putThread hl k _).isolates) ?_)
    split
    · exact .stay
    · exact .next ((((State.others.refl.putLane hl _).putThread hl k _).named hl k _ _).afterThread hl k)
theorem execLoadDataReturn_isolates {n : Nat} : (execLoadDataReturn (.game l k) n s).isolates l s := by
  unfold execLoadDataReturn
  refine .given fun hl => ?_
  dsimp only
  split
  · exact .stay
  · refine .ite ?_ ?_
    · split
      · exact .next ((State.others.refl.putLane hl _).putThread hl k _).settleStop
      · exact .stay
    · split
      · next read => exact .next ((State.others.refl.laneData read).putThread hl k _).settleStop
      · exact .stay
theorem execPrefetchFill_isolates : (execPrefetchFill (.game l k) s).isolates l s := by
  unfold execPrefetchFill
  refine .given fun hl => .ite .stay ?_
  have filled (x : Thread) := ((State.others.refl (s := s)).putThread hl k x).isolates
  dsimp only
  split
  · exact .goOn hl
  · refine .ite (.next (filled _)) (.ite (.next (filled _)) (.next (State.others.isolates ?_)))
    exact (State.others.refl.putHalf (Half.lanes_codeWord ..)).putThread hl k _
theorem execStoreBufferDrain_isolates : (execStoreBufferDrain (.game l k) s).isolates l s := by
  unfold execStoreBufferDrain
  refine .given fun hl => ?_
  dsimp only
  split
  · exact .next (State.others.refl.sendReads hl k).isolates
  · split
    · exact .stay
    · exact .next ((((State.others.refl.putLane hl _).storeThrough hl _ _).sendReads hl k).ckptLost l _).settleStop
theorem execIllegalInstruction_isolates {w : BitVec 32} : (execIllegalInstruction (.game l k) w s).isolates l s :=
  .given fun hl => .ite (.except hl) .stay
theorem execInstructionAccessFault_isolates : (execInstructionAccessFault (.game l k) s).isolates l s :=
  .given fun hl => .ite (.except hl) .stay
/-- The cached lines of what a group writes go first: the lane itself is then worked on. -/
theorem Res.isolates.dropped {a n : Nat} {f : Lane → Option (Lane × Nat)} : ((s.dropWritten l a n).onLane l f).isolates l s :=
  fun _ e => State.others.isolates fun _ hm d => (State.onLane_other e hm d).trans (State.others.refl.dropWritten l a n _ hm d)
theorem execBltGroup_isolates : (execBltGroup l s).isolates l s := by
  unfold execBltGroup
  split
  · exact .onLane
  · exact .ite .dropped .onLane
theorem execSoundTick_isolates : (execSoundTick l s).isolates l s := by
  unfold execSoundTick
  split
  · exact .onLane
  · refine .ite .onLane ?_
    dsimp only
    split
    · exact .dropped
    · exact .onLane

theorem Ctx.eq_game_of_laneOf {c : Ctx} (w : Ctx.laneOf c = some l) : ∃ k, c = .game l k := by
  cases c with
  | game m k => exact ⟨k, by rw [Option.some.inj w]⟩
  | sys => cases w
/-- Work inside a lane leaves the other lanes, as long as its own lane has not stopped with it. -/
theorem exec_isolates {i : Instr} (w : laneWork i = some l) : Res.isolates l s (exec i s) := by
  unfold exec
  cases i with
  | aluOp | immediateOp | mulOp | divOp | fpOp | fmaOp | compareAndBranch | j | jal =>
    obtain ⟨_, rfl⟩ := Ctx.eq_game_of_laneOf w
    exact .issue
  | ecall | ebreak | sysx =>
    obtain ⟨_, rfl⟩ := Ctx.eq_game_of_laneOf w
    exact .fails
  | jalr =>
    obtain ⟨_, rfl⟩ := Ctx.eq_game_of_laneOf w
    exact .ite .fails .issue
  | unitResultWrite =>
    obtain ⟨_, rfl⟩ := Ctx.eq_game_of_laneOf w
    exact execUnitResultWrite_isolates
  | load =>
    obtain ⟨_, rfl⟩ := Ctx.eq_game_of_laneOf w
    exact execLoad_isolates
  | store =>
    obtain ⟨_, rfl⟩ := Ctx.eq_game_of_laneOf w
    exact execStore_isolates
  | amo =>
    obtain ⟨_, rfl⟩ := Ctx.eq_game_of_laneOf w
    exact execAmo_isolates
  | mfs =>
    obtain ⟨_, rfl⟩ := Ctx.eq_game_of_laneOf w
    exact execMfs_isolates
  | mts =>
    obtain ⟨_, rfl⟩ := Ctx.eq_game_of_laneOf w
    exact execMts_isolates
  | eret =>
    obtain ⟨_, rfl⟩ := Ctx.eq_game_of_laneOf w
    exact execEret_isolates
  | wait =>
    obtain ⟨_, rfl⟩ := Ctx.eq_game_of_laneOf w
    exact execWait_isolates
  | waitResume =>
    obtain ⟨_, rfl⟩ := Ctx.eq_game_of_laneOf w
    exact execWaitResume_isolates
  | mbar =>
    obtain ⟨_, rfl⟩ := Ctx.eq_game_of_laneOf w
    exact execMbar_isolates
  | isync =>
    obtain ⟨_, rfl⟩ := Ctx.eq_game_of_laneOf w
    exact execIsync_isolates
  | interruptEntry =>
    obtain ⟨_, rfl⟩ := Ctx.eq_game_of_laneOf w
    exact execInterruptEntry_isolates
  | loadDataReturn =>
    obtain ⟨_, rfl⟩ := Ctx.eq_game_of_laneOf w
    exact execLoadDataReturn_isolates
  | prefetchFill =>
    obtain ⟨_, rfl⟩ := Ctx.eq_game_of_laneOf w
    exact execPrefetchFill_isolates
  | storeBufferDrain =>
    obtain ⟨_, rfl⟩ := Ctx.eq_game_of_laneOf w
    exact execStoreBufferDrain_isolates
  | illegalInstruction =>
    obtain ⟨_, rfl⟩ := Ctx.eq_game_of_laneOf w
    exact execIllegalInstruction_isolates
  | instructionAccessFault =>
    obtain ⟨_, rfl⟩ := Ctx.eq_game_of_laneOf w
    exact execInstructionAccessFault_isolates
  | videoGateWrite | beamWriteApply | stampedReadRelease | milestone | crossThreadEffect | lineFetchStart | lineFetchComplete
    | opacityRescan | tapFrameEnd | cpsCommitReq | overlayCopy | cpsTapIdxWrite | bltStart | bltEnd | soundFetchStart
    | streamSample | nearSramPageCopy | laneUnitStateRecord =>
    cases w
    exact .onLane
  | timCapTrig =>
    cases w
    exact .timRow
  | sndGateSet | sndGateClr | sndRetrig | sndEchoCtlWrite =>
    cases w
    exact .sndRow
  | padInputApply | accessoryApply | viewerChangeApply | notifyApply =>
    cases w
    exact .inputRow
  | thrCtlStart | thrCtlExit | licSourcePending | licEoi | licEnableSet | licEnableClr | licPendClear | licPendSet | timerTick | timerWrap
    | timerCompare | timCtlWrite | timCntWrite | timCmpWrite | timCapRead | timCntPairRead | rasOpqWrite | weirInput | nodeTimeout
    | opusFrameEncode | contextCapture =>
    cases w
    exact .ite .noUnit .onLane
  | timerStart | timerStop =>
    cases w
    exact .ite .noUnit (.ite .onLane .onLane)
  | bltGroup =>
    cases w
    exact execBltGroup_isolates
  | soundTick =>
    cases w
    exact execSoundTick_isolates
  | _ => cases w

end

/-- Settles O59, command by command: each part of a lane's work changes that lane, the caches and cores of its half and the events, and where
it stops the lane, the lane's phase says so. -/
theorem laneIsolation : Obligations.LaneIsolation := fun _ _ _ _ w ran runs m hm d => exec_isolates w _ ran runs m hm d

end Sys2Proof.Machine
end
